-- ==== Sys2Proof/Word.lean ====
section
/-! DEFINITION. The word types of the machine: a byte, a 64-bit register, a vector register and a predicate register of
the widest part, an instruction and a fetch line. -/

namespace Sys2Proof

/-- One byte of memory. -/
abbrev Byte := BitVec 8

/-- A g register, a state register, an address (R115). -/
abbrev Word := BitVec 64

/-- A v register at the width of the V2 (R9, R154); the V2e uses the low 1,024 bits. -/
abbrev VReg := BitVec 2048

/-- A p register at the width of the V2 (R115): VW/8 bits; the V2e uses the low 128. -/
abbrev PReg := BitVec 256

/-- The 96 bits of an instruction (R61). -/
abbrev Slot96 := BitVec 96

/-- A fetch line or a memory line: 64 bytes, line bit b being bit (b mod 8) of byte b/8 (R61). -/
abbrev Line := BitVec 512

end Sys2Proof
end

