-- ==== Sys2Proof/Syntax.lean ====
section
/-! DEFINITION. The syntax of the machine's steps: the five body formats of R70, and one constructor for each row
of spec/opcode_table.json. An instruction carries every field of its 96 bits as the encoding holds them, so that the
checks of R82 can judge reserved fields; a row that is one setting of a MOD bit or of a sub-field of another row's
encoding (FLTRD `.peek`, SBIND's kinds) has its own constructor, chosen by the decoder. The steps of agents and of the
outside world (BUNDLE_ISSUE onward) have no encoding. -/

namespace Sys2Proof

/-- Format R (R70). -/
structure FmtR where
  ty : BitVec 6 := 0
  pg : BitVec 4 := 0
  mod : BitVec 6 := 0
  d : BitVec 8 := 0
  a : BitVec 8 := 0
  b : BitVec 8 := 0
  c : BitVec 8 := 0
  imm : BitVec 32 := 0
  deriving DecidableEq, Repr, Inhabited

/-- Format I (R70). -/
structure FmtI where
  ty : BitVec 6 := 0
  pg : BitVec 4 := 0
  mod : BitVec 6 := 0
  d : BitVec 8 := 0
  a : BitVec 8 := 0
  imm : BitVec 48 := 0
  deriving DecidableEq, Repr, Inhabited

/-- Format B (R70): `disp` is SDISP48, in slots. -/
structure FmtB where
  ty : BitVec 6 := 0
  pg : BitVec 4 := 0
  mod : BitVec 6 := 0
  d : BitVec 8 := 0
  a : BitVec 8 := 0
  disp : BitVec 48 := 0
  deriving DecidableEq, Repr, Inhabited

/-- Format P (R70). -/
structure FmtP where
  ty : BitVec 6 := 0
  pg : BitVec 4 := 0
  mod : BitVec 6 := 0
  d : BitVec 8 := 0
  a : BitVec 8 := 0
  b : BitVec 8 := 0
  p1 : BitVec 12 := 0
  p2 : BitVec 12 := 0
  imm : BitVec 16 := 0
  deriving DecidableEq, Repr, Inhabited

/-- Format F (R70): rows and spans of a field. -/
structure FmtF where
  ty : BitVec 6 := 0
  pg : BitVec 4 := 0
  mod : BitVec 6 := 0
  drow : BitVec 8 := 0
  arow : BitVec 8 := 0
  brow : BitVec 8 := 0
  mrow : BitVec 8 := 0
  dw : BitVec 6 := 0
  aw : BitVec 6 := 0
  bw : BitVec 6 := 0
  imm : BitVec 14 := 0
  deriving DecidableEq, Repr, Inhabited

/-- A thread: a slot of a core, a context of a channel core (R271), or a system core's thread (R389). -/
inductive Who where
  | slot (c k : Nat)
  | ctx (ch i : Nat)
  | sys (n : Nat)
  deriving DecidableEq, Repr, Inhabited

/-- What issues bundles: a core's wheel (R24), a channel core (R273), a system core (R389). -/
inductive Issuer where
  | core (c : Nat)
  | chan (ch : Nat)
  | sys (n : Nat)
  deriving DecidableEq, Repr, Inhabited

/-- One constructor for each row of spec/opcode_table.json. -/
inductive Instr where
  /-- NOP (R133). -/
  | nop (f : FmtR)
  /-- BR (R127). -/
  | br (f : FmtB)
  /-- CALL (R127). -/
  | call (f : FmtB)
  /-- BRC (R127). -/
  | brc (f : FmtB)
  /-- DBNZ (R127). -/
  | dbnz (f : FmtB)
  /-- BRX (R127). -/
  | brx (f : FmtR)
  /-- JMP (R127). -/
  | jmp (f : FmtR)
  /-- FLW (R125). -/
  | flw (f : FmtR)
  /-- FLX (R126). -/
  | flx (f : FmtR)
  /-- IPF (R134). -/
  | ipf (f : FmtR)
  /-- TEND (R135). -/
  | tend (f : FmtR)
  /-- WATCH (R136). -/
  | watch (f : FmtR)
  /-- WAITA (R137). -/
  | waita (f : FmtR)
  /-- VWID (R138). -/
  | vwid (f : FmtR)
  /-- TSTART (R131). -/
  | tstart (f : FmtR)
  /-- TSTOP (R131). -/
  | tstop (f : FmtR)
  /-- TREAP (R131). -/
  | treap (f : FmtR)
  /-- TSTAT (R129). -/
  | tstat (f : FmtR)
  /-- TRD (R131). -/
  | trd (f : FmtR)
  /-- TWR (R131). -/
  | twr (f : FmtR)
  /-- TRET (R131). -/
  | tret (f : FmtR)
  /-- MOVS (R132). -/
  | movs (f : FmtR)
  /-- SETS (R132). -/
  | sets (f : FmtR)
  /-- SETSI (R132). -/
  | setsi (f : FmtI)
  /-- TRAP (R385). -/
  | trap (f : FmtR)
  /-- BRKP (R385). -/
  | brkp (f : FmtR)
  /-- SYSC (R386). -/
  | sysc (f : FmtR)
  /-- FLTRD (R387). -/
  | fltrd (f : FmtR)
  /-- FLTRD PEEK (R387). -/
  | fltrdPeek (f : FmtR)
  /-- CAPA (R388). -/
  | capa (f : FmtR)
  /-- ADD (R143). -/
  | add (f : FmtR)
  /-- SUB (R143). -/
  | sub (f : FmtR)
  /-- MUL (R143). -/
  | mul (f : FmtR)
  /-- MULH (R143). -/
  | mulh (f : FmtR)
  /-- MADD (R143). -/
  | madd (f : FmtR)
  /-- DIV (R145). -/
  | div (f : FmtR)
  /-- REM (R145). -/
  | rem (f : FmtR)
  /-- AND (R143). -/
  | and (f : FmtR)
  /-- OR (R143). -/
  | or (f : FmtR)
  /-- XOR (R143). -/
  | xor (f : FmtR)
  /-- SHL (R144). -/
  | shl (f : FmtR)
  /-- SHR (R144). -/
  | shr (f : FmtR)
  /-- SAR (R144). -/
  | sar (f : FmtR)
  /-- ROL (R144). -/
  | rol (f : FmtR)
  /-- MIN (R143). -/
  | min (f : FmtR)
  /-- MAX (R143). -/
  | max (f : FmtR)
  /-- SEL (R147). -/
  | sel (f : FmtR)
  /-- CMP (R146). -/
  | cmp (f : FmtR)
  /-- LEA (R148). -/
  | lea (f : FmtR)
  /-- ADDI (R149). -/
  | addi (f : FmtI)
  /-- ANDI (R149). -/
  | andi (f : FmtI)
  /-- ORI (R149). -/
  | ori (f : FmtI)
  /-- XORI (R149). -/
  | xori (f : FmtI)
  /-- SHLI (R149). -/
  | shli (f : FmtI)
  /-- SHRI (R149). -/
  | shri (f : FmtI)
  /-- SARI (R149). -/
  | sari (f : FmtI)
  /-- CMPI (R149). -/
  | cmpi (f : FmtI)
  /-- LI (R150). -/
  | li (f : FmtI)
  /-- LIH (R150). -/
  | lih (f : FmtI)
  /-- ADDPC (R150). -/
  | addpc (f : FmtI)
  /-- CLZ (R151). -/
  | clz (f : FmtR)
  /-- CTZ (R151). -/
  | ctz (f : FmtR)
  /-- POPC (R151). -/
  | popc (f : FmtR)
  /-- BSWAP (R151). -/
  | bswap (f : FmtR)
  /-- BFX (R152). -/
  | bfx (f : FmtR)
  /-- BFI (R152). -/
  | bfi (f : FmtR)
  /-- ABS (R151). -/
  | abs (f : FmtR)
  /-- EXT (R153). -/
  | ext (f : FmtR)
  /-- VADD (R162). -/
  | vadd (f : FmtR)
  /-- VSUB (R162). -/
  | vsub (f : FmtR)
  /-- VMUL (R162). -/
  | vmul (f : FmtR)
  /-- VFMA (R162). -/
  | vfma (f : FmtR)
  /-- VMIN (R162). -/
  | vmin (f : FmtR)
  /-- VMAX (R162). -/
  | vmax (f : FmtR)
  /-- VABS (R162). -/
  | vabs (f : FmtR)
  /-- VAND (R162). -/
  | vand (f : FmtR)
  /-- VOR (R162). -/
  | vor (f : FmtR)
  /-- VXOR (R162). -/
  | vxor (f : FmtR)
  /-- VSHL (R162). -/
  | vshl (f : FmtR)
  /-- VSHR (R162). -/
  | vshr (f : FmtR)
  /-- VSAR (R162). -/
  | vsar (f : FmtR)
  /-- VSEL (R162). -/
  | vsel (f : FmtR)
  /-- VCLAMP (R162). -/
  | vclamp (f : FmtR)
  /-- VDIV (R163). -/
  | vdiv (f : FmtR)
  /-- VSQRT (R163). -/
  | vsqrt (f : FmtR)
  /-- VCMP (R164). -/
  | vcmp (f : FmtR)
  /-- VCVT (R166). -/
  | vcvt (f : FmtR)
  /-- VSPLIT (R167). -/
  | vsplit (f : FmtR)
  /-- VQNT (R168). -/
  | vqnt (f : FmtR)
  /-- VDQNT (R169). -/
  | vdqnt (f : FmtR)
  /-- VLMUL (R170). -/
  | vlmul (f : FmtR)
  /-- VLACC (R170). -/
  | vlacc (f : FmtR)
  /-- VDOT (R171). -/
  | vdot (f : FmtR)
  /-- BADDQ (R172). -/
  | baddq (f : FmtR)
  /-- VSPLAT (R174). -/
  | vsplat (f : FmtR)
  /-- VINS (R174). -/
  | vins (f : FmtR)
  /-- VEXT (R174). -/
  | vext (f : FmtR)
  /-- VIOTA (R174). -/
  | viota (f : FmtR)
  /-- VPERM (R174). -/
  | vperm (f : FmtR)
  /-- VMOV (R174). -/
  | vmov (f : FmtR)
  /-- VRED (R175). -/
  | vred (f : FmtR)
  /-- VSCAN (R175). -/
  | vscan (f : FmtR)
  /-- PLT (R176). -/
  | plt (f : FmtR)
  /-- PSET (R176). -/
  | pset (f : FmtR)
  /-- PAND (R176). -/
  | pand (f : FmtR)
  /-- POR (R176). -/
  | por (f : FmtR)
  /-- PXOR (R176). -/
  | pxor (f : FmtR)
  /-- PNOT (R176). -/
  | pnot (f : FmtR)
  /-- PCNT (R176). -/
  | pcnt (f : FmtR)
  /-- PFIRST (R176). -/
  | pfirst (f : FmtR)
  /-- MMA (R188). -/
  | mma (f : FmtR)
  /-- MZERO (R193). -/
  | mzero (f : FmtR)
  /-- MRD (R193). -/
  | mrd (f : FmtR)
  /-- MWR (R193). -/
  | mwr (f : FmtR)
  /-- MSTAT (R194). -/
  | mstat (f : FmtR)
  /-- MSTAT W (R194). -/
  | mstatW (f : FmtR)
  /-- WBLD (R190). -/
  | wbld (f : FmtP)
  /-- WBINV (R191). -/
  | wbinv (f : FmtP)
  /-- MLOAD (R195). -/
  | mload (f : FmtP)
  /-- MDRAIN (R196). -/
  | mdrain (f : FmtP)
  /-- LD (R208). -/
  | ld (f : FmtR)
  /-- ST (R208). -/
  | st (f : FmtR)
  /-- LDV (R209). -/
  | ldv (f : FmtR)
  /-- STV (R209). -/
  | stv (f : FmtR)
  /-- GTH (R210). -/
  | gth (f : FmtR)
  /-- SCT (R210). -/
  | sct (f : FmtR)
  /-- AMO (R212). -/
  | amo (f : FmtR)
  /-- CAS (R213). -/
  | cas (f : FmtR)
  /-- AMOV (R214). -/
  | amov (f : FmtR)
  /-- SBIND IN (R215). -/
  | sbindIn (f : FmtR)
  /-- SBIND OUT (R215). -/
  | sbindOut (f : FmtR)
  /-- SBIND Q (R215). -/
  | sbindQ (f : FmtR)
  /-- SUNBIND (R217). -/
  | sunbind (f : FmtR)
  /-- SSTAT (R218). -/
  | sstat (f : FmtR)
  /-- CPY (R220). -/
  | cpy (f : FmtP)
  /-- MCAST (R221). -/
  | mcast (f : FmtP)
  /-- RFILL (R222). -/
  | rfill (f : FmtP)
  /-- CPYC (R223). -/
  | cpyc (f : FmtP)
  /-- ESEQ (R225). -/
  | eseq (f : FmtP)
  /-- ESEQ GO (R224). -/
  | eseqGo (f : FmtP)
  /-- ESEQ DROP (R224). -/
  | eseqDrop (f : FmtP)
  /-- EWAIT (R225). -/
  | ewait (f : FmtP)
  /-- FENCEX (R226). -/
  | fencex (f : FmtR)
  /-- CWB (R227). -/
  | cwb (f : FmtR)
  /-- FDMODE (R237). -/
  | fdmode (f : FmtR)
  /-- FDWAIT (R238). -/
  | fdwait (f : FmtR)
  /-- FDSTAT (R238). -/
  | fdstat (f : FmtR)
  /-- FDSTAT GO (R236). -/
  | fdstatGo (f : FmtR)
  /-- FDSTAT DROP (R236). -/
  | fdstatDrop (f : FmtR)
  /-- FDIN (R239). -/
  | fdin (f : FmtP)
  /-- FDOUT (R239). -/
  | fdout (f : FmtP)
  /-- FDADD (R241). -/
  | fdadd (f : FmtF)
  /-- FDSUB (R241). -/
  | fdsub (f : FmtF)
  /-- FDMUL (R241). -/
  | fdmul (f : FmtF)
  /-- FDCMP (R241). -/
  | fdcmp (f : FmtF)
  /-- FDSEL (R241). -/
  | fdsel (f : FmtF)
  /-- FDBIT (R241). -/
  | fdbit (f : FmtF)
  /-- FDMIN (R241). -/
  | fdmin (f : FmtF)
  /-- FDMAX (R241). -/
  | fdmax (f : FmtF)
  /-- FDLMUL (R243). -/
  | fdlmul (f : FmtF)
  /-- FDRQ (R244). -/
  | fdrq (f : FmtF)
  /-- FDPOP (R241). -/
  | fdpop (f : FmtF)
  /-- KPRB (R263). -/
  | kprb (f : FmtR)
  /-- KINS (R263). -/
  | kins (f : FmtR)
  /-- KUPS (R263). -/
  | kups (f : FmtR)
  /-- KUPS POST (R258). -/
  | kupsPost (f : FmtR)
  /-- KDEL (R263). -/
  | kdel (f : FmtR)
  /-- KPRBV (R264). -/
  | kprbv (f : FmtR)
  /-- KUPSV (R264). -/
  | kupsv (f : FmtR)
  /-- KUPSV POST (R264). -/
  | kupsvPost (f : FmtR)
  /-- KNEW (R266). -/
  | knew (f : FmtR)
  /-- KBIND (R267). -/
  | kbind (f : FmtR)
  /-- KSTAT (R268). -/
  | kstat (f : FmtR)
  /-- KHASH (R268). -/
  | khash (f : FmtR)
  /-- KITER (R269). -/
  | kiter (f : FmtR)
  /-- KCLR (R270). -/
  | kclr (f : FmtR)
  /-- XMIG (R277). -/
  | xmig (f : FmtR)
  /-- XRET (R280). -/
  | xret (f : FmtR)
  /-- XUPD (R281). -/
  | xupd (f : FmtR)
  /-- XNRM (R281). -/
  | xnrm (f : FmtR)
  /-- XOVL (R276). -/
  | xovl (f : FmtR)
  /-- XRLK (R283). -/
  | xrlk (f : FmtR)
  /-- XRUL (R283). -/
  | xrul (f : FmtR)
  /-- SEND (R298). -/
  | send (f : FmtR)
  /-- SEND R (R298). -/
  | sendR (f : FmtR)
  /-- SEND FAR (R298). -/
  | sendFar (f : FmtR)
  /-- RECV (R299). -/
  | recv (f : FmtR)
  /-- RECV NW (R299). -/
  | recvNw (f : FmtR)
  /-- LBACK (R300). -/
  | lback (f : FmtR)
  /-- ISTAT (R301). -/
  | istat (f : FmtR)
  /-- SPAWN (R304). -/
  | spawn (f : FmtR)
  /-- JOIN (R306). -/
  | join (f : FmtR)
  /-- TNEXT (R305). -/
  | tnext (f : FmtR)
  /-- STEAL (R305). -/
  | steal (f : FmtR)
  /-- QPUB (R308). -/
  | qpub (f : FmtR)
  /-- QPUB GW (R309). -/
  | qpubGw (f : FmtR)
  /-- QCLM (R308). -/
  | qclm (f : FmtR)
  /-- QCLM GW (R309). -/
  | qclmGw (f : FmtR)
  /-- QSTAT (R308). -/
  | qstat (f : FmtR)
  /-- QSTAT GW (R309). -/
  | qstatGw (f : FmtR)
  /-- NRED (R311). -/
  | nred (f : FmtR)
  /-- LNCH (R312). -/
  | lnch (f : FmtR)
  /-- PRMT (R313). -/
  | prmt (f : FmtR)
  /-- PRMT L (R313). -/
  | prmtL (f : FmtR)
  /-- RESM (R381). -/
  | resm (f : FmtR)
  /-- RESM L (R313). -/
  | resmL (f : FmtR)
  /-- CAPNEW (R322). -/
  | capnew (f : FmtR)
  /-- CAPWAIT (R323). -/
  | capwait (f : FmtR)
  /-- CAPWAIT NW (R323). -/
  | capwaitNw (f : FmtR)
  /-- CAPNEXT (R324). -/
  | capnext (f : FmtR)
  /-- CAPINS (R325). -/
  | capins (f : FmtR)
  /-- CAPDEL (R325). -/
  | capdel (f : FmtR)
  /-- CAPSET (R326). -/
  | capset (f : FmtR)
  /-- CAPGET (R326). -/
  | capget (f : FmtR)
  /-- CAPPARK (R327). -/
  | cappark (f : FmtR)
  /-- CAPDONE (R327). -/
  | capdone (f : FmtR)
  /-- PLSET (R348). -/
  | plset (f : FmtR)
  /-- PLGET (R348). -/
  | plget (f : FmtR)
  /-- PLINV (R348). -/
  | plinv (f : FmtR)
  /-- TRSET (R349). -/
  | trset (f : FmtR)
  /-- TRSET CLR (R349). -/
  | trsetClr (f : FmtR)
  /-- HTSET (R348). -/
  | htset (f : FmtR)
  /-- XLAT (R350). -/
  | xlat (f : FmtR)
  /-- TLBINV A (R351). -/
  | tlbinvA (f : FmtR)
  /-- TLBINV L (R351). -/
  | tlbinvL (f : FmtR)
  /-- TLBINV G (R351). -/
  | tlbinvG (f : FmtR)
  /-- MODLD (R352). -/
  | modld (f : FmtR)
  /-- MODLD DBG (R352). -/
  | modldDbg (f : FmtR)
  /-- MODUL (R353). -/
  | modul (f : FmtR)
  /-- BARA (R358). -/
  | bara (f : FmtR)
  /-- BARA JOIN (R358). -/
  | baraJoin (f : FmtR)
  /-- BARA LEAVE (R358). -/
  | baraLeave (f : FmtR)
  /-- BARW (R358). -/
  | barw (f : FmtR)
  /-- BARQ (R358). -/
  | barq (f : FmtR)
  /-- CTRSEL (R363). -/
  | ctrsel (f : FmtR)
  /-- CTRRD (R364). -/
  | ctrrd (f : FmtR)
  /-- TIMSET (R359). -/
  | timset (f : FmtR)
  /-- TSTMP (R360). -/
  | tstmp (f : FmtR)
  /-- CLKRD (R360). -/
  | clkrd (f : FmtR)
  /-- BUNDLE_ISSUE. R24: the wheel of `a` issues a bundle of the first runnable and eligible slot in rotation, or counts a bubble. -/
  | bundleIssue (a : Issuer)
  /-- REPLY_ARRIVAL. R26: the reply to the parked instruction of `w` arrives. -/
  | replyArrival (w : Who)
  /-- FETCH_LINE_ARRIVAL. R122: the code line that `w` waits for arrives. -/
  | fetchLineArrival (w : Who)
  /-- FOLLOW_JOIN. R125: slot `k` of the bellwether issues the awaited bundle and slot `k` of core `c` joins. -/
  | followJoin (c : Nat) (k : Nat)
  /-- FLW_TIMEOUT. R125: the FLW wait of slot `k` of core `c` expires. -/
  | flwTimeout (c : Nat) (k : Nat)
  /-- REMOTE_FILL_ARRIVAL. R119: the `i`-th remote fill in flight reaches its register. -/
  | remoteFillArrival (i : Nat)
  /-- STREAM_ELEMENT_ARRIVAL. R216: the next read-ahead element of the input stream on register `r` arrives. -/
  | streamElementArrival (c : Nat) (k : Nat) (r : Nat)
  /-- STREAM_WRITE_COMPLETION. R216: the oldest append of the output stream on register `r` is performed at its home. -/
  | streamWriteCompletion (c : Nat) (k : Nat) (r : Nat)
  /-- COPY_COMMAND_START. R219: the copy engine of core `c` starts the next entry of its queue. -/
  | copyCommandStart (c : Nat)
  /-- COPY_COMMAND_COMPLETION. R219: the command under way on core `c` completes. -/
  | copyCommandCompletion (c : Nat)
  /-- CHAIN_WALK_STEP. R223: the engine of core `c` asks the chain descriptor and follows NEXT or ends the walk. -/
  | chainWalkStep (c : Nat)
  /-- COPY_ENGINE_FAULT. R224: the chunk at which the command under way stands faults; the engine halts. -/
  | copyEngineFault (c : Nat)
  /-- MATRIX_OP_BEGIN. R180: the matrix unit of core `c` begins the next accepted unit operation. -/
  | matrixOpBegin (c : Nat)
  /-- MATRIX_OP_COMPLETION. R180: the unit operation under way on core `c` completes. -/
  | matrixOpCompletion (c : Nat)
  /-- FIELD_COMMAND_START. R233: the command at the head of the field queue of fold `f` begins. -/
  | fieldCommandStart (f : Nat)
  /-- FIELD_COMMAND_COMPLETION. R233: the field command under way on fold `f` completes. -/
  | fieldCommandCompletion (f : Nat)
  /-- FIELD_FAULT. R236: the FDIN or FDOUT under way on fold `f` faults; the sequencer halts. -/
  | fieldFault (f : Nat)
  /-- MAP_REQUEST_SERVICE. R255: the map agent of fold `f` serves or forwards its oldest request. -/
  | mapRequestService (f : Nat)
  /-- POSTED_UPSERT_APPLY. R258: the `i`-th posted upsert in flight is applied at its agent. -/
  | postedUpsertApply (i : Nat)
  /-- SPLIT_REQUEST. R259: the `i`-th pending split request reaches the descriptor agent. -/
  | splitRequest (i : Nat)
  /-- SPLIT. R259: the agent of group S of the map whose region begins at physical address `m` splits it. -/
  | split (m : Nat)
  /-- SPLIT_PUBLICATION. R259: the descriptor agent of map `m` advances S and L. -/
  | splitPublication (m : Nat)
  /-- MAP_COPY_UPDATE. R259: the published L and S reach the map-table copy of fold `f`, entry `n` of launch `l`. -/
  | mapCopyUpdate (f : Nat) (l : Nat) (n : Nat)
  /-- QUEUE_REQUEST_SERVICE. R307: the queue controller of fold `f` serves its oldest request. -/
  | queueRequestService (f : Nat)
  /-- MESSAGE_ARRIVAL. R294: the `i`-th message in flight arrives at its inbox. -/
  | messageArrival (i : Nat)
  /-- GATEWAY_RELAY. R298: the `i`-th far message held by a gateway is passed on. -/
  | gatewayRelay (i : Nat)
  /-- REDUCTION_COMBINE. R311: the router of node `n` of tree `t` combines and passes its partial on. -/
  | reductionCombine (t : Nat) (n : Nat)
  /-- REDUCTION_TOTAL_DELIVERY. R311: the root router of tree `t` delivers the total. -/
  | reductionTotalDelivery (t : Nat)
  /-- CONTEXT_TAKE. R277: a free context takes the thread shipped by slot `k` of core `c`. -/
  | contextTake (c : Nat) (k : Nat)
  /-- CONTEXT_FAULT_BACK. R279: the faulted thread of context `i` of channel core `ch` is shipped back. -/
  | contextFaultBack (ch : Nat) (i : Nat)
  /-- XRET_ARRIVAL. R280: the returning thread of context `i` of channel core `ch` arrives at its origin. -/
  | xretArrival (ch : Nat) (i : Nat)
  /-- NEAR_PACKET_APPLY. R282: the `i`-th near-memory packet in flight is applied, deferred or refused. -/
  | nearPacketApply (i : Nat)
  /-- CHANNEL_FILL. R275: a slice fill of physical line `ln` passes the channel. -/
  | channelFill (ln : Nat)
  /-- CHANNEL_EVICTION_NOTICE. R275: a write-back or eviction notice of line `ln` passes the channel. -/
  | channelEvictionNotice (ln : Nat)
  /-- LINE_EVICTION. R204: the home slice of physical line `ln` evicts it. -/
  | lineEviction (ln : Nat)
  /-- OVERLAY_LINE_ARRIVAL. R276: the code lines of window `w` of channel core `ch` arrive. -/
  | overlayLineArrival (ch : Nat) (w : Nat)
  /-- CAPSULE_DELIVERY. R319: the `i`-th capsule in transit is delivered. -/
  | capsuleDelivery (i : Nat)
  /-- TIMER_EXPIRY. R359: the timer of core `c` reaches 0. -/
  | timerExpiry (c : Nat)
  /-- SHEPHERD_FAULT_ESCALATION. R375: the fault of slot 0 of core `c` leaves the core. -/
  | shepherdFaultEscalation (c : Nat)
  /-- SYSC_REPLY. R386: Evoven Resident replies to the `i`-th pending SYSC. -/
  | syscReply (i : Nat)
  /-- PAGE_REFILL. R200: scratchpad page position `p` of core `c` is refilled from its backing. -/
  | pageRefill (c : Nat) (p : Nat)
  /-- TLB_WALK_COMPLETION. R343: a walk for `va` in the address space of core `c` completes. -/
  | tlbWalkCompletion (c : Nat) (va : BitVec 64)
  /-- LAUNCH_RECORD_TAKE. R291: the dispatcher takes the next record of the `i`-th registered ring. -/
  | launchRecordTake (i : Nat)
  /-- LAUNCH_PRIORITY_RAISE. R17: the Queued record `l` rises one level. -/
  | launchPriorityRaise (l : Nat)
  /-- LAUNCH_PLACEMENT. R292: the dispatcher gathers the folds of launch `l` and places it when all are held. -/
  | launchPlacement (l : Nat)
  /-- LAUNCH_RETIREMENT. R21: launch `l` retires. -/
  | launchRetirement (l : Nat)
  /-- LAUNCH_ABORT. R23: the system cores abort launch `l`, with status byte `st`. -/
  | launchAbort (l : Nat) (st : BitVec 8)
  /-- MODULE_FREE. R346: USE of the UNLOADING module `m` is 0 and its entry becomes FREE. -/
  | moduleFree (m : Nat)
  /-- HOST_WRITE. R393: a host write through the memory BAR. -/
  | hostWrite (off : Nat) (bytes : List (BitVec 8))
  /-- HOST_READ. R393: a host read of `n` bytes through the memory BAR. -/
  | hostRead (off : Nat) (n : Nat)
  /-- WINBASE_WRITE. R392: a host write of WINBASE. -/
  | winbaseWrite (v : BitVec 64)
  /-- REGISTER_BAR_WRITE. R394: a host write to a register BAR field other than WINBASE. -/
  | registerBarWrite (off : Nat) (v : BitVec 64)
  /-- DEVICE_RESET. R396: power-on, device reset or function-level reset. -/
  | deviceReset
  /-- LINK_BRINGUP. R399: link bring-up of a port. -/
  | linkBringup (port : Nat)
  /-- LINK_LANE_FAILURE. R400: a lane fails in service. -/
  | linkLaneFailure (port : Nat) (lane : Nat)
  /-- LINK_REQUEST_RETRY. R367: the `i`-th request held for want of a route is retried. -/
  | linkRequestRetry (i : Nat)
  /-- UNCORRECTABLE_DATA_ERROR. R403: an uncorrectable error poisons physical line `ln`, or a poisoned line is attended to. -/
  | uncorrectableDataError (ln : Nat)
  /-- HBM_ROW_SPARE. R402: a row of a channel is corrected once more and spared past ROWLIMIT. -/
  | hbmRowSpare (ch : Nat) (row : Nat)
  /-- SPARE_MAPPING. R402: service maps the spare of the fold of core `c` in for it. -/
  | spareMapping (c : Nat)
  /-- LIVE_FIRMWARE_UPDATE. R404: a new image, with this digest, is offered. -/
  | liveFirmwareUpdate (image : BitVec 512) (keyid : Nat) (sigOk : Bool)
  /-- MODULE_REMOVAL. R405: hot-swap removal. -/
  | moduleRemoval
  /-- OVER_TEMPERATURE. R406: the junction reaches 105 degrees. -/
  | overTemperature
  /-- HBM_LANE_SPARE. R402: an HBM lane of a channel fails and is replaced. -/
  | hbmLaneSpare (ch : Nat)
  /-- SRAM_ROW_SPARE. R402: a row or column of SRAM array `a` is replaced by a spare. -/
  | sramRowSpare (a : Nat)
  deriving DecidableEq, Repr, Inhabited

end Sys2Proof
end

