-- ==== Sys2Proof/WellFormed.lean ====
section
/-! DEFINITION. What the spec says of each instruction's form: its OP and SUB (R79), the TY codes it allows, the MOD,
immediate and operand fields it uses (R71), the kinds of its operands (R74), the unit it needs (R10) and its
restriction (R81); and the checks of R82 that follow from it: step 7 (ILLEGAL_OP) and step 9 (ILLEGAL_OPERAND). -/

namespace Sys2Proof

/-- The kind of one operand position (R74). `none`: the byte is reserved and must be 0 (R71). -/
inductive Kind where
  | none
  /-- scalar source: g0-g63 with T, zr, or a read-only name 113-118 -/
  | src
  /-- scalar destination: g0-g63 with W, or zr -/
  | dst
  /-- scalar source and destination; W faults (R127, R213) -/
  | srcDst
  /-- vector source: v0-v31 with T, zr, or `lanes` -/
  | vsrc
  /-- vector destination: v0-v31 with W, or zr -/
  | vdst
  | psrc
  | pdst
  | tile
  /-- even g0-g62, the first of two destinations (R303, R308) -/
  | evenDst
  /-- g0-g60, the first of four destinations (R384) -/
  | dst60
  /-- g0-g61, the first of three destinations (R321) -/
  | dst61
  /-- not an operand byte (XMIG's masks, R286) -/
  | raw
  /-- a map key: scalar under k64, an even pair or zr under k128 (R261) -/
  | key
  /-- a completion word: even gN, or zr (R219) -/
  | cword
  /-- judged by the instruction's own rule -/
  | special
  /-- a launch number on a system core, reserved elsewhere (R347) -/
  | launchArg
  /-- a scalar source under MOD[0], reserved otherwise (R357) -/
  | optSrc
  deriving DecidableEq, Repr

/-- Units a part may lack (R10). -/
inductive PartUnit where
  | none
  | field
  | chan
  deriving DecidableEq, Repr

/-- Who may issue an instruction (R81, R273). -/
inductive Priv where
  | none
  | shepherd
  | system
  | ctxOnly
  deriving DecidableEq, Repr

/-- Which further rule of its own an instruction's fields must keep. -/
inductive Extra where
  | none
  | amo
  | barq
  | bf
  | both
  | brc
  | capa
  | capget
  | capset
  | cond
  | ctrrd
  | ext
  | fdadd
  | fdbit
  | fdcmp
  | fdlmul
  | fdmax
  | fdmin
  | fdmode
  | fdmul
  | fdpop
  | fdrq
  | fdsel
  | fdsub
  | fence
  | kiter
  | kups
  | lanes
  | mdrain
  | mem4
  | mma
  | mode3
  | movs
  | prmt
  | red
  | sbind
  | sendr
  | sets
  | sstat
  | sunbind
  | trd
  | tstmp
  | twr
  | vcmp
  | vcvt
  | vdot
  | vm
  | vqnt
  | vsplit
  | wbld
  | xmig
  deriving DecidableEq, Repr

/-- The form of one instruction. `tys` has bit t set when TY code t is allowed, `mod` and `imm` the bits of MOD and of
the immediate the instruction uses, `sel` the setting of MOD (or, with `true`, of the immediate) that is this row. -/
structure OpSpec where
  tys : BitVec 64 := 1
  nar : Bool := false
  mod : BitVec 6 := 0
  pg : Bool := false
  d : Kind := .none
  a : Kind := .none
  b : Kind := .none
  c : Kind := .none
  imm : Nat := 0
  p1 : Bool := false
  p2 : Bool := false
  unit : PartUnit := .none
  priv : Priv := .none
  sel : Option (Bool × Nat × List Nat) := none
  x : Extra := .none
  deriving DecidableEq, Repr

/-- The body of an instruction in its format. -/
inductive Body where
  | fr (f : FmtR)
  | fi (f : FmtI)
  | fb (f : FmtB)
  | fp (f : FmtP)
  | ff (f : FmtF)
  deriving DecidableEq, Repr

/-- An instruction taken apart: OP, SUB, body and form. -/
structure View where
  op : Nat
  sub : Nat
  body : Body
  spec : OpSpec
  deriving DecidableEq, Repr

/-- The rows of R79 and of the chapters' instruction tables. A step of an agent or of the outside world has none. -/
def Instr.view (i : Instr) : Option View :=
  match i with
  | .nop f => some ⟨0x00, 0x00, .fr f, { tys := 0x1 }⟩
  | .br f => some ⟨0x01, 0x00, .fb f, { tys := 0x1, imm := 0xffffffffffff }⟩
  | .call f => some ⟨0x02, 0x00, .fb f, { tys := 0x1, d := .dst, imm := 0xffffffffffff }⟩
  | .brc f => some ⟨0x03, 0x00, .fb f, { tys := 0x1, mod := 0x7, a := .special, imm := 0xffffffffffff, x := .brc }⟩
  | .dbnz f => some ⟨0x04, 0x00, .fb f, { tys := 0x1, d := .srcDst, imm := 0xffffffffffff }⟩
  | .brx f => some ⟨0x05, 0x00, .fr f, { tys := 0x1, d := .dst, a := .src }⟩
  | .jmp f => some ⟨0x06, 0x00, .fr f, { tys := 0x1, d := .dst, a := .src }⟩
  | .flw f => some ⟨0x07, 0x00, .fr f, { tys := 0x1, d := .dst, a := .src }⟩
  | .flx f => some ⟨0x07, 0x01, .fr f, { tys := 0x1 }⟩
  | .ipf f => some ⟨0x07, 0x02, .fr f, { tys := 0x1, mod := 0x1, a := .src, b := .src }⟩
  | .tend f => some ⟨0x07, 0x03, .fr f, { tys := 0x1 }⟩
  | .watch f => some ⟨0x07, 0x04, .fr f, { tys := 0x1, mod := 0x3, a := .src, b := .src, imm := 0xffffffff }⟩
  | .waita f => some ⟨0x07, 0x05, .fr f, { tys := 0x1 }⟩
  | .vwid f => some ⟨0x07, 0x06, .fr f, { tys := 0x7f07ff, nar := true, d := .dst }⟩
  | .tstart f => some ⟨0x08, 0x00, .fr f, { tys := 0x1, d := .dst, a := .src, b := .src, priv := .shepherd }⟩
  | .tstop f => some ⟨0x08, 0x01, .fr f, { tys := 0x1, d := .dst, a := .src, priv := .shepherd }⟩
  | .treap f => some ⟨0x08, 0x02, .fr f, { tys := 0x1, d := .dst, a := .src, priv := .shepherd }⟩
  | .tstat f => some ⟨0x08, 0x03, .fr f, { tys := 0x1, d := .dst, a := .src }⟩
  | .trd f => some ⟨0x08, 0x04, .fr f, { tys := 0x1, mod := 0x1, d := .special, a := .src, imm := 0x1fff, priv := .shepherd, x := .trd }⟩
  | .twr f => some ⟨0x08, 0x05, .fr f, { tys := 0x1, mod := 0x1, d := .dst, a := .src, b := .special, imm := 0x1fff, priv := .shepherd, x := .twr }⟩
  | .tret f => some ⟨0x08, 0x06, .fr f, { tys := 0x1, d := .dst, a := .src, priv := .shepherd }⟩
  | .movs f => some ⟨0x09, 0x00, .fr f, { tys := 0x1, d := .dst, imm := 0xfff, x := .movs }⟩
  | .sets f => some ⟨0x09, 0x01, .fr f, { tys := 0x1, mod := 0x3, a := .src, imm := 0xfff, x := .sets }⟩
  | .setsi f => some ⟨0x0a, 0x00, .fi f, { tys := 0x1, mod := 0x3, imm := 0xfff0ffffffff, x := .sets }⟩
  | .trap f => some ⟨0x0b, 0x00, .fr f, { tys := 0x1, a := .src, imm := 0xffff }⟩
  | .brkp f => some ⟨0x0b, 0x01, .fr f, { tys := 0x1, imm := 0xffff }⟩
  | .sysc f => some ⟨0x0b, 0x02, .fr f, { tys := 0x1, d := .dst, a := .src, b := .src, imm := 0xffff }⟩
  | .fltrd f => some ⟨0x0b, 0x03, .fr f, { tys := 0x1, mod := 0x1, d := .dst60, sel := some (false, 0x1, [0]) }⟩
  | .fltrdPeek f => some ⟨0x0b, 0x03, .fr f, { tys := 0x1, mod := 0x1, d := .dst60, sel := some (false, 0x1, [1]) }⟩
  | .capa f => some ⟨0x0b, 0x04, .fr f, { tys := 0x1, d := .dst, imm := 0xff, x := .capa }⟩
  | .add f => some ⟨0x10, 0x00, .fr f, { tys := 0x1fe, mod := 0x2, d := .dst, a := .src, b := .src }⟩
  | .sub f => some ⟨0x10, 0x01, .fr f, { tys := 0x1fe, mod := 0x2, d := .dst, a := .src, b := .src }⟩
  | .mul f => some ⟨0x10, 0x02, .fr f, { tys := 0x1fe, mod := 0x2, d := .dst, a := .src, b := .src }⟩
  | .mulh f => some ⟨0x10, 0x03, .fr f, { tys := 0x1fe, d := .dst, a := .src, b := .src }⟩
  | .madd f => some ⟨0x10, 0x04, .fr f, { tys := 0x1fe, mod := 0x2, d := .dst, a := .src, b := .src, c := .src }⟩
  | .div f => some ⟨0x10, 0x05, .fr f, { tys := 0x1fe, mod := 0x2, d := .dst, a := .src, b := .src }⟩
  | .rem f => some ⟨0x10, 0x06, .fr f, { tys := 0x1fe, mod := 0x2, d := .dst, a := .src, b := .src }⟩
  | .and f => some ⟨0x10, 0x07, .fr f, { tys := 0x1fe, d := .dst, a := .src, b := .src }⟩
  | .or f => some ⟨0x10, 0x08, .fr f, { tys := 0x1fe, d := .dst, a := .src, b := .src }⟩
  | .xor f => some ⟨0x10, 0x09, .fr f, { tys := 0x1fe, d := .dst, a := .src, b := .src }⟩
  | .shl f => some ⟨0x10, 0x0a, .fr f, { tys := 0x1fe, mod := 0x2, d := .dst, a := .src, b := .src }⟩
  | .shr f => some ⟨0x10, 0x0b, .fr f, { tys := 0x1fe, d := .dst, a := .src, b := .src }⟩
  | .sar f => some ⟨0x10, 0x0c, .fr f, { tys := 0x1fe, d := .dst, a := .src, b := .src }⟩
  | .rol f => some ⟨0x10, 0x0d, .fr f, { tys := 0x1fe, d := .dst, a := .src, b := .src }⟩
  | .min f => some ⟨0x10, 0x0e, .fr f, { tys := 0x1fe, d := .dst, a := .src, b := .src }⟩
  | .max f => some ⟨0x10, 0x0f, .fr f, { tys := 0x1fe, d := .dst, a := .src, b := .src }⟩
  | .sel f => some ⟨0x10, 0x10, .fr f, { tys := 0x1, d := .dst, a := .src, b := .src, c := .src }⟩
  | .cmp f => some ⟨0x10, 0x11, .fr f, { tys := 0x1fe, mod := 0x7, d := .dst, a := .src, b := .src, x := .cond }⟩
  | .lea f => some ⟨0x10, 0x12, .fr f, { tys := 0x1f01ff, mod := 0x1, d := .dst, a := .src, b := .src, imm := 0xffffffff }⟩
  | .addi f => some ⟨0x11, 0x00, .fi f, { tys := 0x1fe, mod := 0x2, d := .dst, a := .src, imm := 0xffffffffffff }⟩
  | .andi f => some ⟨0x11, 0x01, .fi f, { tys := 0x1fe, d := .dst, a := .src, imm := 0xffffffffffff }⟩
  | .ori f => some ⟨0x11, 0x02, .fi f, { tys := 0x1fe, d := .dst, a := .src, imm := 0xffffffffffff }⟩
  | .xori f => some ⟨0x11, 0x03, .fi f, { tys := 0x1fe, d := .dst, a := .src, imm := 0xffffffffffff }⟩
  | .shli f => some ⟨0x11, 0x04, .fi f, { tys := 0x1fe, mod := 0x2, d := .dst, a := .src, imm := 0x3f }⟩
  | .shri f => some ⟨0x11, 0x05, .fi f, { tys := 0x1fe, d := .dst, a := .src, imm := 0x3f }⟩
  | .sari f => some ⟨0x11, 0x06, .fi f, { tys := 0x1fe, d := .dst, a := .src, imm := 0x3f }⟩
  | .cmpi f => some ⟨0x11, 0x07, .fi f, { tys := 0x1fe, mod := 0x7, d := .dst, a := .src, imm := 0xffffffffffff, x := .cond }⟩
  | .li f => some ⟨0x11, 0x08, .fi f, { tys := 0x1, d := .dst, imm := 0xffffffffffff }⟩
  | .lih f => some ⟨0x11, 0x09, .fi f, { tys := 0x1, d := .dst, a := .src, imm := 0xffff }⟩
  | .addpc f => some ⟨0x11, 0x0a, .fi f, { tys := 0x1, d := .dst, imm := 0xffffffffffff }⟩
  | .clz f => some ⟨0x12, 0x00, .fr f, { tys := 0x1fe, d := .dst, a := .src }⟩
  | .ctz f => some ⟨0x12, 0x01, .fr f, { tys := 0x1fe, d := .dst, a := .src }⟩
  | .popc f => some ⟨0x12, 0x02, .fr f, { tys := 0x1fe, d := .dst, a := .src }⟩
  | .bswap f => some ⟨0x12, 0x03, .fr f, { tys := 0x1dc, d := .dst, a := .src }⟩
  | .bfx f => some ⟨0x12, 0x04, .fr f, { tys := 0x110, d := .dst, a := .src, imm := 0x3f3f, x := .bf }⟩
  | .bfi f => some ⟨0x12, 0x05, .fr f, { tys := 0x1, d := .dst, a := .src, b := .src, imm := 0x3f3f, x := .bf }⟩
  | .abs f => some ⟨0x12, 0x06, .fr f, { tys := 0x1e, mod := 0x2, d := .dst, a := .src }⟩
  | .ext f => some ⟨0x12, 0x07, .fr f, { tys := 0x1fe, mod := 0x6, d := .dst, a := .src, x := .ext }⟩
  | .vadd f => some ⟨0x30, 0x00, .fr f, { tys := 0x707fe, nar := true, mod := 0x2f, pg := true, d := .vdst, a := .vsrc, b := .vsrc, x := .vm }⟩
  | .vsub f => some ⟨0x30, 0x01, .fr f, { tys := 0x707fe, nar := true, mod := 0x2f, pg := true, d := .vdst, a := .vsrc, b := .vsrc, x := .vm }⟩
  | .vmul f => some ⟨0x30, 0x02, .fr f, { tys := 0x707fe, nar := true, mod := 0x2f, pg := true, d := .vdst, a := .vsrc, b := .vsrc, x := .vm }⟩
  | .vfma f => some ⟨0x30, 0x03, .fr f, { tys := 0x707fe, nar := true, mod := 0x2f, pg := true, d := .vdst, a := .vsrc, b := .vsrc, c := .vsrc, x := .vm }⟩
  | .vmin f => some ⟨0x30, 0x04, .fr f, { tys := 0x707fe, nar := true, mod := 0x20, pg := true, d := .vdst, a := .vsrc, b := .vsrc }⟩
  | .vmax f => some ⟨0x30, 0x05, .fr f, { tys := 0x707fe, nar := true, mod := 0x20, pg := true, d := .vdst, a := .vsrc, b := .vsrc }⟩
  | .vabs f => some ⟨0x30, 0x06, .fr f, { tys := 0x7021e, nar := true, mod := 0x28, pg := true, d := .vdst, a := .vsrc, x := .vm }⟩
  | .vand f => some ⟨0x30, 0x07, .fr f, { tys := 0x7ff, nar := true, mod := 0x20, pg := true, d := .vdst, a := .vsrc, b := .vsrc }⟩
  | .vor f => some ⟨0x30, 0x08, .fr f, { tys := 0x7ff, nar := true, mod := 0x20, pg := true, d := .vdst, a := .vsrc, b := .vsrc }⟩
  | .vxor f => some ⟨0x30, 0x09, .fr f, { tys := 0x7ff, nar := true, mod := 0x20, pg := true, d := .vdst, a := .vsrc, b := .vsrc }⟩
  | .vshl f => some ⟨0x30, 0x0a, .fr f, { tys := 0x7fe, nar := true, mod := 0x28, pg := true, d := .vdst, a := .vsrc, b := .vsrc, x := .vm }⟩
  | .vshr f => some ⟨0x30, 0x0b, .fr f, { tys := 0x7fe, nar := true, mod := 0x20, pg := true, d := .vdst, a := .vsrc, b := .vsrc }⟩
  | .vsar f => some ⟨0x30, 0x0c, .fr f, { tys := 0x7fe, nar := true, mod := 0x20, pg := true, d := .vdst, a := .vsrc, b := .vsrc }⟩
  | .vsel f => some ⟨0x30, 0x0d, .fr f, { tys := 0x7f07ff, nar := true, mod := 0x20, pg := true, d := .vdst, a := .vsrc, b := .vsrc, c := .psrc }⟩
  | .vclamp f => some ⟨0x30, 0x0e, .fr f, { tys := 0x707fe, nar := true, mod := 0x20, pg := true, d := .vdst, a := .vsrc, b := .vsrc, c := .vsrc }⟩
  | .vdiv f => some ⟨0x31, 0x00, .fr f, { tys := 0x701fe, nar := true, mod := 0x2f, pg := true, d := .vdst, a := .vsrc, b := .vsrc, x := .vm }⟩
  | .vsqrt f => some ⟨0x31, 0x01, .fr f, { tys := 0x70000, mod := 0x27, pg := true, d := .vdst, a := .vsrc, x := .vm }⟩
  | .vcmp f => some ⟨0x32, 0x00, .fr f, { tys := 0x1f01fe, nar := true, mod := 0x7, pg := true, d := .pdst, a := .vsrc, b := .vsrc, x := .vcmp }⟩
  | .vcvt f => some ⟨0x33, 0x00, .fr f, { tys := 0x7f07fe, nar := true, mod := 0x2f, pg := true, d := .vdst, a := .vsrc, imm := 0x73f, x := .vcvt }⟩
  | .vsplit f => some ⟨0x33, 0x01, .fr f, { tys := 0x40000, mod := 0x20, pg := true, d := .special, a := .vsrc, imm := 0x1, x := .vsplit }⟩
  | .vqnt f => some ⟨0x33, 0x02, .fr f, { tys := 0x380202, nar := true, mod := 0x37, pg := true, d := .vdst, a := .vsrc, c := .special, imm := 0x7, x := .vqnt }⟩
  | .vdqnt f => some ⟨0x33, 0x03, .fr f, { tys := 0x380202, nar := true, mod := 0x27, pg := true, d := .vdst, a := .vsrc, c := .vsrc, imm := 0x7, x := .vqnt }⟩
  | .vlmul f => some ⟨0x33, 0x04, .fr f, { tys := 0x400000, nar := true, mod := 0x20, pg := true, d := .vdst, a := .vsrc, b := .vsrc }⟩
  | .vlacc f => some ⟨0x33, 0x05, .fr f, { tys := 0x400000, nar := true, pg := true, d := .vdst, a := .vsrc, b := .vsrc }⟩
  | .vdot f => some ⟨0x33, 0x06, .fr f, { tys := 0x3b0622, nar := true, mod := 0x18, pg := true, d := .vdst, a := .vsrc, b := .vsrc, x := .vdot }⟩
  | .baddq f => some ⟨0x33, 0x07, .fr f, { tys := 0x380002, nar := true, mod := 0x20, pg := true, d := .vdst, a := .vsrc, b := .vsrc }⟩
  | .vsplat f => some ⟨0x34, 0x00, .fr f, { tys := 0x7f07fe, nar := true, mod := 0x20, pg := true, d := .vdst, a := .src }⟩
  | .vins f => some ⟨0x34, 0x01, .fr f, { tys := 0x7f07fe, nar := true, pg := true, d := .vdst, a := .src, b := .src }⟩
  | .vext f => some ⟨0x34, 0x02, .fr f, { tys := 0x7f07fe, nar := true, pg := true, d := .dst, a := .vsrc, b := .src }⟩
  | .viota f => some ⟨0x34, 0x03, .fr f, { tys := 0x1fe, mod := 0x28, pg := true, d := .vdst, a := .src, x := .vm }⟩
  | .vperm f => some ⟨0x34, 0x04, .fr f, { tys := 0x1f01fe, nar := true, mod := 0x20, pg := true, d := .vdst, a := .vsrc, b := .vsrc }⟩
  | .vmov f => some ⟨0x34, 0x05, .fr f, { tys := 0x7f07ff, nar := true, mod := 0x20, pg := true, d := .vdst, a := .vsrc }⟩
  | .vred f => some ⟨0x35, 0x00, .fr f, { tys := 0x701fe, nar := true, mod := 0xf, pg := true, d := .dst, a := .vsrc, imm := 0x7, x := .red }⟩
  | .vscan f => some ⟨0x35, 0x01, .fr f, { tys := 0x701fe, nar := true, mod := 0x2f, pg := true, d := .vdst, a := .vsrc, imm := 0x7, x := .red }⟩
  | .plt f => some ⟨0x36, 0x00, .fr f, { tys := 0x7f07ff, nar := true, pg := true, d := .pdst, a := .src, b := .src }⟩
  | .pset f => some ⟨0x36, 0x01, .fr f, { tys := 0x7f07ff, nar := true, pg := true, d := .pdst, imm := 0xffffffff }⟩
  | .pand f => some ⟨0x36, 0x02, .fr f, { tys := 0x1, pg := true, d := .pdst, a := .psrc, b := .psrc }⟩
  | .por f => some ⟨0x36, 0x03, .fr f, { tys := 0x1, pg := true, d := .pdst, a := .psrc, b := .psrc }⟩
  | .pxor f => some ⟨0x36, 0x04, .fr f, { tys := 0x1, pg := true, d := .pdst, a := .psrc, b := .psrc }⟩
  | .pnot f => some ⟨0x36, 0x05, .fr f, { tys := 0x1, pg := true, d := .pdst, a := .psrc }⟩
  | .pcnt f => some ⟨0x36, 0x06, .fr f, { tys := 0x7f07ff, nar := true, pg := true, d := .dst, a := .psrc }⟩
  | .pfirst f => some ⟨0x36, 0x07, .fr f, { tys := 0x7f07ff, nar := true, pg := true, d := .dst, a := .psrc }⟩
  | .mma f => some ⟨0x50, 0x00, .fr f, { tys := 0x7b0002, mod := 0x1f, d := .tile, a := .special, c := .special, imm := 0x3f, x := .mma }⟩
  | .mzero f => some ⟨0x51, 0x00, .fr f, { tys := 0x40008, d := .tile }⟩
  | .mrd f => some ⟨0x51, 0x01, .fr f, { tys := 0x40008, mod := 0x20, pg := true, d := .vdst, a := .tile, b := .src }⟩
  | .mwr f => some ⟨0x51, 0x02, .fr f, { tys := 0x40008, pg := true, d := .tile, a := .vsrc, b := .src }⟩
  | .mstat f => some ⟨0x51, 0x03, .fr f, { tys := 0x1, mod := 0x1, d := .dst, a := .tile, sel := some (false, 0x1, [0]) }⟩
  | .mstatW f => some ⟨0x51, 0x03, .fr f, { tys := 0x1, mod := 0x1, d := .dst, imm := 0xf, sel := some (false, 0x1, [1]) }⟩
  | .wbld f => some ⟨0x52, 0x00, .fp f, { tys := 0x1, d := .dst, a := .src, imm := 0xff, p1 := true, x := .wbld }⟩
  | .wbinv f => some ⟨0x52, 0x01, .fp f, { tys := 0x1, imm := 0xffff }⟩
  | .mload f => some ⟨0x53, 0x00, .fp f, { tys := 0x1, d := .tile, a := .src, p1 := true }⟩
  | .mdrain f => some ⟨0x54, 0x00, .fp f, { tys := 0x5002a, d := .tile, a := .src, b := .special, imm := 0xff, p1 := true, x := .mdrain }⟩
  | .ld f => some ⟨0x60, 0x00, .fr f, { tys := 0x1f01fe, mod := 0x7, d := .dst, a := .src, b := .src, imm := 0xffffffff }⟩
  | .st f => some ⟨0x61, 0x00, .fr f, { tys := 0x1f01fe, mod := 0x7, a := .src, b := .src, c := .src, imm := 0xffffffff }⟩
  | .ldv f => some ⟨0x62, 0x00, .fr f, { tys := 0x7f07ff, nar := true, mod := 0x27, pg := true, d := .vdst, a := .src, b := .src, imm := 0xffffffff, x := .mem4 }⟩
  | .stv f => some ⟨0x63, 0x00, .fr f, { tys := 0x7f07ff, nar := true, mod := 0x7, pg := true, a := .src, b := .src, c := .vsrc, imm := 0xffffffff, x := .mem4 }⟩
  | .gth f => some ⟨0x64, 0x00, .fr f, { tys := 0x40198, mod := 0x27, pg := true, d := .vdst, a := .src, b := .vsrc, imm := 0xffffffff }⟩
  | .sct f => some ⟨0x65, 0x00, .fr f, { tys := 0x40198, mod := 0x7, pg := true, a := .src, b := .vsrc, c := .vsrc, imm := 0xffffffff }⟩
  | .amo f => some ⟨0x66, 0x00, .fr f, { tys := 0x40198, mod := 0x3f, d := .dst, a := .src, b := .src, c := .src, imm := 0xffffffff, x := .amo }⟩
  | .cas f => some ⟨0x66, 0x01, .fr f, { tys := 0x198, mod := 0x7, d := .srcDst, a := .src, b := .src, c := .src, imm := 0xffffffff }⟩
  | .amov f => some ⟨0x66, 0x02, .fr f, { tys := 0x401fe, mod := 0x3f, pg := true, d := .vdst, a := .src, b := .src, c := .vsrc, imm := 0xffffffff, x := .amo }⟩
  | .sbindIn f => some ⟨0x67, 0x00, .fr f, { tys := 0x1f01fe, mod := 0x6, d := .special, a := .src, b := .src, c := .src, imm := 0x3, sel := some (true, 0x3, [0, 3]), x := .sbind }⟩
  | .sbindOut f => some ⟨0x67, 0x00, .fr f, { tys := 0x1f01fe, mod := 0x6, d := .special, a := .src, b := .src, c := .src, imm := 0x3, sel := some (true, 0x3, [1]), x := .sbind }⟩
  | .sbindQ f => some ⟨0x67, 0x00, .fr f, { tys := 0x1, d := .special, a := .src, imm := 0x3, sel := some (true, 0x3, [2]), x := .sbind }⟩
  | .sunbind f => some ⟨0x67, 0x01, .fr f, { tys := 0x1, d := .special, x := .sunbind }⟩
  | .sstat f => some ⟨0x67, 0x02, .fr f, { tys := 0x1, d := .dst, a := .special, x := .sstat }⟩
  | .cpy f => some ⟨0x68, 0x00, .fp f, { tys := 0x1, d := .cword, a := .src, b := .src, p1 := true, p2 := true }⟩
  | .mcast f => some ⟨0x68, 0x01, .fp f, { tys := 0x1, d := .cword, a := .src, b := .src, imm := 0xff, p1 := true, p2 := true }⟩
  | .rfill f => some ⟨0x68, 0x02, .fp f, { tys := 0x1, d := .cword, a := .src, b := .src, p1 := true }⟩
  | .cpyc f => some ⟨0x68, 0x03, .fp f, { tys := 0x1, d := .dst, a := .src, b := .src }⟩
  | .eseq f => some ⟨0x68, 0x04, .fp f, { tys := 0x1, mod := 0x3, d := .dst, sel := some (false, 0x3, [0, 3]), x := .both }⟩
  | .eseqGo f => some ⟨0x68, 0x04, .fp f, { tys := 0x1, mod := 0x3, d := .dst, sel := some (false, 0x3, [1]) }⟩
  | .eseqDrop f => some ⟨0x68, 0x04, .fp f, { tys := 0x1, mod := 0x3, d := .dst, sel := some (false, 0x3, [2]) }⟩
  | .ewait f => some ⟨0x68, 0x05, .fp f, { tys := 0x1, a := .src }⟩
  | .fencex f => some ⟨0x69, 0x00, .fr f, { tys := 0x1, imm := 0x77, x := .fence }⟩
  | .cwb f => some ⟨0x69, 0x01, .fr f, { tys := 0x1, mod := 0x1, d := .dst, a := .src, b := .src }⟩
  | .fdmode f => some ⟨0x70, 0x00, .fr f, { tys := 0x1, d := .dst, imm := 0xf, unit := .field, priv := .shepherd, x := .fdmode }⟩
  | .fdwait f => some ⟨0x70, 0x01, .fr f, { tys := 0x1, a := .src, unit := .field }⟩
  | .fdstat f => some ⟨0x70, 0x02, .fr f, { tys := 0x1, mod := 0xf, d := .dst, unit := .field, sel := some (false, 0x3, [0, 3]), x := .both }⟩
  | .fdstatGo f => some ⟨0x70, 0x02, .fr f, { tys := 0x1, mod := 0xf, d := .dst, unit := .field, sel := some (false, 0x3, [1]) }⟩
  | .fdstatDrop f => some ⟨0x70, 0x02, .fr f, { tys := 0x1, mod := 0xf, d := .dst, unit := .field, sel := some (false, 0x3, [2]) }⟩
  | .fdin f => some ⟨0x71, 0x00, .fp f, { tys := 0x1, d := .dst, a := .src, b := .src, imm := 0xffff, p1 := true, unit := .field }⟩
  | .fdout f => some ⟨0x71, 0x01, .fp f, { tys := 0x1, d := .dst, a := .src, b := .src, imm := 0xffff, p1 := true, unit := .field }⟩
  | .fdadd f => some ⟨0x72, 0x00, .ff f, { tys := 0x1, mod := 0x3, unit := .field, x := .fdadd }⟩
  | .fdsub f => some ⟨0x72, 0x01, .ff f, { tys := 0x1, mod := 0x3, unit := .field, x := .fdsub }⟩
  | .fdmul f => some ⟨0x72, 0x02, .ff f, { tys := 0x1, mod := 0x3, unit := .field, x := .fdmul }⟩
  | .fdcmp f => some ⟨0x72, 0x03, .ff f, { tys := 0x1, mod := 0x1, imm := 0x7, unit := .field, x := .fdcmp }⟩
  | .fdsel f => some ⟨0x72, 0x04, .ff f, { tys := 0x1, unit := .field, x := .fdsel }⟩
  | .fdbit f => some ⟨0x72, 0x05, .ff f, { tys := 0x1, imm := 0xf, unit := .field, x := .fdbit }⟩
  | .fdmin f => some ⟨0x72, 0x06, .ff f, { tys := 0x1, mod := 0x1, unit := .field, x := .fdmin }⟩
  | .fdmax f => some ⟨0x72, 0x07, .ff f, { tys := 0x1, mod := 0x1, unit := .field, x := .fdmax }⟩
  | .fdlmul f => some ⟨0x72, 0x08, .ff f, { tys := 0x400000, mod := 0x6, unit := .field, x := .fdlmul }⟩
  | .fdrq f => some ⟨0x72, 0x09, .ff f, { tys := 0x480002, imm := 0xff, unit := .field, x := .fdrq }⟩
  | .fdpop f => some ⟨0x72, 0x0a, .ff f, { tys := 0x1, unit := .field, x := .fdpop }⟩
  | .kprb f => some ⟨0x78, 0x00, .fr f, { tys := 0x300000000, d := .dst, a := .key, imm := 0xff }⟩
  | .kins f => some ⟨0x78, 0x01, .fr f, { tys := 0x300000000, d := .dst, a := .key, c := .src, imm := 0xff }⟩
  | .kups f => some ⟨0x78, 0x02, .fr f, { tys := 0x300000000, mod := 0x1f, d := .dst, a := .key, c := .src, imm := 0xff, sel := some (false, 0x10, [0]), x := .kups }⟩
  | .kupsPost f => some ⟨0x78, 0x02, .fr f, { tys := 0x300000000, mod := 0x1f, a := .key, c := .src, imm := 0xff, sel := some (false, 0x10, [16]), x := .kups }⟩
  | .kdel f => some ⟨0x78, 0x03, .fr f, { tys := 0x300000000, d := .dst, a := .key, imm := 0xff }⟩
  | .kprbv f => some ⟨0x78, 0x04, .fr f, { tys := 0x100000000, d := .vdst, a := .vsrc, b := .pdst, imm := 0xffff, x := .lanes }⟩
  | .kupsv f => some ⟨0x78, 0x05, .fr f, { tys := 0x100000000, mod := 0x1f, d := .vdst, a := .vsrc, b := .pdst, c := .vsrc, imm := 0xffff, sel := some (false, 0x10, [0]), x := .kups }⟩
  | .kupsvPost f => some ⟨0x78, 0x05, .fr f, { tys := 0x100000000, mod := 0x1f, a := .vsrc, c := .vsrc, imm := 0xffff, sel := some (false, 0x10, [16]), x := .kups }⟩
  | .knew f => some ⟨0x79, 0x00, .fr f, { tys := 0x1, d := .dst, a := .src, b := .src, priv := .shepherd }⟩
  | .kbind f => some ⟨0x79, 0x01, .fr f, { tys := 0x1, d := .dst, a := .src, imm := 0xff }⟩
  | .kstat f => some ⟨0x79, 0x02, .fr f, { tys := 0x1, d := .dst, a := .src, imm := 0xff }⟩
  | .khash f => some ⟨0x79, 0x03, .fr f, { tys := 0x300000000, d := .dst, a := .key, imm := 0x1ff }⟩
  | .kiter f => some ⟨0x79, 0x04, .fr f, { tys := 0x300000000, d := .special, a := .src, imm := 0xff, x := .kiter }⟩
  | .kclr f => some ⟨0x79, 0x05, .fr f, { tys := 0x1, d := .dst, imm := 0xff, priv := .shepherd }⟩
  | .xmig f => some ⟨0x80, 0x00, .fr f, { tys := 0x1, a := .src, b := .raw, c := .raw, imm := 0xffffffff, unit := .chan, x := .xmig }⟩
  | .xret f => some ⟨0x80, 0x01, .fr f, { tys := 0x1, unit := .chan, priv := .ctxOnly }⟩
  | .xupd f => some ⟨0x80, 0x02, .fr f, { tys := 0x40198, mod := 0x39, a := .src, b := .src, c := .src, imm := 0xffffffff, unit := .chan, x := .amo }⟩
  | .xnrm f => some ⟨0x80, 0x03, .fr f, { tys := 0x40198, mod := 0x39, a := .src, b := .src, c := .src, imm := 0xffffffff, unit := .chan, x := .amo }⟩
  | .xovl f => some ⟨0x80, 0x04, .fr f, { tys := 0x1, d := .dst, a := .src, b := .src, imm := 0x1, unit := .chan }⟩
  | .xrlk f => some ⟨0x80, 0x05, .fr f, { tys := 0x1, d := .dst, a := .src, unit := .chan, priv := .ctxOnly }⟩
  | .xrul f => some ⟨0x80, 0x06, .fr f, { tys := 0x1, a := .src, unit := .chan, priv := .ctxOnly }⟩
  | .send f => some ⟨0x88, 0x00, .fr f, { tys := 0x1, mod := 0x3, d := .dst, a := .src, c := .vsrc, imm := 0xffffffff, sel := some (false, 0x3, [0, 3]), x := .both }⟩
  | .sendR f => some ⟨0x88, 0x00, .fr f, { tys := 0x1, mod := 0x3, d := .dst, a := .src, c := .special, imm := 0x7f0f, sel := some (false, 0x3, [1]), x := .sendr }⟩
  | .sendFar f => some ⟨0x88, 0x00, .fr f, { tys := 0x1, mod := 0x3, d := .dst, a := .src, b := .src, c := .vsrc, imm := 0xffffffff, sel := some (false, 0x3, [2]) }⟩
  | .recv f => some ⟨0x88, 0x01, .fr f, { tys := 0x1, mod := 0x1, d := .vdst, sel := some (false, 0x1, [0]) }⟩
  | .recvNw f => some ⟨0x88, 0x01, .fr f, { tys := 0x1, mod := 0x1, d := .vdst, sel := some (false, 0x1, [1]) }⟩
  | .lback f => some ⟨0x88, 0x02, .fr f, { tys := 0x1, mod := 0x1, c := .vsrc, imm := 0xffffffff }⟩
  | .istat f => some ⟨0x88, 0x03, .fr f, { tys := 0x1, d := .dst }⟩
  | .spawn f => some ⟨0x89, 0x00, .fr f, { tys := 0x1, d := .dst, a := .src, b := .src }⟩
  | .join f => some ⟨0x89, 0x01, .fr f, { tys := 0x1, d := .evenDst, a := .src, imm := 0xffffffff }⟩
  | .tnext f => some ⟨0x89, 0x02, .fr f, { tys := 0x1, d := .evenDst }⟩
  | .steal f => some ⟨0x89, 0x03, .fr f, { tys := 0x1, d := .evenDst, a := .src }⟩
  | .qpub f => some ⟨0x8a, 0x00, .fr f, { tys := 0x1, mod := 0x2, d := .dst, a := .src, b := .src, imm := 0x3, sel := some (false, 0x2, [0]) }⟩
  | .qpubGw f => some ⟨0x8a, 0x00, .fr f, { tys := 0x1, mod := 0x2, d := .dst, a := .src, b := .src, sel := some (false, 0x2, [2]) }⟩
  | .qclm f => some ⟨0x8a, 0x01, .fr f, { tys := 0x1, mod := 0x3, d := .evenDst, a := .src, sel := some (false, 0x2, [0]) }⟩
  | .qclmGw f => some ⟨0x8a, 0x01, .fr f, { tys := 0x1, mod := 0x3, d := .evenDst, sel := some (false, 0x2, [2]) }⟩
  | .qstat f => some ⟨0x8a, 0x02, .fr f, { tys := 0x1, mod := 0x2, d := .dst, a := .src, sel := some (false, 0x2, [0]) }⟩
  | .qstatGw f => some ⟨0x8a, 0x02, .fr f, { tys := 0x1, mod := 0x2, d := .dst, a := .src, sel := some (false, 0x2, [2]) }⟩
  | .nred f => some ⟨0x8b, 0x00, .fr f, { tys := 0x40018, a := .vsrc, imm := 0x3f }⟩
  | .lnch f => some ⟨0x8b, 0x01, .fr f, { tys := 0x1, d := .dst, a := .src, b := .src }⟩
  | .prmt f => some ⟨0x8b, 0x02, .fr f, { tys := 0x1, mod := 0x3, d := .dst, a := .src, priv := .system, sel := some (false, 0x1, [0]), x := .prmt }⟩
  | .prmtL f => some ⟨0x8b, 0x02, .fr f, { tys := 0x1, mod := 0x3, d := .dst, a := .src, priv := .system, sel := some (false, 0x1, [1]) }⟩
  | .resm f => some ⟨0x8b, 0x03, .fr f, { tys := 0x1, mod := 0x1, d := .dst, a := .src, priv := .system, sel := some (false, 0x1, [0]) }⟩
  | .resmL f => some ⟨0x8b, 0x03, .fr f, { tys := 0x1, mod := 0x1, d := .dst, a := .src, priv := .system, sel := some (false, 0x1, [1]) }⟩
  | .capnew f => some ⟨0x90, 0x00, .fr f, { tys := 0x1, a := .src, b := .src }⟩
  | .capwait f => some ⟨0x90, 0x01, .fr f, { tys := 0x1, mod := 0x1, d := .dst61, sel := some (false, 0x1, [0]) }⟩
  | .capwaitNw f => some ⟨0x90, 0x01, .fr f, { tys := 0x1, mod := 0x1, d := .dst61, sel := some (false, 0x1, [1]) }⟩
  | .capnext f => some ⟨0x90, 0x02, .fr f, { tys := 0x1, d := .dst }⟩
  | .capins f => some ⟨0x90, 0x03, .fr f, { tys := 0x1, d := .dst, a := .src, b := .src }⟩
  | .capdel f => some ⟨0x90, 0x04, .fr f, { tys := 0x1, d := .dst, b := .src }⟩
  | .capset f => some ⟨0x90, 0x05, .fr f, { tys := 0x1, a := .src, imm := 0xff, x := .capset }⟩
  | .capget f => some ⟨0x90, 0x06, .fr f, { tys := 0x1, d := .dst, imm := 0xff, x := .capget }⟩
  | .cappark f => some ⟨0x90, 0x07, .fr f, { tys := 0x1, d := .dst }⟩
  | .capdone f => some ⟨0x90, 0x08, .fr f, { tys := 0x1 }⟩
  | .plset f => some ⟨0x98, 0x00, .fr f, { tys := 0x1, d := .dst, a := .src, imm := 0xfff, priv := .shepherd }⟩
  | .plget f => some ⟨0x98, 0x01, .fr f, { tys := 0x1, d := .dst, a := .src, imm := 0xfff }⟩
  | .plinv f => some ⟨0x98, 0x02, .fr f, { tys := 0x1, imm := 0xfff, priv := .shepherd }⟩
  | .trset f => some ⟨0x98, 0x03, .fr f, { tys := 0x1, mod := 0x1, d := .dst, a := .src, imm := 0x3f, priv := .shepherd, sel := some (false, 0x1, [0]) }⟩
  | .trsetClr f => some ⟨0x98, 0x03, .fr f, { tys := 0x1, mod := 0x1, d := .dst, imm := 0x3f, priv := .shepherd, sel := some (false, 0x1, [1]) }⟩
  | .htset f => some ⟨0x98, 0x04, .fr f, { tys := 0x1, d := .dst, a := .src, imm := 0xff, priv := .shepherd }⟩
  | .xlat f => some ⟨0x98, 0x05, .fr f, { tys := 0x1, d := .dst, a := .src, b := .launchArg }⟩
  | .tlbinvA f => some ⟨0x98, 0x06, .fr f, { tys := 0x1, mod := 0x3, d := .dst, a := .src, b := .launchArg, sel := some (false, 0x3, [0, 3]), x := .mode3 }⟩
  | .tlbinvL f => some ⟨0x98, 0x06, .fr f, { tys := 0x1, mod := 0x3, d := .dst, b := .launchArg, sel := some (false, 0x3, [1]) }⟩
  | .tlbinvG f => some ⟨0x98, 0x06, .fr f, { tys := 0x1, mod := 0x3, d := .dst, b := .launchArg, priv := .system, sel := some (false, 0x3, [2]) }⟩
  | .modld f => some ⟨0x98, 0x07, .fr f, { tys := 0x1, mod := 0x1, d := .dst, a := .src, b := .src, priv := .system, sel := some (false, 0x1, [0]) }⟩
  | .modldDbg f => some ⟨0x98, 0x07, .fr f, { tys := 0x1, mod := 0x1, d := .dst, a := .src, b := .src, priv := .system, sel := some (false, 0x1, [1]) }⟩
  | .modul f => some ⟨0x98, 0x08, .fr f, { tys := 0x1, d := .dst, imm := 0xff, priv := .system }⟩
  | .bara f => some ⟨0xa0, 0x00, .fr f, { tys := 0x1, mod := 0x3, d := .dst, imm := 0x3f, sel := some (false, 0x3, [0, 3]), x := .mode3 }⟩
  | .baraJoin f => some ⟨0xa0, 0x00, .fr f, { tys := 0x1, mod := 0x3, d := .dst, imm := 0x3f, sel := some (false, 0x3, [1]) }⟩
  | .baraLeave f => some ⟨0xa0, 0x00, .fr f, { tys := 0x1, mod := 0x3, d := .dst, imm := 0x3f, sel := some (false, 0x3, [2]) }⟩
  | .barw f => some ⟨0xa0, 0x01, .fr f, { tys := 0x1, a := .src, imm := 0x3f }⟩
  | .barq f => some ⟨0xa0, 0x02, .fr f, { tys := 0x1, mod := 0x1, d := .dst, a := .optSrc, imm := 0x3f, x := .barq }⟩
  | .ctrsel f => some ⟨0xa0, 0x03, .fr f, { tys := 0x1, d := .dst, a := .src, imm := 0x7 }⟩
  | .ctrrd f => some ⟨0xa0, 0x04, .fr f, { tys := 0x1, mod := 0x1, d := .dst, imm := 0xf, x := .ctrrd }⟩
  | .timset f => some ⟨0xa0, 0x05, .fr f, { tys := 0x1, mod := 0x1, d := .dst, a := .src, b := .src }⟩
  | .tstmp f => some ⟨0xa0, 0x06, .fr f, { tys := 0x1, mod := 0x1, d := .dst, a := .optSrc, x := .tstmp }⟩
  | .clkrd f => some ⟨0xa0, 0x07, .fr f, { tys := 0x1, mod := 0x1, d := .dst }⟩
  | .bundleIssue _ => none
  | .replyArrival _ => none
  | .fetchLineArrival _ => none
  | .followJoin _ _ => none
  | .flwTimeout _ _ => none
  | .remoteFillArrival _ => none
  | .streamElementArrival _ _ _ => none
  | .streamWriteCompletion _ _ _ => none
  | .copyCommandStart _ => none
  | .copyCommandCompletion _ => none
  | .chainWalkStep _ => none
  | .copyEngineFault _ => none
  | .matrixOpBegin _ => none
  | .matrixOpCompletion _ => none
  | .fieldCommandStart _ => none
  | .fieldCommandCompletion _ => none
  | .fieldFault _ => none
  | .mapRequestService _ => none
  | .postedUpsertApply _ => none
  | .splitRequest _ => none
  | .split _ => none
  | .splitPublication _ => none
  | .mapCopyUpdate _ _ _ => none
  | .queueRequestService _ => none
  | .messageArrival _ => none
  | .gatewayRelay _ => none
  | .reductionCombine _ _ => none
  | .reductionTotalDelivery _ => none
  | .contextTake _ _ => none
  | .contextFaultBack _ _ => none
  | .xretArrival _ _ => none
  | .nearPacketApply _ => none
  | .channelFill _ => none
  | .channelEvictionNotice _ => none
  | .lineEviction _ => none
  | .overlayLineArrival _ _ => none
  | .capsuleDelivery _ => none
  | .timerExpiry _ => none
  | .shepherdFaultEscalation _ => none
  | .syscReply _ => none
  | .pageRefill _ _ => none
  | .tlbWalkCompletion _ _ => none
  | .launchRecordTake _ => none
  | .launchPriorityRaise _ => none
  | .launchPlacement _ => none
  | .launchRetirement _ => none
  | .launchAbort _ _ => none
  | .moduleFree _ => none
  | .hostWrite _ _ => none
  | .hostRead _ _ => none
  | .winbaseWrite _ => none
  | .registerBarWrite _ _ => none
  | .deviceReset => none
  | .linkBringup _ => none
  | .linkLaneFailure _ _ => none
  | .linkRequestRetry _ => none
  | .uncorrectableDataError _ => none
  | .hbmRowSpare _ _ => none
  | .spareMapping _ => none
  | .liveFirmwareUpdate _ _ _ => none
  | .moduleRemoval => none
  | .overTemperature => none
  | .hbmLaneSpare _ => none
  | .sramRowSpare _ => none

namespace Body

/-- TY [79:74]. -/
def ty : Body → Nat
  | .fr f => f.ty.toNat
  | .fi f => f.ty.toNat
  | .fb f => f.ty.toNat
  | .fp f => f.ty.toNat
  | .ff f => f.ty.toNat

/-- PG [73:70]. -/
def pg : Body → BitVec 4
  | .fr f => f.pg
  | .fi f => f.pg
  | .fb f => f.pg
  | .fp f => f.pg
  | .ff f => f.pg

/-- MOD [69:64]. -/
def mod : Body → BitVec 6
  | .fr f => f.mod
  | .fi f => f.mod
  | .fb f => f.mod
  | .fp f => f.mod
  | .ff f => f.mod

/-- Operand byte D (0 in format F, whose row fields are judged by its own rule). -/
def d : Body → BitVec 8
  | .fr f => f.d
  | .fi f => f.d
  | .fb f => f.d
  | .fp f => f.d
  | .ff _ => 0

/-- Operand byte A. -/
def a : Body → BitVec 8
  | .fr f => f.a
  | .fi f => f.a
  | .fb f => f.a
  | .fp f => f.a
  | .ff _ => 0

/-- Operand byte B. -/
def b : Body → BitVec 8
  | .fr f => f.b
  | .fp f => f.b
  | _ => 0

/-- Operand byte C. -/
def c : Body → BitVec 8
  | .fr f => f.c
  | _ => 0

/-- The immediate, unsigned, whatever its width. -/
def imm : Body → Nat
  | .fr f => f.imm.toNat
  | .fi f => f.imm.toNat
  | .fb f => f.disp.toNat
  | .fp f => f.imm.toNat
  | .ff f => f.imm.toNat

/-- P1 of format P. -/
def p1 : Body → Nat
  | .fp f => f.p1.toNat
  | _ => 0

/-- P2 of format P. -/
def p2 : Body → Nat
  | .fp f => f.p2.toNat
  | _ => 0

end Body

/-! ## Types (R36, R76, R155) -/

/-- The width in bits of the elements of TY code `t` (R36, R39, R41, R48); 0 for the codes that are no element type. -/
def tyWidth (t : Nat) : Nat :=
  match t with
  | 0x01 => 8 | 0x02 => 16 | 0x03 => 32 | 0x04 => 64
  | 0x05 => 8 | 0x06 => 16 | 0x07 => 32 | 0x08 => 64
  | 0x09 => 4 | 0x0A => 4
  | 0x10 => 16 | 0x11 => 16 | 0x12 => 32 | 0x13 => 8 | 0x14 => 8 | 0x15 => 4 | 0x16 => 6
  | _ => 0

/-- The integer types (R36). -/
def tyIsInt (t : Nat) : Bool := 1 ≤ t && t ≤ 0x0A

/-- The signed integer types (R36). -/
def tyIsSigned (t : Nat) : Bool := (1 ≤ t && t ≤ 4) || t == 9

/-- The wide floating types b16, h16 and f32 (R39). -/
def tyIsWide (t : Nat) : Bool := 0x10 ≤ t && t ≤ 0x12

/-- The floating types, wide and narrow (R39, R41). -/
def tyIsFloat (t : Nat) : Bool := 0x10 ≤ t && t ≤ 0x15

/-- TY 0x18 (nar) resolves through EFMT (R117, R155); every other code is itself. -/
def resolveTy (efmt : Word) (t : Nat) : Nat :=
  if t = 0x18 then
    match (efmt.extractLsb' 0 2).toNat with
    | 0 => match (efmt.extractLsb' 2 2).toNat with
           | 0 => 0x13 | 1 => 0x14 | 2 => 0x01 | _ => 0x05
    | 1 => 0x16
    | 2 => match (efmt.extractLsb' 4 2).toNat with
           | 0 => 0x15 | 1 => 0x09 | 2 => 0x0A | _ => 0
    | _ => 0
  else t

/-- The number of elements of a vector register of `vw` bits at TY `t` (R154); TY 0 means bytes. -/
def lanes (vw t : Nat) : Nat :=
  if t = 0x16 then 5 * (vw / 32) else if tyWidth t = 0 then vw / 8 else vw / tyWidth t

/-! ## Fault codes -/

/-- The fault codes of R369. -/
inductive FaultCode where
  | illegalOp | illegalOperand | badPair | badTarget | badLine | xlate | prot | align
  | mapRegion | tileType | unitAbsent | port | capsule | field | priv | swTrap
  deriving DecidableEq, Repr, Inhabited

/-- R369. -/
def FaultCode.num : FaultCode → Nat
  | .illegalOp => 1 | .illegalOperand => 2 | .badPair => 3 | .badTarget => 4 | .badLine => 5
  | .xlate => 6 | .prot => 7 | .align => 8 | .mapRegion => 9 | .tileType => 10
  | .unitAbsent => 11 | .port => 12 | .capsule => 13 | .field => 14 | .priv => 15 | .swTrap => 16

/-! ## Step 7: TY, PG, MOD and reserved fields -/

/-- The first code of `xs` whose condition holds. The codes are those of R371's OPND: 1 D, 2 A, 3 B, 4 C, 5 P1, 6 P2,
7 immediate, 8 MOD, 9 TY, 10 PG. -/
def firstBad : List (Bool × Nat) → Option Nat
  | [] => none
  | (true, n) :: _ => some n
  | (false, _) :: xs => firstBad xs

/-- The name a byte gives, without its flag bit (R73). -/
def opName (b : BitVec 8) : Nat := (b.extractLsb' 0 7).toNat

/-- T on a source, W on D (R73). -/
def opFlag (b : BitVec 8) : Bool := b.getLsbD 7

/-- A rounding override 0b001-0b011 is reserved (R42). -/
def rmoReserved (m : BitVec 6) : Bool :=
  let r := (m.extractLsb' 0 3).toNat
  r == 1 || r == 2 || r == 3

/-- R166: the pairs of types VCVT converts between, the width of PART, and SAT and RMO by type class. -/
def vcvtBad (b : Body) (efmt : Word) (t vw : Nat) : Option Nat :=
  let s := resolveTy efmt (b.imm % 64)
  let part := b.imm / 256 % 8
  let okS := (1 ≤ s && s ≤ 0x0A) || (0x10 ≤ s && s ≤ 0x16)
  let pairOk := if s = 0x16 then t == 0x12 else if t = 0x16 then s == 0x12 else okS
  let nS := lanes vw s
  let nD := lanes vw t
  let m := min nS nD
  let r := max nS nD / (if m = 0 then 1 else m)
  let bothInt := tyIsInt s && tyIsInt t
  firstBad [(!pairOk, 7), (pairOk && decide (r ≤ part), 7),
    (b.mod.getLsbD 3 && !bothInt, 8), (b.mod.extractLsb' 0 3 != 0 && bothInt, 8), (rmoReserved b.mod, 8)]

/-- The row and width fields of a span of format F that an operation does not use must be 0 (R240). -/
def fdUnusedB (f : FmtF) : Bool := f.brow != 0 || f.bw != 0

/-- The rules of step 7 that one instruction's own description adds. `t` is the resolved TY. -/
def extra7 (x : Extra) (b : Body) (efmt : Word) (t vw : Nat) : Option Nat :=
  let m := b.mod
  let mn := m.toNat
  let imm := b.imm
  match x with
  | .vm => firstBad [(m.getLsbD 3 && !tyIsInt t, 8), (m.extractLsb' 0 3 != 0 && !tyIsWide t, 8), (rmoReserved m, 8)]
  | .red => firstBad [(m.getLsbD 3 && !tyIsInt t, 8), (m.extractLsb' 0 3 != 0 && !tyIsWide t, 8), (rmoReserved m, 8),
      (decide (5 < imm % 8), 7), (decide (2 < imm % 8) && tyIsWide t, 7)]
  | .movs => firstBad [(decide (6 < imm % 4096), 7)]
  | .sets =>
    let num := match b with
      | .fi f => (f.imm.extractLsb' 36 12).toNat
      | _ => imm % 4096
    firstBad [(mn % 4 == 3, 8), (decide (6 < num), 7)]
  | .trd | .twr => firstBad [(imm / 4096 % 2 == 0 && decide (127 < imm % 4096), 7),
      (imm / 4096 % 2 == 1 && decide (6 < imm % 4096), 7)]
  | .cond => firstBad [(decide (5 < mn % 8), 8)]
  | .bf => firstBad [(decide (64 < imm % 64 + (imm / 256 % 64 + 1)), 7)]
  | .ext => firstBad [(m.getLsbD 2 && !m.getLsbD 1, 8)]
  | .vcmp => firstBad [(mn % 8 == 7, 8), (mn % 8 == 6 && tyIsInt t, 8)]
  | .vcvt => vcvtBad b efmt t vw
  | .vqnt => firstBad [(m.extractLsb' 0 3 != 0 && tyIsInt t, 8), (rmoReserved m, 8), (decide (32 / (if tyWidth t = 0 then 32 else tyWidth t) ≤ imm % 8), 7)]
  | .vdot => firstBad [(mn != 0 && !tyIsInt t, 8)]
  | .mma => firstBad [(mn % 8 != 0 && t != 1, 8), (m.getLsbD 4 && !(0x13 ≤ t && t ≤ 0x16), 8),
      (!m.getLsbD 4 && b.c != 0, 4)]
  | .wbld => firstBad [(decide (4 < imm / 16 % 4 + (imm / 64 % 4 + 1)), 7)]
  | .mdrain => firstBad [(t != 1 && t != 5 && b.b != 0, 3), (t != 1 && t != 5 && imm != 0, 7)]
  | .mem4 => firstBad [(m.getLsbD 0 && (tyWidth t == 4 || t == 0x16), 8)]
  | .amo =>
    let op := mn / 8
    firstBad [(op == 7, 8), (t == 0x12 && (op == 2 || op == 3 || op == 4), 8)]
  | .sbind => firstBad [(imm % 4 == 3, 7), (imm % 4 != 2 && t == 0, 9)]
  | .both => firstBad [(mn % 4 == 3, 8)]
  | .prmt => firstBad [(mn == 2, 8)]
  | .mode3 => firstBad [(mn % 4 == 3, 8)]
  | .fence => firstBad [(imm % 8 == 7, 7), (imm / 16 % 8 == 7, 7)]
  | .fdmode => firstBad [(!(imm == 0 || imm == 2 || imm == 4 || imm == 8 || imm == 12), 7)]
  | .fdcmp => firstBad [(decide (5 < imm % 8), 7)]
  | .fdlmul => firstBad [(mn / 2 % 4 == 3, 8)]
  | .fdpop => match b with
    | .ff f => firstBad [(fdUnusedB f, 3)]
    | _ => none
  | .kups => firstBad [(decide (5 < mn % 8), 8), (m.getLsbD 3 && !(mn % 8 == 1 || mn % 8 == 2), 8)]
  | .ctrrd => firstBad [(!m.getLsbD 0 && decide (7 < imm), 7)]
  | .capget => firstBad [(!(imm ≤ 0x0C || (0x10 ≤ imm && imm ≤ 0x1B) || imm == 0x3E || imm == 0x3F), 7)]
  | .capset => firstBad [(!(imm ≤ 0x0C || (0x10 ≤ imm && imm ≤ 0x1B) || imm == 0x3E || imm == 0x3F), 7)]
  | .none | .brc | .capa | .vsplit | .sunbind | .sstat | .fdadd | .fdsub | .fdmul | .fdsel | .fdbit | .fdmin
  | .fdmax | .fdrq | .lanes | .kiter | .xmig | .sendr | .barq | .tstmp => none

/-- An operand byte, or a field of it, that a form leaves unused must be 0 (R71). -/
def reservedBad (k : Kind) (m : BitVec 6) (isSys : Bool) (b : BitVec 8) : Bool :=
  match k with
  | .none => b != 0
  | .launchArg => !isSys && b != 0
  | .optSrc => !m.getLsbD 0 && b != 0
  | _ => false

/-- Step 7 of R82: the OPND code (R371) of the first field that is judged bad, in the order TY, PG, MOD, D, A, B, C,
P1, P2, immediate, then the instruction's own rule (DEDUCED, log entry 6: R82 orders the steps, not the fields). -/
def Instr.check7 (i : Instr) (efmt : Word) (vw : Nat) (isSys : Bool) : Option Nat :=
  match i.view with
  | none => none
  | some v =>
    let b := v.body
    let t := resolveTy efmt b.ty
    let tyOk := (decide (b.ty < 64) && v.spec.tys.getLsbD b.ty) || (b.ty == 0x18 && v.spec.nar && v.spec.tys.getLsbD t && t != 0)
    let pgOk := b.pg == 0 || (v.spec.pg && b.pg.getLsbD 3)
    match firstBad [(!tyOk, 9), (!pgOk, 10), (b.mod &&& ~~~v.spec.mod != 0, 8),
        (reservedBad v.spec.d b.mod isSys b.d, 1), (reservedBad v.spec.a b.mod isSys b.a, 2),
        (reservedBad v.spec.b b.mod isSys b.b, 3), (reservedBad v.spec.c b.mod isSys b.c, 4),
        (!v.spec.p1 && b.p1 != 0, 5), (!v.spec.p2 && b.p2 != 0, 6),
        (b.imm &&& v.spec.imm != b.imm, 7)] with
    | some n => some n
    | none => extra7 v.spec.x b efmt t vw

/-! ## Step 9: operand kinds and flags -/

/-- g0-g63, flag allowed. -/
def isG (b : BitVec 8) : Bool := decide (opName b < 64)

/-- v0-v31, flag allowed. -/
def isV (b : BitVec 8) : Bool := decide (64 ≤ opName b) && decide (opName b < 96)

/-- p0-p7, no flag. -/
def isP (b : BitVec 8) : Bool := decide (96 ≤ opName b) && decide (opName b < 104) && !opFlag b

/-- t0-t7, no flag. -/
def isT (b : BitVec 8) : Bool := decide (104 ≤ opName b) && decide (opName b < 112) && !opFlag b

/-- zr, no flag (R74). -/
def isZr (b : BitVec 8) : Bool := b == 0x70

/-- One of the read-only scalar names 113-118, no flag. -/
def isRo (b : BitVec 8) : Bool := decide (113 ≤ opName b) && decide (opName b < 119) && !opFlag b

/-- `lanes` (119), no flag. -/
def isLanes (b : BitVec 8) : Bool := b == 0x77

/-- A scalar source (R74, R141). -/
def srcOk (b : BitVec 8) : Bool := isG b || isZr b || isRo b

/-- A scalar destination. -/
def dstOk (b : BitVec 8) : Bool := isG b || isZr b

/-- A vector source (R160). -/
def vsrcOk (b : BitVec 8) : Bool := isV b || isZr b || isLanes b

/-- A vector destination. -/
def vdstOk (b : BitVec 8) : Bool := isV b || isZr b

/-- R74 for one position. `t` is TY, for the keys of R261. A flag bit on D where D is also a source, as in DBNZ and CAS, or
where it names the completion word's pair, as in CPY, MCAST and RFILL (R219), is ILLEGAL_OPERAND (DEDUCED for the pair,
log entry 61: R219 does not say how bit 7 of such a D reads). -/
def Kind.ok (k : Kind) (t : Nat) (m : BitVec 6) (isSys : Bool) (b : BitVec 8) : Bool :=
  match k with
  | .none | .raw | .special => true
  | .src => srcOk b
  | .dst => dstOk b
  | .srcDst => dstOk b && !opFlag b
  | .vsrc => vsrcOk b
  | .vdst => vdstOk b
  | .psrc | .pdst => isP b
  | .tile => isT b
  | .evenDst => isG b && opName b % 2 == 0
  | .dst60 => isG b && decide (opName b ≤ 60)
  | .dst61 => isG b && decide (opName b ≤ 61)
  | .key => if t = 0x21 then (isG b && opName b % 2 == 0) || isZr b else srcOk b
  | .cword => (isG b && opName b % 2 == 0 && !opFlag b) || isZr b
  | .launchArg => if isSys then srcOk b else true
  | .optSrc => if m.getLsbD 0 then srcOk b else true

/-- Registers `b` .. `b`+n-1 all lie in v0-v31. -/
def vRange (b : BitVec 8) (n : Nat) : Bool := isV b && decide (opName b + n ≤ 96)

/-- A port register: g48-g63 or v24-v31, without a flag bit (R120). -/
def isPortReg (b : BitVec 8) : Bool :=
  !opFlag b && ((decide (48 ≤ opName b) && decide (opName b < 64)) || (decide (88 ≤ opName b) && decide (opName b < 96)))

/-- The kind of the register operand that carries the value of TRD and TWR, judged by the selector (R130). A selector that
names no register, or no bit, is the instruction's own check (`extra10`; DEDUCED, log entry 32). -/
def selectorBad (imm : Nat) (fe : Bool) (isD : Bool) (b : BitVec 8) : Bool :=
  let isState := imm / 4096 % 2 == 1
  let n := imm % 128
  let okS := if isD then dstOk b else srcOk b
  let okV := if isD then vdstOk b else vsrcOk b
  if fe || isState then !okS
  else if n < 64 then !okS else if n < 96 then !okV else if n < 104 then !isP b else false

/-- The rules of step 9 that one instruction's own description adds. Two are DEDUCED: W on the D of SBIND and SUNBIND is refused (log
entry 61), and so is an SSTAT of a register that can be no port (log entry 85). -/
def extra9 (x : Extra) (b : Body) (t vw : Nat) : Option Nat :=
  let m := b.mod
  let imm := b.imm
  let na := 16384 / (if vw = 0 then 1 else vw)
  let kk := match t with
    | 0x10 | 0x11 => 32
    | 0x15 => 128
    | _ => 64
  let nc := (32 * kk) / (if vw = 0 then 1 else vw)
  match x with
  | .brc => firstBad [(if 6 ≤ m.toNat % 8 then !isP b.a else !srcOk b.a, 2)]
  | .trd => firstBad [(selectorBad imm (m.getLsbD 0) true b.d, 1)]
  | .twr => firstBad [(selectorBad imm (m.getLsbD 0) false b.b, 3)]
  | .vsplit => firstBad [(!(isV b.d && decide (opName b.d ≤ 93)), 1)]
  | .vqnt =>
    if m.getLsbD 4 then firstBad [(!vdstOk b.c || opFlag b.c || opName b.c == opName b.d, 4)]
    else firstBad [(!vsrcOk b.c, 4)]
  | .mma => firstBad [(!vRange b.a na, 2), (m.getLsbD 4 && !vRange b.c nc, 4)]
  | .mdrain => firstBad [((t == 1 || t == 5) && !vRange b.b 4, 3)]
  | .sbind => firstBad [(!isPortReg b.d, 1)]
  | .sunbind => firstBad [(!dstOk b.d && !isV b.d || opFlag b.d, 1)]
  | .sstat => firstBad [(!isPortReg b.a, 2)]
  | .sendr =>
    let n := imm / 256 % 128
    firstBad [(if n < 64 then !srcOk b.c else if n < 96 then !vsrcOk b.c else !(srcOk b.c || vsrcOk b.c), 4)]
  | .kiter => firstBad [(!(isG b.d && decide (opName b.d ≤ (if t = 0x21 then 60 else 61))), 1)]
  | _ => none

/-- How many of the bits of `x` below `2 ^ w` are set. -/
def popBits : Nat → Nat → Nat
  | 0, _ => 0
  | w + 1, x => x % 2 + popBits w (x / 2)

/-- The first of an instruction's own checks (step 10 of R82) that its fields alone decide: selectors and counts in the
immediate. -/
def extra10 (x : Extra) (b : Body) (vw : Nat) : Option Nat :=
  let m := b.mod
  let imm := b.imm
  match x with
  | .sets =>
    let num := match b with
      | .fi f => (f.imm.extractLsb' 36 12).toNat
      | _ => imm % 4096
    firstBad [(!(num == 1 || num == 2), 7)]
  | .trd => firstBad [(decide (104 ≤ imm % 4096) && imm / 4096 % 2 == 0, 7), (m.getLsbD 0 && (imm / 4096 % 2 == 1 || decide (96 ≤ imm % 128)), 7)]
  | .twr => firstBad [(decide (104 ≤ imm % 4096) && imm / 4096 % 2 == 0, 7), (m.getLsbD 0 && (imm / 4096 % 2 == 1 || decide (96 ≤ imm % 128)), 7), (imm / 4096 % 2 == 1 && decide (3 ≤ imm % 4096), 7)]
  | .capa => firstBad [(decide (4 < imm), 7)]
  | .lanes | .kups => firstBad [(decide (vw / 64 < imm / 256 % 256), 7)]
  | .sendr => firstBad [(decide (95 < imm / 256 % 128), 7)]
  | .capset => firstBad [(!(imm ≤ 2 || imm == 6 || imm == 9 || imm == 0x0A || (0x10 ≤ imm && imm ≤ 0x1B)), 7)]
  | .ctrrd => firstBad [(m.getLsbD 0 && decide (14 ≤ imm), 7)]
  | .xmig => firstBad [(decide (16 < popBits 48 (imm + b.b.toNat * 2 ^ 32 + b.c.toNat * 2 ^ 40)), 7)]
  | _ => none

/-- Step 9 of R82: the OPND code of the first operand that is judged bad, in the order D, A, B, C, then the
instruction's own rule. -/
def Instr.check9 (i : Instr) (efmt : Word) (vw : Nat) (isSys : Bool) : Option Nat :=
  match i.view with
  | none => none
  | some v =>
    let b := v.body
    let t := resolveTy efmt b.ty
    match firstBad [(!v.spec.d.ok b.ty b.mod isSys b.d, 1), (!v.spec.a.ok b.ty b.mod isSys b.a, 2),
        (!v.spec.b.ok b.ty b.mod isSys b.b, 3), (!v.spec.c.ok b.ty b.mod isSys b.c, 4)] with
    | some n => some n
    | none => extra9 v.spec.x b t vw

/-- The own checks of step 10 that the instruction's fields alone decide: the OPND code of the first that fails. -/
def Instr.check10 (i : Instr) (vw : Nat) : Option Nat :=
  match i.view with
  | none => none
  | some v => extra10 v.spec.x v.body vw

/-- The setting of MOD or of the immediate that makes the encoding this row and no other. -/
def Instr.selOk (i : Instr) : Bool :=
  match i.view with
  | none => false
  | some v =>
    match v.spec.sel with
    | none => true
    | some (useImm, mask, vals) =>
      vals.contains ((if useImm then v.body.imm else v.body.mod.toNat) &&& mask)

/-- An instruction term that is the reading of some 96 bits: its row is the row its bits name. Agents' steps are none. -/
def Instr.wf (i : Instr) : Bool := i.selOk

/-- An instruction that passes steps 7 and 9 of R82, and the checks of step 10 that its fields decide, in a slot with this EFMT on a part with this VW. -/
def Instr.wellFormed (i : Instr) (efmt : Word) (vw : Nat) (isSys : Bool) : Bool :=
  i.wf && (i.check7 efmt vw isSys).isNone && (i.check9 efmt vw isSys).isNone && (i.check10 vw).isNone

end Sys2Proof
end

