-- ==== Sys2Proof/Decode.lean ====
section
/-! DEFINITION. The decoder and the encoder. Decoding takes the twelve bytes of a slot (R61), total on any bytes: an
OP or SUB that R79 does not assign is refused by name (R80). The encoder writes the same encoding back. -/

namespace Sys2Proof

/-- Bits [31:0] first in memory, little-endian: the 96 bits of a slot from its twelve bytes (R61). -/
def slotOfBytes (bs : List Byte) : Slot96 :=
  bs.foldr (fun b acc => (acc <<< 8) ||| b.setWidth 96) 0

/-- The twelve bytes of a slot (R61). -/
def bytesOfSlot (w : Slot96) : List Byte :=
  (List.range 12).map fun i => w.extractLsb' (8 * i) 8

/-- Format R from its 96 bits (R69, R70). -/
def FmtR.ofBits (w : Slot96) : FmtR :=
  { ty := w.extractLsb' 74 6, pg := w.extractLsb' 70 4, mod := w.extractLsb' 64 6,
    d := w.extractLsb' 56 8, a := w.extractLsb' 48 8, b := w.extractLsb' 40 8, c := w.extractLsb' 32 8,
    imm := w.extractLsb' 0 32 }

/-- Format I from its 96 bits. -/
def FmtI.ofBits (w : Slot96) : FmtI :=
  { ty := w.extractLsb' 74 6, pg := w.extractLsb' 70 4, mod := w.extractLsb' 64 6,
    d := w.extractLsb' 56 8, a := w.extractLsb' 48 8, imm := w.extractLsb' 0 48 }

/-- Format B from its 96 bits. -/
def FmtB.ofBits (w : Slot96) : FmtB :=
  { ty := w.extractLsb' 74 6, pg := w.extractLsb' 70 4, mod := w.extractLsb' 64 6,
    d := w.extractLsb' 56 8, a := w.extractLsb' 48 8, disp := w.extractLsb' 0 48 }

/-- Format P from its 96 bits. -/
def FmtP.ofBits (w : Slot96) : FmtP :=
  { ty := w.extractLsb' 74 6, pg := w.extractLsb' 70 4, mod := w.extractLsb' 64 6,
    d := w.extractLsb' 56 8, a := w.extractLsb' 48 8, b := w.extractLsb' 40 8,
    p1 := w.extractLsb' 28 12, p2 := w.extractLsb' 16 12, imm := w.extractLsb' 0 16 }

/-- Format F from its 96 bits. -/
def FmtF.ofBits (w : Slot96) : FmtF :=
  { ty := w.extractLsb' 74 6, pg := w.extractLsb' 70 4, mod := w.extractLsb' 64 6,
    drow := w.extractLsb' 56 8, arow := w.extractLsb' 48 8, brow := w.extractLsb' 40 8, mrow := w.extractLsb' 32 8,
    dw := w.extractLsb' 26 6, aw := w.extractLsb' 20 6, bw := w.extractLsb' 14 6, imm := w.extractLsb' 0 14 }

/-- OP 0x00 (R79). -/
def decodeOp00 (sub : Nat) (w : Slot96) : Option Instr :=
  if sub = 0 then
    some (.nop (FmtR.ofBits w))
  else none

/-- OP 0x01 (R79). -/
def decodeOp01 (sub : Nat) (w : Slot96) : Option Instr :=
  if sub = 0 then
    some (.br (FmtB.ofBits w))
  else none

/-- OP 0x02 (R79). -/
def decodeOp02 (sub : Nat) (w : Slot96) : Option Instr :=
  if sub = 0 then
    some (.call (FmtB.ofBits w))
  else none

/-- OP 0x03 (R79). -/
def decodeOp03 (sub : Nat) (w : Slot96) : Option Instr :=
  if sub = 0 then
    some (.brc (FmtB.ofBits w))
  else none

/-- OP 0x04 (R79). -/
def decodeOp04 (sub : Nat) (w : Slot96) : Option Instr :=
  if sub = 0 then
    some (.dbnz (FmtB.ofBits w))
  else none

/-- OP 0x05 (R79). -/
def decodeOp05 (sub : Nat) (w : Slot96) : Option Instr :=
  if sub = 0 then
    some (.brx (FmtR.ofBits w))
  else none

/-- OP 0x06 (R79). -/
def decodeOp06 (sub : Nat) (w : Slot96) : Option Instr :=
  if sub = 0 then
    some (.jmp (FmtR.ofBits w))
  else none

/-- OP 0x07 (R79). -/
def decodeOp07 (sub : Nat) (w : Slot96) : Option Instr :=
  match sub with
  | 0x00 => some (.flw (FmtR.ofBits w))
  | 0x01 => some (.flx (FmtR.ofBits w))
  | 0x02 => some (.ipf (FmtR.ofBits w))
  | 0x03 => some (.tend (FmtR.ofBits w))
  | 0x04 => some (.watch (FmtR.ofBits w))
  | 0x05 => some (.waita (FmtR.ofBits w))
  | 0x06 => some (.vwid (FmtR.ofBits w))
  | _ => none

/-- OP 0x08 (R79). -/
def decodeOp08 (sub : Nat) (w : Slot96) : Option Instr :=
  match sub with
  | 0x00 => some (.tstart (FmtR.ofBits w))
  | 0x01 => some (.tstop (FmtR.ofBits w))
  | 0x02 => some (.treap (FmtR.ofBits w))
  | 0x03 => some (.tstat (FmtR.ofBits w))
  | 0x04 => some (.trd (FmtR.ofBits w))
  | 0x05 => some (.twr (FmtR.ofBits w))
  | 0x06 => some (.tret (FmtR.ofBits w))
  | _ => none

/-- OP 0x09 (R79). -/
def decodeOp09 (sub : Nat) (w : Slot96) : Option Instr :=
  match sub with
  | 0x00 => some (.movs (FmtR.ofBits w))
  | 0x01 => some (.sets (FmtR.ofBits w))
  | _ => none

/-- OP 0x0A (R79). -/
def decodeOp0A (sub : Nat) (w : Slot96) : Option Instr :=
  if sub = 0 then
    some (.setsi (FmtI.ofBits w))
  else none

/-- OP 0x0B (R79). -/
def decodeOp0B (sub : Nat) (w : Slot96) : Option Instr :=
  match sub with
  | 0x00 => some (.trap (FmtR.ofBits w))
  | 0x01 => some (.brkp (FmtR.ofBits w))
  | 0x02 => some (.sysc (FmtR.ofBits w))
  | 0x03 => 
    let f := FmtR.ofBits w
    let v := (w.extractLsb' 64 6).toNat &&& 0x1
    if v = 1 then some (.fltrdPeek f) else some (.fltrd f)
  | 0x04 => some (.capa (FmtR.ofBits w))
  | _ => none

/-- OP 0x10 (R79). -/
def decodeOp10 (sub : Nat) (w : Slot96) : Option Instr :=
  match sub with
  | 0x00 => some (.add (FmtR.ofBits w))
  | 0x01 => some (.sub (FmtR.ofBits w))
  | 0x02 => some (.mul (FmtR.ofBits w))
  | 0x03 => some (.mulh (FmtR.ofBits w))
  | 0x04 => some (.madd (FmtR.ofBits w))
  | 0x05 => some (.div (FmtR.ofBits w))
  | 0x06 => some (.rem (FmtR.ofBits w))
  | 0x07 => some (.and (FmtR.ofBits w))
  | 0x08 => some (.or (FmtR.ofBits w))
  | 0x09 => some (.xor (FmtR.ofBits w))
  | 0x0a => some (.shl (FmtR.ofBits w))
  | 0x0b => some (.shr (FmtR.ofBits w))
  | 0x0c => some (.sar (FmtR.ofBits w))
  | 0x0d => some (.rol (FmtR.ofBits w))
  | 0x0e => some (.min (FmtR.ofBits w))
  | 0x0f => some (.max (FmtR.ofBits w))
  | 0x10 => some (.sel (FmtR.ofBits w))
  | 0x11 => some (.cmp (FmtR.ofBits w))
  | 0x12 => some (.lea (FmtR.ofBits w))
  | _ => none

/-- OP 0x11 (R79). -/
def decodeOp11 (sub : Nat) (w : Slot96) : Option Instr :=
  match sub with
  | 0x00 => some (.addi (FmtI.ofBits w))
  | 0x01 => some (.andi (FmtI.ofBits w))
  | 0x02 => some (.ori (FmtI.ofBits w))
  | 0x03 => some (.xori (FmtI.ofBits w))
  | 0x04 => some (.shli (FmtI.ofBits w))
  | 0x05 => some (.shri (FmtI.ofBits w))
  | 0x06 => some (.sari (FmtI.ofBits w))
  | 0x07 => some (.cmpi (FmtI.ofBits w))
  | 0x08 => some (.li (FmtI.ofBits w))
  | 0x09 => some (.lih (FmtI.ofBits w))
  | 0x0a => some (.addpc (FmtI.ofBits w))
  | _ => none

/-- OP 0x12 (R79). -/
def decodeOp12 (sub : Nat) (w : Slot96) : Option Instr :=
  match sub with
  | 0x00 => some (.clz (FmtR.ofBits w))
  | 0x01 => some (.ctz (FmtR.ofBits w))
  | 0x02 => some (.popc (FmtR.ofBits w))
  | 0x03 => some (.bswap (FmtR.ofBits w))
  | 0x04 => some (.bfx (FmtR.ofBits w))
  | 0x05 => some (.bfi (FmtR.ofBits w))
  | 0x06 => some (.abs (FmtR.ofBits w))
  | 0x07 => some (.ext (FmtR.ofBits w))
  | _ => none

/-- OP 0x30 (R79). -/
def decodeOp30 (sub : Nat) (w : Slot96) : Option Instr :=
  match sub with
  | 0x00 => some (.vadd (FmtR.ofBits w))
  | 0x01 => some (.vsub (FmtR.ofBits w))
  | 0x02 => some (.vmul (FmtR.ofBits w))
  | 0x03 => some (.vfma (FmtR.ofBits w))
  | 0x04 => some (.vmin (FmtR.ofBits w))
  | 0x05 => some (.vmax (FmtR.ofBits w))
  | 0x06 => some (.vabs (FmtR.ofBits w))
  | 0x07 => some (.vand (FmtR.ofBits w))
  | 0x08 => some (.vor (FmtR.ofBits w))
  | 0x09 => some (.vxor (FmtR.ofBits w))
  | 0x0a => some (.vshl (FmtR.ofBits w))
  | 0x0b => some (.vshr (FmtR.ofBits w))
  | 0x0c => some (.vsar (FmtR.ofBits w))
  | 0x0d => some (.vsel (FmtR.ofBits w))
  | 0x0e => some (.vclamp (FmtR.ofBits w))
  | _ => none

/-- OP 0x31 (R79). -/
def decodeOp31 (sub : Nat) (w : Slot96) : Option Instr :=
  match sub with
  | 0x00 => some (.vdiv (FmtR.ofBits w))
  | 0x01 => some (.vsqrt (FmtR.ofBits w))
  | _ => none

/-- OP 0x32 (R79). -/
def decodeOp32 (sub : Nat) (w : Slot96) : Option Instr :=
  if sub = 0 then
    some (.vcmp (FmtR.ofBits w))
  else none

/-- OP 0x33 (R79). -/
def decodeOp33 (sub : Nat) (w : Slot96) : Option Instr :=
  match sub with
  | 0x00 => some (.vcvt (FmtR.ofBits w))
  | 0x01 => some (.vsplit (FmtR.ofBits w))
  | 0x02 => some (.vqnt (FmtR.ofBits w))
  | 0x03 => some (.vdqnt (FmtR.ofBits w))
  | 0x04 => some (.vlmul (FmtR.ofBits w))
  | 0x05 => some (.vlacc (FmtR.ofBits w))
  | 0x06 => some (.vdot (FmtR.ofBits w))
  | 0x07 => some (.baddq (FmtR.ofBits w))
  | _ => none

/-- OP 0x34 (R79). -/
def decodeOp34 (sub : Nat) (w : Slot96) : Option Instr :=
  match sub with
  | 0x00 => some (.vsplat (FmtR.ofBits w))
  | 0x01 => some (.vins (FmtR.ofBits w))
  | 0x02 => some (.vext (FmtR.ofBits w))
  | 0x03 => some (.viota (FmtR.ofBits w))
  | 0x04 => some (.vperm (FmtR.ofBits w))
  | 0x05 => some (.vmov (FmtR.ofBits w))
  | _ => none

/-- OP 0x35 (R79). -/
def decodeOp35 (sub : Nat) (w : Slot96) : Option Instr :=
  match sub with
  | 0x00 => some (.vred (FmtR.ofBits w))
  | 0x01 => some (.vscan (FmtR.ofBits w))
  | _ => none

/-- OP 0x36 (R79). -/
def decodeOp36 (sub : Nat) (w : Slot96) : Option Instr :=
  match sub with
  | 0x00 => some (.plt (FmtR.ofBits w))
  | 0x01 => some (.pset (FmtR.ofBits w))
  | 0x02 => some (.pand (FmtR.ofBits w))
  | 0x03 => some (.por (FmtR.ofBits w))
  | 0x04 => some (.pxor (FmtR.ofBits w))
  | 0x05 => some (.pnot (FmtR.ofBits w))
  | 0x06 => some (.pcnt (FmtR.ofBits w))
  | 0x07 => some (.pfirst (FmtR.ofBits w))
  | _ => none

/-- OP 0x50 (R79). -/
def decodeOp50 (sub : Nat) (w : Slot96) : Option Instr :=
  if sub = 0 then
    some (.mma (FmtR.ofBits w))
  else none

/-- OP 0x51 (R79). -/
def decodeOp51 (sub : Nat) (w : Slot96) : Option Instr :=
  match sub with
  | 0x00 => some (.mzero (FmtR.ofBits w))
  | 0x01 => some (.mrd (FmtR.ofBits w))
  | 0x02 => some (.mwr (FmtR.ofBits w))
  | 0x03 => 
    let f := FmtR.ofBits w
    let v := (w.extractLsb' 64 6).toNat &&& 0x1
    if v = 1 then some (.mstatW f) else some (.mstat f)
  | _ => none

/-- OP 0x52 (R79). -/
def decodeOp52 (sub : Nat) (w : Slot96) : Option Instr :=
  match sub with
  | 0x00 => some (.wbld (FmtP.ofBits w))
  | 0x01 => some (.wbinv (FmtP.ofBits w))
  | _ => none

/-- OP 0x53 (R79). -/
def decodeOp53 (sub : Nat) (w : Slot96) : Option Instr :=
  if sub = 0 then
    some (.mload (FmtP.ofBits w))
  else none

/-- OP 0x54 (R79). -/
def decodeOp54 (sub : Nat) (w : Slot96) : Option Instr :=
  if sub = 0 then
    some (.mdrain (FmtP.ofBits w))
  else none

/-- OP 0x60 (R79). -/
def decodeOp60 (sub : Nat) (w : Slot96) : Option Instr :=
  if sub = 0 then
    some (.ld (FmtR.ofBits w))
  else none

/-- OP 0x61 (R79). -/
def decodeOp61 (sub : Nat) (w : Slot96) : Option Instr :=
  if sub = 0 then
    some (.st (FmtR.ofBits w))
  else none

/-- OP 0x62 (R79). -/
def decodeOp62 (sub : Nat) (w : Slot96) : Option Instr :=
  if sub = 0 then
    some (.ldv (FmtR.ofBits w))
  else none

/-- OP 0x63 (R79). -/
def decodeOp63 (sub : Nat) (w : Slot96) : Option Instr :=
  if sub = 0 then
    some (.stv (FmtR.ofBits w))
  else none

/-- OP 0x64 (R79). -/
def decodeOp64 (sub : Nat) (w : Slot96) : Option Instr :=
  if sub = 0 then
    some (.gth (FmtR.ofBits w))
  else none

/-- OP 0x65 (R79). -/
def decodeOp65 (sub : Nat) (w : Slot96) : Option Instr :=
  if sub = 0 then
    some (.sct (FmtR.ofBits w))
  else none

/-- OP 0x66 (R79). -/
def decodeOp66 (sub : Nat) (w : Slot96) : Option Instr :=
  match sub with
  | 0x00 => some (.amo (FmtR.ofBits w))
  | 0x01 => some (.cas (FmtR.ofBits w))
  | 0x02 => some (.amov (FmtR.ofBits w))
  | _ => none

/-- OP 0x67 (R79). -/
def decodeOp67 (sub : Nat) (w : Slot96) : Option Instr :=
  match sub with
  | 0x00 => 
    let f := FmtR.ofBits w
    let v := (w.extractLsb' 0 32).toNat &&& 0x3
    if v = 1 then some (.sbindOut f) else if v = 2 then some (.sbindQ f) else some (.sbindIn f)
  | 0x01 => some (.sunbind (FmtR.ofBits w))
  | 0x02 => some (.sstat (FmtR.ofBits w))
  | _ => none

/-- OP 0x68 (R79). -/
def decodeOp68 (sub : Nat) (w : Slot96) : Option Instr :=
  match sub with
  | 0x00 => some (.cpy (FmtP.ofBits w))
  | 0x01 => some (.mcast (FmtP.ofBits w))
  | 0x02 => some (.rfill (FmtP.ofBits w))
  | 0x03 => some (.cpyc (FmtP.ofBits w))
  | 0x04 => 
    let f := FmtP.ofBits w
    let v := (w.extractLsb' 64 6).toNat &&& 0x3
    if v = 1 then some (.eseqGo f) else if v = 2 then some (.eseqDrop f) else some (.eseq f)
  | 0x05 => some (.ewait (FmtP.ofBits w))
  | _ => none

/-- OP 0x69 (R79). -/
def decodeOp69 (sub : Nat) (w : Slot96) : Option Instr :=
  match sub with
  | 0x00 => some (.fencex (FmtR.ofBits w))
  | 0x01 => some (.cwb (FmtR.ofBits w))
  | _ => none

/-- OP 0x70 (R79). -/
def decodeOp70 (sub : Nat) (w : Slot96) : Option Instr :=
  match sub with
  | 0x00 => some (.fdmode (FmtR.ofBits w))
  | 0x01 => some (.fdwait (FmtR.ofBits w))
  | 0x02 => 
    let f := FmtR.ofBits w
    let v := (w.extractLsb' 64 6).toNat &&& 0x3
    if v = 1 then some (.fdstatGo f) else if v = 2 then some (.fdstatDrop f) else some (.fdstat f)
  | _ => none

/-- OP 0x71 (R79). -/
def decodeOp71 (sub : Nat) (w : Slot96) : Option Instr :=
  match sub with
  | 0x00 => some (.fdin (FmtP.ofBits w))
  | 0x01 => some (.fdout (FmtP.ofBits w))
  | _ => none

/-- OP 0x72 (R79). -/
def decodeOp72 (sub : Nat) (w : Slot96) : Option Instr :=
  match sub with
  | 0x00 => some (.fdadd (FmtF.ofBits w))
  | 0x01 => some (.fdsub (FmtF.ofBits w))
  | 0x02 => some (.fdmul (FmtF.ofBits w))
  | 0x03 => some (.fdcmp (FmtF.ofBits w))
  | 0x04 => some (.fdsel (FmtF.ofBits w))
  | 0x05 => some (.fdbit (FmtF.ofBits w))
  | 0x06 => some (.fdmin (FmtF.ofBits w))
  | 0x07 => some (.fdmax (FmtF.ofBits w))
  | 0x08 => some (.fdlmul (FmtF.ofBits w))
  | 0x09 => some (.fdrq (FmtF.ofBits w))
  | 0x0a => some (.fdpop (FmtF.ofBits w))
  | _ => none

/-- OP 0x78 (R79). -/
def decodeOp78 (sub : Nat) (w : Slot96) : Option Instr :=
  match sub with
  | 0x00 => some (.kprb (FmtR.ofBits w))
  | 0x01 => some (.kins (FmtR.ofBits w))
  | 0x02 => 
    let f := FmtR.ofBits w
    let v := (w.extractLsb' 64 6).toNat &&& 0x10
    if v = 16 then some (.kupsPost f) else some (.kups f)
  | 0x03 => some (.kdel (FmtR.ofBits w))
  | 0x04 => some (.kprbv (FmtR.ofBits w))
  | 0x05 => 
    let f := FmtR.ofBits w
    let v := (w.extractLsb' 64 6).toNat &&& 0x10
    if v = 16 then some (.kupsvPost f) else some (.kupsv f)
  | _ => none

/-- OP 0x79 (R79). -/
def decodeOp79 (sub : Nat) (w : Slot96) : Option Instr :=
  match sub with
  | 0x00 => some (.knew (FmtR.ofBits w))
  | 0x01 => some (.kbind (FmtR.ofBits w))
  | 0x02 => some (.kstat (FmtR.ofBits w))
  | 0x03 => some (.khash (FmtR.ofBits w))
  | 0x04 => some (.kiter (FmtR.ofBits w))
  | 0x05 => some (.kclr (FmtR.ofBits w))
  | _ => none

/-- OP 0x80 (R79). -/
def decodeOp80 (sub : Nat) (w : Slot96) : Option Instr :=
  match sub with
  | 0x00 => some (.xmig (FmtR.ofBits w))
  | 0x01 => some (.xret (FmtR.ofBits w))
  | 0x02 => some (.xupd (FmtR.ofBits w))
  | 0x03 => some (.xnrm (FmtR.ofBits w))
  | 0x04 => some (.xovl (FmtR.ofBits w))
  | 0x05 => some (.xrlk (FmtR.ofBits w))
  | 0x06 => some (.xrul (FmtR.ofBits w))
  | _ => none

/-- OP 0x88 (R79). -/
def decodeOp88 (sub : Nat) (w : Slot96) : Option Instr :=
  match sub with
  | 0x00 => 
    let f := FmtR.ofBits w
    let v := (w.extractLsb' 64 6).toNat &&& 0x3
    if v = 1 then some (.sendR f) else if v = 2 then some (.sendFar f) else some (.send f)
  | 0x01 => 
    let f := FmtR.ofBits w
    let v := (w.extractLsb' 64 6).toNat &&& 0x1
    if v = 1 then some (.recvNw f) else some (.recv f)
  | 0x02 => some (.lback (FmtR.ofBits w))
  | 0x03 => some (.istat (FmtR.ofBits w))
  | _ => none

/-- OP 0x89 (R79). -/
def decodeOp89 (sub : Nat) (w : Slot96) : Option Instr :=
  match sub with
  | 0x00 => some (.spawn (FmtR.ofBits w))
  | 0x01 => some (.join (FmtR.ofBits w))
  | 0x02 => some (.tnext (FmtR.ofBits w))
  | 0x03 => some (.steal (FmtR.ofBits w))
  | _ => none

/-- OP 0x8A (R79). -/
def decodeOp8A (sub : Nat) (w : Slot96) : Option Instr :=
  match sub with
  | 0x00 => 
    let f := FmtR.ofBits w
    let v := (w.extractLsb' 64 6).toNat &&& 0x2
    if v = 2 then some (.qpubGw f) else some (.qpub f)
  | 0x01 => 
    let f := FmtR.ofBits w
    let v := (w.extractLsb' 64 6).toNat &&& 0x2
    if v = 2 then some (.qclmGw f) else some (.qclm f)
  | 0x02 => 
    let f := FmtR.ofBits w
    let v := (w.extractLsb' 64 6).toNat &&& 0x2
    if v = 2 then some (.qstatGw f) else some (.qstat f)
  | _ => none

/-- OP 0x8B (R79). -/
def decodeOp8B (sub : Nat) (w : Slot96) : Option Instr :=
  match sub with
  | 0x00 => some (.nred (FmtR.ofBits w))
  | 0x01 => some (.lnch (FmtR.ofBits w))
  | 0x02 => 
    let f := FmtR.ofBits w
    let v := (w.extractLsb' 64 6).toNat &&& 0x1
    if v = 1 then some (.prmtL f) else some (.prmt f)
  | 0x03 => 
    let f := FmtR.ofBits w
    let v := (w.extractLsb' 64 6).toNat &&& 0x1
    if v = 1 then some (.resmL f) else some (.resm f)
  | _ => none

/-- OP 0x90 (R79). -/
def decodeOp90 (sub : Nat) (w : Slot96) : Option Instr :=
  match sub with
  | 0x00 => some (.capnew (FmtR.ofBits w))
  | 0x01 => 
    let f := FmtR.ofBits w
    let v := (w.extractLsb' 64 6).toNat &&& 0x1
    if v = 1 then some (.capwaitNw f) else some (.capwait f)
  | 0x02 => some (.capnext (FmtR.ofBits w))
  | 0x03 => some (.capins (FmtR.ofBits w))
  | 0x04 => some (.capdel (FmtR.ofBits w))
  | 0x05 => some (.capset (FmtR.ofBits w))
  | 0x06 => some (.capget (FmtR.ofBits w))
  | 0x07 => some (.cappark (FmtR.ofBits w))
  | 0x08 => some (.capdone (FmtR.ofBits w))
  | _ => none

/-- OP 0x98 (R79). -/
def decodeOp98 (sub : Nat) (w : Slot96) : Option Instr :=
  match sub with
  | 0x00 => some (.plset (FmtR.ofBits w))
  | 0x01 => some (.plget (FmtR.ofBits w))
  | 0x02 => some (.plinv (FmtR.ofBits w))
  | 0x03 => 
    let f := FmtR.ofBits w
    let v := (w.extractLsb' 64 6).toNat &&& 0x1
    if v = 1 then some (.trsetClr f) else some (.trset f)
  | 0x04 => some (.htset (FmtR.ofBits w))
  | 0x05 => some (.xlat (FmtR.ofBits w))
  | 0x06 => 
    let f := FmtR.ofBits w
    let v := (w.extractLsb' 64 6).toNat &&& 0x3
    if v = 1 then some (.tlbinvL f) else if v = 2 then some (.tlbinvG f) else some (.tlbinvA f)
  | 0x07 => 
    let f := FmtR.ofBits w
    let v := (w.extractLsb' 64 6).toNat &&& 0x1
    if v = 1 then some (.modldDbg f) else some (.modld f)
  | 0x08 => some (.modul (FmtR.ofBits w))
  | _ => none

/-- OP 0xA0 (R79). -/
def decodeOpA0 (sub : Nat) (w : Slot96) : Option Instr :=
  match sub with
  | 0x00 => 
    let f := FmtR.ofBits w
    let v := (w.extractLsb' 64 6).toNat &&& 0x3
    if v = 1 then some (.baraJoin f) else if v = 2 then some (.baraLeave f) else some (.bara f)
  | 0x01 => some (.barw (FmtR.ofBits w))
  | 0x02 => some (.barq (FmtR.ofBits w))
  | 0x03 => some (.ctrsel (FmtR.ofBits w))
  | 0x04 => some (.ctrrd (FmtR.ofBits w))
  | 0x05 => some (.timset (FmtR.ofBits w))
  | 0x06 => some (.tstmp (FmtR.ofBits w))
  | 0x07 => some (.clkrd (FmtR.ofBits w))
  | _ => none

/-- The opcode map of R79, by OP and then SUB. -/
def decodeOpSub (op sub : Nat) (w : Slot96) : Option Instr :=
  match op with
  | 0x00 => decodeOp00 sub w
  | 0x01 => decodeOp01 sub w
  | 0x02 => decodeOp02 sub w
  | 0x03 => decodeOp03 sub w
  | 0x04 => decodeOp04 sub w
  | 0x05 => decodeOp05 sub w
  | 0x06 => decodeOp06 sub w
  | 0x07 => decodeOp07 sub w
  | 0x08 => decodeOp08 sub w
  | 0x09 => decodeOp09 sub w
  | 0x0a => decodeOp0A sub w
  | 0x0b => decodeOp0B sub w
  | 0x10 => decodeOp10 sub w
  | 0x11 => decodeOp11 sub w
  | 0x12 => decodeOp12 sub w
  | 0x30 => decodeOp30 sub w
  | 0x31 => decodeOp31 sub w
  | 0x32 => decodeOp32 sub w
  | 0x33 => decodeOp33 sub w
  | 0x34 => decodeOp34 sub w
  | 0x35 => decodeOp35 sub w
  | 0x36 => decodeOp36 sub w
  | 0x50 => decodeOp50 sub w
  | 0x51 => decodeOp51 sub w
  | 0x52 => decodeOp52 sub w
  | 0x53 => decodeOp53 sub w
  | 0x54 => decodeOp54 sub w
  | 0x60 => decodeOp60 sub w
  | 0x61 => decodeOp61 sub w
  | 0x62 => decodeOp62 sub w
  | 0x63 => decodeOp63 sub w
  | 0x64 => decodeOp64 sub w
  | 0x65 => decodeOp65 sub w
  | 0x66 => decodeOp66 sub w
  | 0x67 => decodeOp67 sub w
  | 0x68 => decodeOp68 sub w
  | 0x69 => decodeOp69 sub w
  | 0x70 => decodeOp70 sub w
  | 0x71 => decodeOp71 sub w
  | 0x72 => decodeOp72 sub w
  | 0x78 => decodeOp78 sub w
  | 0x79 => decodeOp79 sub w
  | 0x80 => decodeOp80 sub w
  | 0x88 => decodeOp88 sub w
  | 0x89 => decodeOp89 sub w
  | 0x8a => decodeOp8A sub w
  | 0x8b => decodeOp8B sub w
  | 0x90 => decodeOp90 sub w
  | 0x98 => decodeOp98 sub w
  | 0xa0 => decodeOpA0 sub w
  | _ => none

/-- The instruction of 96 bits, or none where R79 assigns none (R80). -/
def decodeSlot (w : Slot96) : Option Instr :=
  decodeOpSub (w.extractLsb' 88 8).toNat (w.extractLsb' 80 8).toNat w

/-- Why bytes hold no instruction. -/
inductive DecodeError where
  /-- fewer than twelve bytes -/
  | short
  /-- an OP or SUB absent from R79: ILLEGAL_OP at step 5 (R80) -/
  | unassigned (op sub : Nat)
  deriving DecidableEq, Repr

/-- The instruction at the head of a list of bytes, with the bytes that follow it. -/
def decode (bs : List Byte) : Except DecodeError (Instr × List Byte) :=
  let w := slotOfBytes (bs.take 12)
  if bs.length < 12 then .error .short
  else match decodeSlot w with
    | some i => .ok (i, bs.drop 12)
    | none => .error (.unassigned (w.extractLsb' 88 8).toNat (w.extractLsb' 80 8).toNat)

/-- An instruction from its bits numbered from the first byte's least significant bit. -/
def decodeTableWord (_nbits w : Nat) : Option Instr :=
  match decode (bytesOfSlot (BitVec.ofNat 96 w)) with
  | .ok (i, _) => some i
  | .error _ => none

/-- The header [95:64] (R69). -/
def packHeader (op sub : Nat) (ty : BitVec 6) (pg : BitVec 4) (mod : BitVec 6) : BitVec 32 :=
  (BitVec.ofNat 8 op) ++ (BitVec.ofNat 8 sub) ++ ty ++ pg ++ mod

/-- The body [63:0] after its header (R70). -/
def Body.pack (op sub : Nat) : Body → Slot96
  | .fr f => packHeader op sub f.ty f.pg f.mod ++ f.d ++ f.a ++ f.b ++ f.c ++ f.imm
  | .fi f => packHeader op sub f.ty f.pg f.mod ++ f.d ++ f.a ++ f.imm
  | .fb f => packHeader op sub f.ty f.pg f.mod ++ f.d ++ f.a ++ f.disp
  | .fp f => packHeader op sub f.ty f.pg f.mod ++ f.d ++ f.a ++ f.b ++ f.p1 ++ f.p2 ++ f.imm
  | .ff f => packHeader op sub f.ty f.pg f.mod ++ f.drow ++ f.arow ++ f.brow ++ f.mrow ++ f.dw ++ f.aw ++ f.bw ++ f.imm

/-- The 96 bits of an instruction; none for a step that is no instruction. -/
def Instr.encode (i : Instr) : Option Slot96 :=
  i.view.map fun v => v.body.pack v.op v.sub

end Sys2Proof
end

