-- ==== Sys2Proof/Config.lean ====
section
/-! DEFINITION. What one implementation fixes, and the values the spec leaves free. An `opaque` constant has no body:
nothing can be proved of its value. -/

namespace Sys2Proof

/-- The two parts of the family (R9). -/
inductive Part where
  | v2
  | v2e
  deriving DecidableEq, Repr, Inhabited

namespace Part

/-- VW in bits (R9). -/
def vw : Part → Nat
  | .v2 => 2048
  | .v2e => 1024

/-- Folds of one device (R9). -/
def folds : Part → Nat
  | .v2 => 128
  | .v2e => 64

/-- Pastures, and HBM stacks, of one device (R9). -/
def pastures : Part → Nat
  | .v2 => 8
  | .v2e => 4

/-- Compute cores of one device: numbers 0 to n-1 (R9). -/
def cores : Part → Nat
  | .v2 => 1024
  | .v2e => 512

/-- Gateway cores: numbers 1024 to 1024+n-1 (R9, R13). -/
def gateways : Part → Nat
  | .v2 => 32
  | .v2e => 16

/-- Jarper Link ports (R9). -/
def ports : Part → Nat
  | .v2 => 16
  | .v2e => 8

/-- The part code of CAPA selector 4 (R388). -/
def code : Part → Nat
  | .v2 => 0x1024
  | .v2e => 0x0512

/-- log2 VW, CAPA.VWLOG (R117). -/
def vwlog : Part → Nat
  | .v2 => 11
  | .v2e => 10

/-- Fields and channel cores are present (R9). -/
def full : Part → Bool
  | .v2 => true
  | .v2e => false

/-- The module's maximum power in W (R9, R406). -/
def power : Part → Nat
  | .v2 => 2200
  | .v2e => 1200

end Part

/-- SHAKE256 with a 512-bit output over a byte string (R396, R398). FREE VALUE (log entry 3): the spec names the
function and gives no tables for it. -/
opaque Config.shake256 : List Byte → BitVec 512

/-- The Falcon-1024 signature the device identity key makes over a digest (R398), 1,280 bytes at most. FREE VALUE (log
entry 3): the key never leaves the device. -/
opaque Config.falconSign : BitVec 512 → List Byte

/-- The Evoven Resident version that SYSC VERSION returns (R390). FREE VALUE (log entry 3). -/
opaque Config.residentVersion : Word

/-- The stepping field of CAPA selector 4 (R388). FREE VALUE (log entry 3). -/
opaque Config.stepping : BitVec 8

/-- The SHAKE256 digest of the device identity public key (R394). FREE VALUE (log entry 3). -/
opaque Config.devId : BitVec 512

/-- The value that SEND.far writes to D, whose status the pseudocode of R298 leaves unassigned, by the ac, the core and the slot of its
completion. FREE VALUE (log entry 91). -/
opaque Config.farStatus (ac core slot : Nat) : Word

end Sys2Proof
end

