-- ==== Sys2Proof/Machine/State.lean ====
section
/-! DEFINITION. The machine's state, as plain data: the threads with their registers (R115), the cores, folds, dies and
channels with what each level shares (R14), the launches and the tables they own, the device, and what is in flight
between agents. Cores, folds, pastures, dies and channels are named by numbers unique in the commons (core 4,096·dev + n,
fold 128·dev + f, pasture 8·dev + p, die 4·dev + d, channel 256·dev + c) and held in lists by number; an absent number
has its reset state. Timestamps are natural numbers (R204: 64 bits, and they do not wrap in service). -/

namespace Sys2Proof.Machine

/-- Bytes by address, addresses strictly rising, no entry equal to 0, which an unlisted address reads as (log entry 2). -/
abbrev Memory := List Host.Cell

/-- What an address that the list does not hold reads as (log entry 2). -/
def Memory.blank : Byte := 0

/-- The canonical form of a memory. -/
def Memory.wf : Memory → Bool
  | [] => true
  | [(_, b)] => b != Memory.blank
  | (a, b) :: (a', b') :: m => b != Memory.blank && decide (a < a') && Memory.wf ((a', b') :: m)

/-- Slot states (R121). -/
inductive SlotState where
  | idle | runnable | parked | held | stopped | faulted | ended
  deriving DecidableEq, Repr, Inhabited

/-- The code TSTAT reports (R121). -/
def SlotState.code : SlotState → Nat
  | .idle => 0 | .runnable => 1 | .parked => 2 | .held => 3 | .stopped => 4 | .faulted => 5 | .ended => 6

/-- A condition on which other work waits (R226): work of one path that must have completed. -/
inductive Cond where
  /-- the copy commands and chain records that core `c` issued with a number up to `n` -/
  | copy (c n : Nat)
  /-- the field sequence number of fold `f` has reached `n`, for commands of core `c` -/
  | field (c f n : Nat)
  /-- every append up to `n` of the output stream that core `c` bound with number `b`, on register `r` of slot `k`, is written -/
  | stream (c k r b n : Nat)
  /-- no accepted unit operation with a number up to `n` is left on core `c` -/
  | matrix (c n : Nat)
  /-- posted upserts with a number up to `n` of core `c` are applied -/
  | key (c n : Nat)
  /-- near-memory packets with a number up to `n` of core `c` are applied -/
  | near (c n : Nat)
  /-- the thread's own accesses, whose mark is the timestamp `ts` -/
  | thread (ts : Nat)
  /-- the request of thread `w`, issued at `issued`, that an agent holds -/
  | access (w : Who) (issued : Option Nat)
  /-- the code line `ln` that slot `k` of core `c` awaits -/
  | fetch (c k ln : Nat)
  /-- the overlay with virtual base `base` on its way into window `w` of channel core `ch` -/
  | overlay (ch w : Nat) (base : Word)
  deriving DecidableEq, Repr

/-- What a parked thread waits for (R26, R129, R379). -/
inductive Wait where
  /-- a read of one of these registers, which is empty, or of an input end with no element (reason 1) -/
  | empty (regs : List Nat)
  /-- a W destination, or an output end, that is full (reason 2) -/
  | full (regs : List Nat)
  /-- a reply that travels from a home or agent (reason 3) -/
  | reply
  /-- a request that an agent holds and has not answered (reason 3) -/
  | served
  /-- away on a channel core, or a near-memory reply (reason 4) -/
  | near
  /-- WAITA (reason 5) -/
  | ready
  /-- EWAIT until the engine sequence number reaches `n` (reason 5) -/
  | eseq (n : Nat)
  /-- FDWAIT until the field sequence number reaches `n` (reason 5) -/
  | fseq (n : Nat)
  /-- BARW on barrier `b` until its phase reaches `n` (reason 5) -/
  | phase (b n : Nat)
  /-- RECV on an empty inbox (reason 5) -/
  | message
  /-- LBACK on a full inbox (reason 5) -/
  | inboxRoom
  /-- a full copy-engine queue (reason 5) -/
  | copyRoom
  /-- a full field queue (reason 5) -/
  | fieldRoom
  /-- CAPWAIT with no capsule (reason 5) -/
  | capsule
  /-- a shepherd's TEND awaiting its siblings (reason 5) -/
  | siblings
  /-- TSTOP while slot `k` stops (reason 5) -/
  | stopping (k : Nat)
  /-- FENCEX with class2 `thread` (reason 5) -/
  | fence (cs : List Cond)
  /-- SUNBIND of the output stream on register `r` (reason 5) -/
  | drain (r : Nat)
  /-- FLW (reason 5) -/
  | follow
  /-- the matrix unit (reason 6) -/
  | matrix
  /-- VDIV or VSQRT (reason 7) -/
  | divide
  /-- a tile whose pending count is nonzero: HELD, not PARKED (R181) -/
  | tile (t : Nat)
  /-- an unpinned scratchpad page (R200; reason 3) -/
  | page (c p : Nat)
  /-- a poisoned line (R403; reason 3) -/
  | poisoned (ln : Nat)
  /-- a locked row (R283; reason 4) -/
  | row (ch row : Nat)
  /-- posted upserts of the thread to map number `m` (R258; reason 3) -/
  | posted (m : Nat)
  /-- room in the launch's transit store on device `d` (R322; reason 3) -/
  | transit (d : Nat)
  /-- room in the park queue (R327; reason 3) -/
  | park
  /-- packets of the thread (XRET, R280; reason 4) -/
  | packets
  /-- a lead below 3 at barrier `b` (R356; reason 3) -/
  | lead (b : Nat)
  /-- the next round of tree `t` (R311; reason 3) -/
  | round (t : Nat)
  /-- the module table entry `m` becoming FREE (R353; reason 3) -/
  | moduleFree (m : Nat)
  /-- room in the device exception queue (R375; reason 3) -/
  | excRoom
  /-- a launch to leave Retiring, or to be Running again (R313; reason 3) -/
  | launchDone (l : Nat)
  | launchRunning (l : Nat)
  /-- PRMT: issued work of cores that stops (R378; reason 3) -/
  | quiet (cs : List Nat)
  /-- a route to device `d` (R367; reason 3) -/
  | route (d : Nat)
  /-- a walk for 64 KiB page `page` of address space `space` in the pending misses of die `d`, or room there (R343; reason 3) -/
  | walk (d space page : Nat)
  /-- TLBINV: accesses translated with a dropped entry (R344; reason 3) -/
  | settled (cs : List Cond)
  /-- no parking: a taken branch's wait for its target line, a fetch stall (R68) -/
  | line (ln : Nat)
  deriving DecidableEq, Repr

/-- The park reason of R129. -/
def Wait.reason : Wait → Nat
  | .empty _ => 1
  | .full _ => 2
  | .reply | .served | .page _ _ | .poisoned _ | .posted _ | .transit _ | .park | .lead _ | .round _ | .moduleFree _
  | .excRoom | .launchDone _ | .launchRunning _ | .route _ | .settled _ | .quiet _ | .walk .. => 3
  | .near | .row _ _ | .packets => 4
  | .ready | .eseq _ | .fseq _ | .phase _ _ | .message | .inboxRoom | .copyRoom | .fieldRoom | .capsule | .siblings
  | .stopping _ | .fence _ | .drain _ | .follow => 5
  | .matrix => 6
  | .divide => 7
  | .tile _ | .line _ => 0

/-- One register write of an instruction's completion. -/
inductive Wr where
  | g (n : Nat) (x : Word)
  | v (n : Nat) (x : VReg)
  | p (n : Nat) (x : PReg)
  deriving DecidableEq, Repr

/-- Where an access is served: a scratchpad byte or a physical address. -/
inductive Loc where
  | scr (c off : Nat)
  | mem (pa : Nat)
  deriving DecidableEq, Repr, Inhabited

/-- What an instruction does to its thread's registers at completion (R6): the take sources emptied, the port registers
popped, the writes in order, the registers emptied after them (of a pair's second instruction, R77), the sticky bits set,
FLAGS.MS, the state registers written, the timestamp PTS is raised to, the next PC (none: the successor), and whether the
slot ends. -/
structure Eff where
  takes : List Nat := []
  pops : List Nat := []
  writes : List Wr := []
  late : List Nat := []
  sticky : Word := 0
  ms : Option Nat := none
  setFlags : Option Word := none
  setEfmt : Option Word := none
  pts : Nat := 0
  pc : Option Word := none
  /-- the slot ENDED (TEND) -/
  ended : Bool := false
  /-- registers read, whose fill timestamps the completion consumes (R119) -/
  seen : List Nat := []
  /-- W destinations, which must be empty at completion (R75) -/
  wdest : List Nat := []
  /-- take sources of a pair's first instruction that only its second writes: they are emptied before that write (R77, R119) -/
  early : List Nat := []
  /-- a branch that is taken (R126) -/
  taken : Bool := false
  deriving DecidableEq, Repr

/-- A fault as an instruction raises it: the code and step (R82), OPND and ACC of DETAIL (R371), ADDR (R370), INFO
(R372), TCODE and the breakpoint flag (R385), and the overlay-miss flag (R279). -/
structure FaultInfo where
  code : FaultCode
  step : Nat := 10
  opnd : Nat := 0
  acc : Nat := 0
  addr : Word := 0
  info : Word := 0
  tcode : BitVec 16 := 0
  brk : Bool := false
  ovl : Bool := false
  second : Bool := false
  /-- the port whose generator held the fault (R216) -/
  port : Option Nat := none
  /-- a target PC whose check the instruction had made before (R64, R68) -/
  fetched : Option Word := none
  deriving DecidableEq, Repr, Inhabited

/-- A fault record (R370). -/
structure FaultRec where
  pc : Word
  addr : Word
  info : Word
  code : BitVec 16
  kind : BitVec 8
  sflags : BitVec 8
  detail : BitVec 32
  deriving DecidableEq, Repr, Inhabited

/-- A value held in a pending-fill holder (R119). -/
structure Held where
  val : VReg
  ts : Nat
  deriving DecidableEq, Repr, Inhabited

/-- The kind of a port binding (R215, R218). -/
inductive PortKind where
  | input | output | qsend | qrecv
  deriving DecidableEq, Repr, Inhabited

/-- A port binding of one register (R120, R215, R216): for a stream its base, stride and count in elements, type and
hint, the binding thread's PTS, the elements popped or appended, those read ahead or written, the buffered
register-sized elements with their timestamps, the greatest write timestamp, and a held element fault; for a queue end
its peer. -/
structure Port where
  kind : PortKind
  base : Word := 0
  stride : Word := 0
  count : Nat := 0
  ty : Nat := 0
  hnt : Nat := 0
  pts : Nat := 0
  done : Nat := 0
  ahead : Nat := 0
  buf : List Held := []
  mark : Nat := 0
  fault : Option FaultInfo := none
  /-- that fault has been raised: TRET has the generator retry the element -/
  raised : Bool := false
  peerSlot : Nat := 0
  peerReg : Nat := 0
  /-- conditions of fences (R226), each with the number of appends that it does not hold back -/
  conds : List (Nat × Cond) := []
  /-- requests sent for the next elements or appends, each with one of the core's 128 stream trackers (R198, R216; log entry 24) -/
  asked : Nat := 0
  /-- the number of the binding among those of its core -/
  num : Nat := 0
  /-- appends written before an older one was (R206), by their number -/
  wrote : List Nat := []
  deriving DecidableEq, Repr, Inhabited

/-- A bundle (R24): the PC of its first slot, its instructions, and, in a follow buffer, the bellwether's
next PC and whether its branch was taken. -/
structure Bundle where
  pc : Word
  first : Instr
  second : Option Instr := none
  out : Option (Word × Bool) := none
  /-- the second instruction of a pair has no assigned OP and SUB (R82 step 5) -/
  bad2 : Bool := false
  /-- an entry PC whose TMASK bit is clear (R68) -/
  entryBad : Bool := false
  /-- the bundle parked before any effect and is resumed (R6) -/
  rerun : Bool := false
  /-- of one that is resumed: EFMT at its issue, by which it still reads its TY (R155) -/
  efmt : Word := 0
  /-- of one that is resumed: FLAGS as its issue read them, the registers that it has read, a predicate under 96 and up, and the
  timestamp that their fills brought (R6, R119) -/
  flags : Word := 0
  vals : List (Nat × VReg) := []
  rts : Nat := 0
  deriving DecidableEq, Repr, Inhabited

/-- A vector load or store whose units are performed one by one (R211): the instruction, whether it stores, the units to come
with their offset or element, address and place, the values by offset or element, the thread's running clock, and its effects. -/
structure VecRun where
  instr : Instr
  store : Bool
  n : Nat
  hint : Nat
  todo : List (Nat × Nat × Loc)
  vals : List (Nat × Nat)
  pts : Nat
  eff : Eff
  deriving DecidableEq, Repr

/-- Where a station was routed (R318). -/
inductive Place where
  | core (c : Nat)
  | fold (f : Nat)
  | pasture (p : Nat)
  deriving DecidableEq, Repr, Inhabited

/-- A capsule in flight or spilled: bay bytes 0-8,447 (R315), its timestamp (R320), the place it is routed to, and a core
a re-routing excludes (R329). -/
structure Capsule where
  data : BitVec 67584
  ts : Nat
  place : Place
  exclude : Option Nat := none
  /-- the device that it is still to come from, held there for want of a route (R367) -/
  src : Option Nat := none
  deriving DecidableEq, Repr

/-- A thread slot (R115). -/
structure Slot where
  g : Vector Word 64
  v : Vector VReg 32
  p : Vector PReg 8
  /-- full/empty bits: bit n for g n, bit 64+n for v n -/
  fe : BitVec 96
  holders : List (Nat × Held)
  /-- timestamps of filled values not yet read (R119) -/
  fillTs : List (Nat × Nat)
  ports : List (Nat × Port)
  pc : Word
  flags : Word
  efmt : Word
  pts : Nat
  ready : Bool
  /-- write timestamp of the latest store that set READY (R137) -/
  readyTs : Nat
  st : SlotState
  wait : Option Wait
  /-- register effects whose reply travels -/
  reply : Option Eff
  lastIssue : Option Nat
  /-- a TSTOP waits for the slot: it stops at its next instruction boundary (R131) -/
  stopReq : Bool
  /-- the code line a fetch stall waits for (R122) -/
  fetchWait : Option Nat
  /-- the PC is a start PC whose target check is still to be made, or has failed (R68) -/
  entry : Bool
  /-- the bellwether core while FOLLOW is set, or while FLW waits, and the ac at which FLW parked -/
  bell : Option Nat
  flwSince : Nat
  followBuf : List Bundle
  /-- the bay of the capsule the slot holds (R314) -/
  hold : Option Nat
  near : Nat
  posted : List (Nat × Nat)
  /-- substitute register, valid when present (R376) -/
  subst : Option Slot96
  /-- the channel core, context and live mask of a thread that is away or was shipped back by a fault (R277, R279) -/
  reloc : Option (Nat × Nat × BitVec 48)
  /-- XMIG waits for a free context, on this channel core -/
  shipTo : Option Nat
  /-- the bundle that parked before any effect, resumed when its condition holds (R6, R26) -/
  again : Option Bundle
  /-- the ac from which the thread may issue after a reply, a line or a lock's clearing (R26, R122) -/
  wakeAt : Nat
  /-- a vector access under way unit by unit (R211) -/
  vec : Option VecRun
  /-- the device that the reply of its latest access comes from (R367; log entry 88) -/
  peer : Option Nat
  /-- the routed capsule of a CAPNEW, or of a CAPNEXT and its bay, that waits for the transit store (R322, R324) -/
  outgoing : Option (Capsule × Option Nat)
  /-- the bundle at its PC went HELD and has been copied to its followers (R122, R126) -/
  told : Bool
  /-- its latest branch was taken (R126) -/
  taken : Bool
  deriving DecidableEq, Repr

/-- A slot as placement leaves it: registers 0 and full, IDLE (R20, R115). -/
def Slot.initial : Slot :=
  { g := Vector.replicate 64 0, v := Vector.replicate 32 0, p := Vector.replicate 8 0, fe := BitVec.allOnes 96,
    holders := [], fillTs := [], ports := [], pc := 0, flags := 0, efmt := 0, pts := 0, ready := false, readyTs := 0,
    st := .idle, wait := none, reply := none, lastIssue := none, stopReq := false,
    fetchWait := none, entry := false, bell := none,
    flwSince := 0, followBuf := [], hold := none, near := 0, posted := [], subst := none, reloc := none, shipTo := none,
    again := none, wakeAt := 0, vec := none, peer := none, outgoing := none, told := false, taken := false }

/-- A message of an inbox (R293) with its timestamp. -/
structure Msg where
  data : Line
  ts : Nat
  deriving DecidableEq, Repr, Inhabited

/-- A message in flight to an inbox (R294), with its parked sender. -/
structure MsgFlight where
  core : Nat
  msg : Msg
  sender : Option (Who × BitVec 8 × Eff)
  deriving DecidableEq, Repr

/-- Bay states (R314). -/
inductive BayState where
  | free | incoming | waiting | held
  deriving DecidableEq, Repr, Inhabited

/-- A capsule bay; its bytes are those of its scratch positions (R315). `order` counts deliveries. -/
structure Bay where
  st : BayState := .free
  holder : Nat := 0
  ts : Nat := 0
  order : Nat := 0
  assigned : Option Nat := none
  /-- the record of its holder's fault, while the capsule is FAULTED (R328) -/
  record : Option FaultRec := none
  /-- the capsule's own timestamp (R320) -/
  capTs : Nat := 0
  /-- the handler entry as it stood when a waiter was assigned (R319, R337) -/
  handler : Word := 0
  deriving DecidableEq, Repr, Inhabited

/-- A task deque entry (R302). -/
structure Task where
  pc : Word
  frame : Word
  ts : Nat
  deriving DecidableEq, Repr, Inhabited

/-- A leased copy of a line in an L1 (R203). -/
structure L1Copy where
  ln : Nat
  data : Line
  wts : Nat
  rts : Nat
  deriving DecidableEq, Repr, Inhabited

/-- A TLB entry (R343): the launch, the level of the leaf (0 64 KiB, 1 32 MiB, 2 16 GiB), the page number at that
level, and the leaf. A core that no launch holds has address-space number 2^32 + its number. -/
structure TlbEnt where
  space : Nat
  level : Nat
  page : Nat
  leaf : Word
  deriving DecidableEq, Repr, Inhabited

/-- A weight slot of the matrix unit (R178, R186). -/
structure WSlot where
  fmt : Nat := 0
  scaled : Bool := false
  valid : BitVec 4 := 0
  sparse : BitVec 4 := 0
  reload : Bool := false
  plat : Line := 0
  platNo : Nat := 0
  origin : Word := 0
  first : Nat := 0
  count : Nat := 0
  panels : Vector (BitVec 16384) 4 := Vector.replicate 4 0
  scales : Vector (BitVec 4096) 4 := Vector.replicate 4 0
  deriving DecidableEq, Repr

/-- The kinds of unit operation (R180) with the operands read at issue. -/
inductive UnitKind where
  /-- tile, A block, scales, weight slot, panel, TY, MOD -/
  | mma (t : Nat) (a : BitVec 16384) (sc : BitVec 16384) (slot panel ty : Nat) (mod : BitVec 6)
  /-- D byte, origin, plat number, plat record, weight slot, first panel, count -/
  | wbld (d : BitVec 8) (org : Word) (no : Nat) (plat : Line) (slot first count : Nat)
  | wbinv (mask : BitVec 16)
  | mload (t : Nat) (org : Word) (plat : Line)
  /-- tile, TY, origin, plat record, the four operand registers, zout -/
  | mdrain (t ty : Nat) (org : Word) (plat : Line) (rows cols mult shift : VReg) (zout : BitVec 8)
  deriving DecidableEq, Repr

/-- One element that MDRAIN writes: its place, the bytes of its unit, its first bit there, its width and its bits. -/
structure UnitWrite where
  loc : Loc
  n : Nat
  shift : Nat
  width : Nat
  v : Nat
  deriving DecidableEq, Repr, Inhabited

/-- A unit of a plat or a scale byte that a path is to write: its address, its bytes, the field in it, the value. -/
structure PlatUnit where
  va : Nat
  n : Nat
  shift : Nat
  width : Nat
  v : Nat
  deriving DecidableEq, Repr, Inhabited

/-- An accepted unit operation: its number, issuing slot, PTS at issue, what it waits for (R226), the take sources. -/
structure UnitOp where
  num : Nat
  slot : Nat
  pts : Nat
  conds : List Cond
  eff : Eff
  kind : UnitKind
  /-- the greatest timestamp of what it has read or written so far (R182, R197) -/
  mark : Nat := 0
  /-- the elements that it has read so far, and their scales (R197) -/
  got : List Nat := []
  scs : List Nat := []
  /-- of an MDRAIN whose every line has been checked: the lines still to be written (R180, R197) -/
  left : Option (List (List UnitWrite)) := none
  deriving DecidableEq, Repr

/-- A copy-engine command (R219): kind 0 CPY, 1 MCAST, 2 RFILL, with the core and the issue number of its instruction, its plat
records and its completion word. -/
structure CopyCmd where
  kind : Nat
  core : Nat
  num : Nat
  slot : Nat
  pc : Word
  src : Line
  dst : Line
  aval : Word
  bval : Word
  imm : Nat
  word : Option (Word × Word)
  pts : Nat
  conds : List Cond
  deriving DecidableEq, Repr, Inhabited

/-- An entry of the copy-engine queue: a command, or a chain walk from a descriptor (R223). -/
inductive CopyEntry where
  | cmd (c : CopyCmd)
  | walk (desc : Word) (slot : Nat) (pc : Word) (pts : Nat) (conds : List Cond)
  deriving DecidableEq, Repr

/-- One element, or one scale byte, that a command copies: its coordinates in the source and in the destination. -/
structure CopyItem where
  scale : Bool
  src : List Nat
  dst : List Nat
  /-- what has been read for it -/
  val : Option Nat := none
  deriving DecidableEq, Repr, Inhabited

/-- A chunk (R224): a 64-byte destination line, or one target of MCAST or RFILL, named by its place in the fold; and the items still to
be written. -/
structure Chunk where
  target : Option Nat
  items : List CopyItem
  deriving DecidableEq, Repr, Inhabited

/-- A command under way: the chunks not yet written, the number written, the greatest write timestamp of what an RFILL has read, and of what
has been written, and whether it is a record of the walk; `sent` of the chunks, the first ones, are requested,
each with one of the core's 256 copy trackers (R198). -/
structure CopyRun where
  cmd : CopyCmd
  chunks : List Chunk
  sent : Nat := 0
  doneChunks : Nat
  readMark : Nat := 0
  mark : Nat
  walk : Bool
  deriving DecidableEq, Repr

/-- A chain walk under way (R223): the descriptor, the record it is at, whether that record is still to be started, the
slot and PC of the CPYC that placed the walk, and its PTS. -/
structure Walk where
  desc : Word
  atRec : Word
  fresh : Bool
  slot : Nat
  pc : Word
  pts : Nat
  deriving DecidableEq, Repr, Inhabited

/-- What the commons remembers of a record that a CPYC appended (R223): the address space and address of the record, and
the core, issue number, slot, PC, PTS and fences of the CPYC. -/
structure ChainRec where
  space : Nat
  va : Word
  core : Nat
  num : Nat
  slot : Nat
  pc : Word
  pts : Nat
  conds : List Cond
  deriving DecidableEq, Repr, Inhabited

/-- A core (R14). -/
structure Core where
  launch : Option Nat
  ordinal : Nat
  nslots : Nat
  /-- physical address of the root page table of its address space (R340) -/
  root : Nat
  /-- pre-empted: its state is that of its save area (R378, R380) -/
  saved : Bool
  slots : Vector Slot 16
  lastSlot : Nat
  tiles : Vector (BitVec 32768) 8
  /-- tile tags: set for i32 (R178) -/
  tags : BitVec 8
  pend : Vector Nat 8
  wslots : Vector WSlot 16
  mq : List UnitOp
  mrun : Option UnitOp
  mnext : Nat
  /-- scratchpad bytes by window offset (R199, R200) -/
  scr : Memory
  scrPages : Nat
  /-- timestamp pairs wts, rts of page positions (R198) -/
  pageTs : List (Nat × (Nat × Nat))
  launchTs : Nat
  /-- pinned page positions, the most recently used first (R200) -/
  pinned : List Nat
  /-- watched words: word index and owner (R136) -/
  watch : List (Nat × Nat)
  l1 : List L1Copy
  l1i : List (Nat × Line)
  tlb : List TlbEnt
  cq : List CopyEntry
  crun : Option CopyRun
  /-- later commands whose data overlaps that of the one that completes next (R219), in order of acceptance -/
  cover : List CopyRun
  /-- skew events at its scratchpad that Evoven Resident has still to be told of (R366) -/
  skewDue : Nat
  cwalk : Option Walk
  chalted : Bool
  eseq : Nat
  /-- E(k) of completions (R219), newest first -/
  emarks : List (Nat × Nat)
  /-- the number of the core's last copy command, and the greatest write timestamps of those completed, of stream writes
  and of matrix drains (R206, R226) -/
  copyNext : Nat
  cmark : Nat
  smark : Nat
  mmark : Nat
  /-- that of the FDOUTs that its slots issued, completed (R226) -/
  fdmark : Nat
  /-- streams bound so far, by which a binding is known -/
  bindNext : Nat
  /-- FENCEX in force, by class2 (R226) -/
  fences : List (Nat × List Cond)
  keyNext : Nat
  nearNext : Nat
  inbox : List Msg
  heldMsgs : List MsgFlight
  spill : List Msg
  deque : List Task
  dequeTs : Nat
  foldCursor : Nat
  pastCursor : Nat
  bays : Vector Bay 2
  capOrder : Nat
  capWaiters : List Nat
  capSpill : List Capsule
  waitingRecs : List FaultRec
  timer : Nat
  period : Nat
  event : Word
  expiries : Nat
  expired : Bool
  ctrs : Vector Nat 8
  ctrCfg : Vector Word 8
  fixed : Vector Nat 14
  /-- a fault of slot 0, or a debug break, that is to leave the core (R375, R376) -/
  escal : List FaultRec
  /-- slots that such a fault stopped, which RESM lets run again -/
  broke : List Nat
  /-- PRMT, an escalation or an abort has stopped the issue of bundles (R378 step 1, R23) -/
  stopping : Bool
  /-- usable physical register banks (R388 selector 1) -/
  banks : BitVec 16
  reserve : BitVec 16
  deriving DecidableEq, Repr

/-- A core that no launch holds: every item as placement leaves it, no slot started. -/
def Core.initial : Core :=
  { launch := none, ordinal := 0, nslots := 16, root := 0, saved := false, slots := Vector.replicate 16 Slot.initial,
    lastSlot := 15, tiles := Vector.replicate 8 0, tags := 0, pend := Vector.replicate 8 0,
    wslots := Vector.replicate 16 {}, mq := [], mrun := none, mnext := 0, scr := [], scrPages := 0, pageTs := [],
    launchTs := 0, pinned := List.range' 1016 8, watch := [], l1 := [], l1i := [], tlb := [], cq := [], crun := none, cover := [], skewDue := 0, cwalk := none,
    chalted := false, eseq := 0, emarks := [], copyNext := 0, cmark := 0, smark := 0, mmark := 0, fdmark := 0, bindNext := 0, fences := [], keyNext := 0, nearNext := 0, inbox := [], heldMsgs := [],
    spill := [], deque := [], dequeTs := 0, foldCursor := 0, pastCursor := 0, bays := Vector.replicate 2 {},
    capOrder := 0, capWaiters := [], capSpill := [], waitingRecs := [], timer := 0, period := 0, event := 0,
    expiries := 0, expired := false, ctrs := Vector.replicate 8 0, ctrCfg := Vector.replicate 8 0,
    fixed := Vector.replicate 14 0, escal := [], broke := [], stopping := false, banks := 0xFFFF, reserve := 0 }

/-- A line that a cache slice holds (R198): its timestamp pair, and whether it was modified since it was filled. -/
structure LineSt where
  wts : Nat
  rts : Nat
  dirty : Bool
  deriving DecidableEq, Repr, Inhabited

/-- A field command (R233). -/
inductive FieldKind where
  | mode (m : Nat) (core slot : Nat) (eff : Eff) (d : BitVec 8)
  | fin (plat : Line) (org : Word) (l0 row srow : Nat)
  | fout (plat : Line) (org : Word) (l0 row srow : Nat)
  /-- SUB, TY, MOD and the format F fields -/
  | op (sub : Nat) (f : FmtF)
  deriving DecidableEq, Repr

/-- A field command in the queue: its issuer, ticket, PC and PTS at issue, and what it waits for. -/
structure FieldCmd where
  core : Nat
  slot : Nat
  pc : Word
  ticket : Nat
  pts : Nat
  conds : List Cond
  kind : FieldKind
  deriving DecidableEq, Repr

/-- The field command under way: the next lane of an FDIN or FDOUT, and the greatest write timestamp so far. -/
structure FieldRun where
  cmd : FieldCmd
  /-- the first lane not yet done -/
  lane : Nat
  mark : Nat
  /-- the lines, by virtual address, that an FDOUT has written -/
  done : List Nat := []
  /-- the cycle in which an operation's row cycles have passed (R240) -/
  due : Nat := 0
  deriving DecidableEq, Repr

/-- A fold's copy of a map-table entry (R250): physical address of the region, key and value widths, L and S. -/
structure MapCopy where
  region : Nat
  keyw : Nat
  valw : Nat
  level : Nat
  s : Nat
  deriving DecidableEq, Repr, Inhabited

/-- A map operation as it reaches an agent (R255): kind 0 KPRB, 1 KINS, 2 KUPS, 3 KDEL, 4 KITER (with the cursor as
`x`), 5 KCLR; lanes of the vector forms are operations of their own. -/
structure MapOp where
  kind : Nat
  comb : Nat
  signed : Bool
  key : BitVec 128
  x : Word
  deriving DecidableEq, Repr, Inhabited

/-- What an operation returns: value, key and next cursor (KITER), map status. -/
structure MapAns where
  val : Word
  key : BitVec 128 := 0
  cursor : Word := 0
  ms : Nat
  deriving DecidableEq, Repr, Inhabited

/-- What becomes of the answers to a map instruction. -/
inductive MapShape where
  | scalar (d : BitVec 8)
  | vector (d b : BitVec 8) (n : Nat)
  | iter (d : BitVec 8) (keyw : Nat)
  /-- KCLR: the entries removed -/
  | count (d : BitVec 8)
  /-- a posted upsert, by its number on its core and its map number (R258) -/
  | posted (num mapNo : Nat)
  deriving DecidableEq, Repr

/-- A request in a map agent's queue: the issuer, its PTS at issue, the map, the operations still to serve, each with the
group it is sent to, the answers so far, and the greatest timestamp they carry. -/
structure MapReq where
  who : Who
  pts : Nat
  region : Nat
  ops : List (Nat × MapOp)
  done : List MapAns
  ts : Nat
  shape : MapShape
  eff : Eff
  /-- it reached its agent while a KCLR of the map was in progress (R263) -/
  busy : Bool := false
  deriving DecidableEq, Repr

/-- A request in a queue controller's queue, with the operands read at issue (R302, R307). -/
inductive QueueOp where
  | spawn (child frame succ : Word) (d : BitVec 8)
  | tnext (d : BitVec 8)
  /-- a look of TNEXT at the first of the deques still to be looked at: those of the fold, then those of the pasture (R305) -/
  | look (d : BitVec 8) (fold past : List Nat)
  | steal (victim : Nat) (d : BitVec 8)
  | qpub (hdr : Word) (val : Word) (pri : Nat) (d : BitVec 8)
  | qclm (hdr : Word) (nw : Bool) (d : BitVec 8)
  | qstat (hdr : Word) (d : BitVec 8)
  deriving DecidableEq, Repr

/-- A queue-controller request: issuer, PTS, the register effects fixed at issue, the operation. -/
structure QueueReq where
  who : Who
  pts : Nat
  eff : Eff
  op : QueueOp
  deriving DecidableEq, Repr

/-- A claim waiting at a queue controller (R308): the queue's header at its physical address. -/
structure Claim where
  who : Who
  hdr : Nat
  d : BitVec 8
  pts : Nat
  eff : Eff
  deriving DecidableEq, Repr

/-- A fold (R14): its cache slice, field, map agent and queue controller. -/
structure Fold where
  launch : Option Nat
  /-- lines the slice holds, by physical line number -/
  lines : List (Nat × LineSt)
  evict : Nat
  greatest : Nat
  skew : Nat
  ways : Nat
  qways : Nat
  /-- field lanes: the rows of every lane not listed, and the listed lanes (R231) -/
  laneBase : BitVec 256
  lanes : List (Nat × BitVec 256)
  fq : List FieldCmd
  frun : Option FieldRun
  facc : Nat
  fseq : Nat
  gmark : Nat
  gmarks : List (Nat × Nat)
  /-- FIV, FSAT, FUF, FNX in bits 3 to 0 (R238) -/
  fflags : BitVec 4
  fhalted : Bool
  plats : List (Nat × Line)
  maps : List (Nat × MapCopy)
  /-- the map agent's queue, 64 requests at most, and the requests that wait for it in the routers (R255) -/
  agentQ : List MapReq
  agentWait : List MapReq
  qctlQ : List QueueReq
  claims : List Claim
  l2i : List (Nat × Line)
  tlb : List TlbEnt
  /-- the spare core of the fold stands in for this core (R402) -/
  spare : Option Nat
  /-- corrections of the slice, which only Evoven Resident reads (R403) -/
  ecc : Nat
  deriving DecidableEq, Repr

/-- A fold that no launch holds. -/
def Fold.initial : Fold :=
  { launch := none, lines := [], evict := 0, greatest := 0, skew := 0, ways := 0, qways := 0, laneBase := 0, lanes := [],
    fq := [], frun := none, facc := 0, fseq := 0, gmark := 0, gmarks := [], fflags := 0, fhalted := false, plats := [],
    maps := [], agentQ := [], agentWait := [], qctlQ := [], claims := [], l2i := [], tlb := [], spare := none, ecc := 0 }

/-- A pending miss of a die (R343): the address space, the 64 KiB page, the root of the walk, the pasture whose walkers serve it,
and whether one of them has begun. -/
structure Miss where
  space : Nat
  page : Nat
  root : Nat
  pasture : Nat
  walking : Bool
  deriving DecidableEq, Repr, Inhabited

/-- A die (R14): L3-I, last-level TLB (32 MiB and 16 GiB pages apart), pending misses (R331) and the gateway block queue (R309). -/
structure Die where
  l3i : List (Nat × Line)
  tlb : List TlbEnt
  tlbG : List TlbEnt
  misses : List Miss
  gwq : List (Nat × Word)
  gwNext : Nat
  gwTs : Nat
  gwClaims : List Claim
  deriving DecidableEq, Repr

/-- A die at reset. -/
def Die.initial : Die := { l3i := [], tlb := [], tlbG := [], misses := [], gwq := [], gwNext := 0, gwTs := 0, gwClaims := [] }

/-- A channel core's context (R271): the thread, its live mask, its origin slot and launch (0 for none), and the window
it was counted in at its arrival. -/
structure Ctx where
  thread : Slot
  live : BitVec 48
  core : Nat
  slot : Nat
  launch : Nat
  win : Option Nat
  /-- a fault that is to ship the thread back, or its XRET (R279, R280) -/
  fault : Option FaultInfo
  returning : Bool
  deriving DecidableEq, Repr

/-- An overlay window (R276): virtual base, launch, use count, the physical lines it is loaded from, whether they have
arrived, and the lines by position. -/
structure Window where
  base : Word
  launch : Nat
  uses : Nat
  src : List Nat
  arrived : Bool
  lines : List (Nat × Line)
  deriving DecidableEq, Repr, Inhabited

/-- A near-memory packet (R281): XUPD or XNRM, its issuer and number, PTS, physical address, TY, operation, operand. -/
structure Packet where
  atMemory : Bool
  core : Nat
  slot : Nat
  num : Nat
  pts : Nat
  pa : Nat
  ty : Nat
  op : Nat
  x : Word
  conds : List Cond
  deriving DecidableEq, Repr, Inhabited

/-- A channel with its channel core (R271). A row lock is a row, the context that holds it, and the launch that took it. -/
structure Channel where
  ctxs : List (Nat × Ctx)
  lastCtx : Nat
  windows : List (Nat × Window)
  present : List Nat
  mark : Nat
  locks : List (Nat × Nat × Nat)
  deferred : List Packet
  deriving DecidableEq, Repr

/-- A channel at reset. -/
def Channel.initial : Channel :=
  { ctxs := [], lastCtx := 15, windows := [], present := [], mark := 0, locks := [], deferred := [] }

/-- An operation held at a barrier's agent (R356, R358): an arrival with its destination, or a BARW with the phase it awaits. -/
structure BarWait where
  who : Who
  d : BitVec 8 := 0
  phase : Nat := 0
  pts : Nat
  eff : Eff
  deriving DecidableEq, Repr

/-- A barrier of a launch (R354): completed phase, members with their arrival counts, arrivals with number and PTS, the
phase timestamps T(k) of completed phases, newest first, and the arrivals and BARWs that its agent holds, in order of arrival. -/
structure Barrier where
  phase : Nat
  members : List ((Nat × Nat) × Nat)
  arrivals : List (Nat × Nat)
  marks : List (Nat × Nat)
  late : List BarWait := []
  waits : List BarWait := []
  deriving DecidableEq, Repr

/-- The states of a launch (R16). -/
inductive LaunchState where
  | queued | placing | running | preempted | retiring | retired
  deriving DecidableEq, Repr, Inhabited

/-- A kernel descriptor as the dispatcher read it (R110). -/
structure Desc where
  entry : Word := 0
  folds : Nat := 1
  cores : Nat := 1
  slots : Nat := 1
  fieldways : Nat := 0
  scrpages : Nat := 1
  barriers : Nat := 0
  fused : Bool := false
  reserve : BitVec 16 := 0
  pastures : Nat := 1
  devices : Nat := 1
  nplat : Nat := 0
  nmap : Nat := 0
  nhandler : Nat := 0
  plattab : Word := 0
  maptab : Word := 0
  handtab : Word := 0
  scrimg : Word := 0
  scrsize : Nat := 0
  deriving DecidableEq, Repr, Inhabited

/-- A launch (R16), with the tables it owns (R331), its barriers (R354), transit store (R314) and park queue (R327). -/
structure Launch where
  st : LaunchState
  prio : Nat
  arrival : Nat
  raisedAt : Nat
  ring : Nat
  recAddr : Nat
  cword : Word
  devbase : Nat
  desc : Desc
  params : List Word
  launchTs : Nat
  root : Nat
  home : Nat
  folds : List Nat
  /-- free folds that it holds while it is Placing (R18) -/
  gathered : List Nat
  status : BitVec 8
  module : Option Nat
  debug : Bool
  plats : List (Nat × Line)
  maps : List (Nat × MapCopy)
  handlers : List (Nat × Word)
  hcount : Nat
  barriers : List (Nat × Barrier)
  transit : List Capsule
  park : Nat
  /-- the greatest write timestamp of the park queue's entries and header, and of contexts that an abort stopped (R21) -/
  parkMark : Nat
  /-- the launch was aborted (R23, R313) -/
  aborted : Bool
  /-- its folds are released: the cores of the placement by ordinal, as they were numbered, until it is placed again (R247, R382) -/
  released : Option (List Nat)
  deriving DecidableEq, Repr

/-- A module table entry (R345); `st` 0 FREE, 1 LOADED, 2 UNLOADING. -/
structure Module where
  base : Word := 0
  imagesize : Word := 0
  textbase : Word := 0
  textsize : Word := 0
  record : Word := 0
  use : Nat := 0
  st : Nat := 0
  debug : Bool := false
  version : BitVec 32 := 0
  units : BitVec 32 := 0
  deriving DecidableEq, Repr, Inhabited

/-- A reduction tree (R338): owner launch, TYPE, OP, ROOTREG, the nodes as (parent, slot, core), and the open round:
contributions of nodes, partials that nodes have formed, the greatest PTS, and a total ready at the root (R311). -/
structure Tree where
  owner : Nat
  ty : Nat
  op : Nat
  rootreg : Nat
  nodes : List (Nat × Nat × Nat)
  contribs : List (Nat × VReg)
  partials : List (Nat × VReg)
  ts : Nat
  total : Option VReg
  deriving DecidableEq, Repr

/-- A map descriptor (R251); `wts` is the timestamp of every group no operation has reached since KNEW or KCLR. -/
structure MapDesc where
  keyw : Nat
  valw : Nat
  hash : Nat
  level : Nat
  level0 : Nat
  splitting : Bool
  clearing : Bool
  valid : Bool
  s : Nat
  maxgroups : Nat
  threshold : Nat
  pool : Nat
  dflt : Word
  seed : Word
  /-- free overflow lines, by line index in the region -/
  freelist : List Nat
  entries : Nat
  splits : Nat
  forwards : Nat
  combined : Nat
  refused : Nat
  fulls : Nat
  wts : Nat
  deriving DecidableEq, Repr, Inhabited

/-- An entry of a map: its key and value. -/
abbrev MapEntry := BitVec 128 × Word

/-- A group of a map (R250): level, timestamp pair, its entries in storage order, and its overflow lines (by line index
in the region). -/
structure MapGroup where
  level : Nat
  wts : Nat
  rts : Nat
  entries : List MapEntry
  chain : List Nat
  deriving DecidableEq, Repr, Inhabited

/-- A map in map memory: its descriptor, the physical addresses of its region's 64 KiB pages, its groups, the timestamp of the
groups that no operation has reached, by the fold of their agent, and the map-table copies still to be updated, as (fold, launch,
entry, L, S) (R259). -/
structure KMap where
  desc : MapDesc
  pages : List Nat
  groups : List (Nat × MapGroup)
  base : List (Nat × Nat) := []
  stale : List (Nat × Nat × Nat × Nat × Nat)
  deriving DecidableEq, Repr

/-- A posted upsert in flight (R258). -/
structure Posted where
  core : Nat
  slot : Nat
  num : Nat
  mapNo : Nat
  pts : Nat
  region : Nat
  op : MapOp
  conds : List Cond
  /-- the group it is sent to, by the fold's copy (R259) -/
  grp : Nat
  /-- it stands in its agent's queue -/
  queued : Bool
  deriving DecidableEq, Repr

/-- A remote fill in flight (R119): target core, slot, register, value, timestamp, and the thread that is parked until
it is applied or held, with its effects. -/
structure FillMsg where
  core : Nat
  slot : Nat
  reg : Nat
  val : VReg
  ts : Nat
  sender : Option (Who × BitVec 8 × Eff)
  deriving DecidableEq, Repr

/-- A far message held by a gateway (R298). -/
structure FarMsg where
  commons : Nat
  core : Nat
  msg : Msg
  deriving DecidableEq, Repr

/-- An entry of the device exception queue (R375). -/
structure ExcEntry where
  record : FaultRec
  launch : Nat
  ccore : Nat
  time : Nat
  deriving DecidableEq, Repr

/-- A SYSC that waits for Evoven Resident's reply (R386); an UNMAP whose range is unmapped, with its result, also for the accesses
that R344 names. -/
structure SysReq where
  who : Who
  call : Nat
  a : Word
  b : Word
  d : BitVec 8
  eff : Eff
  result : Option Word := none
  conds : List Cond := []
  /-- the pages that Evoven Resident has free again once those hold (R344, R390) -/
  pages : List Nat := []
  deriving DecidableEq, Repr

/-- A registered launch queue (R288): the physical address of its header, its home pasture, the root page table that
Evoven Resident gives the launches of the queue (log entry 12), and the raises of TAIL and the writes of record lines with their
write timestamps (R417). -/
structure Ring where
  hdr : Nat
  pasture : Nat
  root : Nat
  tails : List (Nat × Nat) := []
  wrote : List (Nat × Nat) := []
  deriving DecidableEq, Repr, Inhabited

/-- A flash image slot (R396): digest, KEYID, and whether its signature verifies against that key. -/
structure Image where
  digest : BitVec 512 := 0
  keyid : Nat := 0
  sigOk : Bool := true
  deriving DecidableEq, Repr, Inhabited

/-- The flash's configuration record (R397): its 4,096 bytes, and its signature record's DIGEST, KEYID, and whether the
signature verifies against that key and the digest is the record's. -/
structure ConfRec where
  raw : Memory
  digest : BitVec 512
  keyid : Nat
  sigOk : Bool
  deriving DecidableEq, Repr

/-- A Jarper Link port (R399): which of the 18 lanes are good, the width it runs at (0 down), the highest rate both ends
pass (0 none), the partner's DEVID, commons and device number, whether its identity signature is valid, its route: 0
none, 1 memory, 2 message-only, and the devices of the commons that no other link leads to from that partner (R367; log
entry 86). -/
structure Link where
  good : BitVec 18 := BitVec.allOnes 18
  width : Nat := 0
  rate : Nat := 0
  partnerRate : Nat := 224
  id : BitVec 512 := 0
  commons : Nat := 0
  dev : Nat := 0
  idOk : Bool := true
  route : Nat := 0
  cut : List Nat := []
  deriving DecidableEq, Repr, Inhabited

/-- An access of the host that a poisoned line holds back (R393, R403): a write of bytes, or a read. -/
structure HostAcc where
  off : Nat
  data : Option (List Byte)
  n : Nat
  deriving DecidableEq, Repr, Inhabited

/-- The device (R14, R389-R406). -/
structure Device where
  devnum : Nat
  commons : Nat
  stage : Nat
  errcode : Nat
  winbase : Word
  excCount : Nat
  excq : List ExcEntry
  meas : Vector (BitVec 512) 4
  /-- fused signer keys: which of the eight are present, and which are revoked (R396) -/
  keys : BitVec 8
  revoked : BitVec 8
  images : Vector Image 2
  activeImage : Nat
  conf : Option ConfRec
  reqsign : Bool
  debugok : Bool
  powercap : Nat
  rowlimit : Nat
  modules : List (Nat × Module)
  trees : List (Nat × Tree)
  launches : List (Nat × Launch)
  nextLaunch : Nat
  rings : List Ring
  /-- dispatcher rotation: the ring that each pasture's dispatcher took from last (R291) -/
  ringTurn : List (Nat × Nat)
  sysThreads : Vector Slot 8
  /-- the system cores in supervisor mode (R389), which only Evoven Resident changes and no instruction reads -/
  sysSuper : BitVec 8
  /-- the system cores' own translation (R389; log entry 13), in pages of 64 KiB: the physical page of each page of their addresses
  that does not stand at itself -/
  sysPages : List (Nat × Nat)
  published : Bool
  /-- CAPA SLOTS of each device, as its Evoven Resident published it at boot (R117, R396) -/
  slotsAt : List (Nat × Nat)
  /-- place cursors of folds and pastures, by place (R314) -/
  placeCursors : List (Nat × Nat)
  /-- corrections of each stack, which only Evoven Resident reads (R403) -/
  stackEcc : List (Nat × Nat)
  hostPts : Nat
  hostReads : List (List Byte)
  /-- accesses of the host that stand behind a poisoned line, in order (R393, R403) -/
  hostHeld : List HostAcc
  hostVisible : List Nat
  aer : Nat
  msix : List Nat
  links : List (Nat × Link)
  rowErrors : List ((Nat × Nat) × Nat)
  sparedRows : List (Nat × Nat)
  laneSpares : List (Nat × Nat)
  sramSpares : List Nat
  poisoned : List Nat
  syslog : List (Nat × Nat)
  farOut : List FarMsg
  removed : Bool
  deriving DecidableEq, Repr

/-- What the outside world and Evoven Resident choose, as data (log entry 5). The lists `defer` and `stall` are consumed from
their heads and read as 0 when empty. -/
structure Env where
  /-- for each blocking operation: 1 when its reply, 2 when its request, is held back for a step of its own -/
  defer : List Nat := []
  /-- for each fetch that misses the L1-I at a turn of its wheel: 1 when its slot stalls until the line arrives -/
  stall : List Nat := []
  /-- launch queues that Evoven Resident registers when it opens them (R288, R396) -/
  rings : List Ring := []
  /-- physical addresses of 64 KiB pages that Evoven Resident has free for MAP (R390) -/
  pages : List Nat := []
  /-- physical numbers of the 64 KiB pages that Evoven Resident marks host-visible at boot (R392) -/
  visible : List Nat := []
  /-- HBM training is to fail at the next boot (R394, R396) -/
  hbmBad : Bool := false
  /-- for each translation miss of a thread's access: 1 when its walk takes steps of its own (R343) -/
  walk : List Nat := []
  /-- for each chunk of a core's copy commands which of those requested goes on next (R219, R224), for each line of a drain which
  is written next (R197), and which requested append of an output stream is (R206) -/
  pick : List Nat := []
  /-- for each ac of a wheel: 1 when the power cap gates its issue (R406) -/
  gate : List Nat := []
  /-- for each upsert that meets another to its key in the queue: 1 when the agent combines them (R256) -/
  combine : List Nat := []
  /-- far messages that other commons send to this one (R298) -/
  far : List FarMsg := []
  /-- configuration records that Evoven Resident is given to write (R397) -/
  confs : List ConfRec := []
  /-- usable register banks of the cores with faulty ones, which the next boot maps out (R396, R402) -/
  banks : List (Nat × BitVec 16) := []
  /-- pages that Evoven Resident keeps from the host: map memory and scratch backing (R392) -/
  hidden : List Nat := []
  /-- for each ac: 0, or one more than the number of an SRAM array in which an error is corrected (R403; log entry 66) -/
  fixes : List Nat := []
  deriving DecidableEq, Repr, Inhabited

/-- A step of an agent or of the outside world, as the agenda names it: the rows of the opcode table that have no encoding,
each with the arguments of its constructor of `Instr` (Machine/Run.lean says that it runs as that). -/
inductive Event where
  | bundleIssue (a : Issuer)
  | replyArrival (w : Who)
  | fetchLineArrival (w : Who)
  | followJoin (c : Nat) (k : Nat)
  | flwTimeout (c : Nat) (k : Nat)
  | remoteFillArrival (i : Nat)
  | streamElementArrival (c : Nat) (k : Nat) (r : Nat)
  | streamWriteCompletion (c : Nat) (k : Nat) (r : Nat)
  | copyCommandStart (c : Nat)
  | copyCommandCompletion (c : Nat)
  | chainWalkStep (c : Nat)
  | copyEngineFault (c : Nat)
  | matrixOpBegin (c : Nat)
  | matrixOpCompletion (c : Nat)
  | fieldCommandStart (f : Nat)
  | fieldCommandCompletion (f : Nat)
  | fieldFault (f : Nat)
  | mapRequestService (f : Nat)
  | postedUpsertApply (i : Nat)
  | splitRequest (i : Nat)
  | split (m : Nat)
  | splitPublication (m : Nat)
  | mapCopyUpdate (f : Nat) (l : Nat) (n : Nat)
  | queueRequestService (f : Nat)
  | messageArrival (i : Nat)
  | gatewayRelay (i : Nat)
  | reductionCombine (t : Nat) (n : Nat)
  | reductionTotalDelivery (t : Nat)
  | contextTake (c : Nat) (k : Nat)
  | contextFaultBack (ch : Nat) (i : Nat)
  | xretArrival (ch : Nat) (i : Nat)
  | nearPacketApply (i : Nat)
  | channelFill (ln : Nat)
  | channelEvictionNotice (ln : Nat)
  | lineEviction (ln : Nat)
  | overlayLineArrival (ch : Nat) (w : Nat)
  | capsuleDelivery (i : Nat)
  | timerExpiry (c : Nat)
  | shepherdFaultEscalation (c : Nat)
  | syscReply (i : Nat)
  | pageRefill (c : Nat) (p : Nat)
  | tlbWalkCompletion (c : Nat) (va : BitVec 64)
  | launchRecordTake (i : Nat)
  | launchPriorityRaise (l : Nat)
  | launchPlacement (l : Nat)
  | launchRetirement (l : Nat)
  | launchAbort (l : Nat) (st : BitVec 8)
  | moduleFree (m : Nat)
  | hostWrite (off : Nat) (bytes : List (BitVec 8))
  | hostRead (off : Nat) (n : Nat)
  | winbaseWrite (v : BitVec 64)
  | registerBarWrite (off : Nat) (v : BitVec 64)
  | deviceReset
  | linkBringup (port : Nat)
  | linkLaneFailure (port : Nat) (lane : Nat)
  | linkRequestRetry (i : Nat)
  | uncorrectableDataError (ln : Nat)
  | hbmRowSpare (ch : Nat) (row : Nat)
  | spareMapping (c : Nat)
  | liveFirmwareUpdate (image : BitVec 512) (keyid : Nat) (sigOk : Bool)
  | moduleRemoval
  | overTemperature
  | hbmLaneSpare (ch : Nat)
  | sramRowSpare (a : Nat)
  deriving DecidableEq, Repr, Inhabited

/-- The machine. -/
structure State where
  part : Part
  cores : List (Nat × Core)
  folds : List (Nat × Fold)
  dies : List (Nat × Die)
  channels : List (Nat × Channel)
  dev : Device
  /-- physical memory of the commons, by physical address (R341) -/
  mem : Memory
  kmaps : List (Nat × KMap)
  /-- split requests on their way to a descriptor's agent (R259): the region, and the group whose agent asks -/
  splitReqs : List (Nat × Nat)
  posted : List Posted
  chain : List ChainRec
  packets : List Packet
  fills : List FillMsg
  msgs : List MsgFlight
  far : List FarMsg
  sysc : List SysReq
  /-- the thread whose instruction is executed -/
  cur : Who
  /-- a bundle the last step issued, to be run before the step ends -/
  issue : Option Bundle
  /-- periods of the arithmetic clock since device reset (R3) -/
  ac : Nat
  /-- steps of agents and of the outside world that are to come next, in order -/
  agenda : List Event
  env : Env
  deriving DecidableEq, Repr

/-- The device at reset: the boot ROM's stage, nothing published, every table empty (R331, R394, R396). -/
def Device.initial : Device :=
  { devnum := 0, commons := 0, stage := 0, errcode := 0, winbase := 0, excCount := 0, excq := [],
    meas := Vector.replicate 4 0, keys := 0xFF, revoked := 0, images := Vector.replicate 2 {}, activeImage := 0,
    conf := none, reqsign := true, debugok := false, powercap := 2200, rowlimit := 64, modules := [], trees := [],
    launches := [], nextLaunch := 1, rings := [], ringTurn := [], sysThreads := Vector.replicate 8 Slot.initial, sysSuper := 0, sysPages := [],
    published := false, slotsAt := [], placeCursors := [], stackEcc := [], hostPts := 0, hostReads := [], hostHeld := [], hostVisible := [], aer := 0, msix := [], links := [],
    rowErrors := [], sparedRows := [], laneSpares := [], sramSpares := [], poisoned := [], syslog := [], farOut := [],
    removed := false }

/-- The machine right after device reset: stage ROM, no launch, no core placed, memory with nothing listed (R396). The
values the spec gives no reset for are named in log entry 1. -/
def State.reset : State :=
  { part := .v2, cores := [], folds := [], dies := [], channels := [], dev := Device.initial, mem := [], kmaps := [],
    splitReqs := [], posted := [], chain := [], packets := [], fills := [], msgs := [], far := [], sysc := [], cur := .slot 0 0,
    issue := none, ac := 0, agenda := [], env := {} }

/-- Why the model stops. No instruction's meaning raises one. -/
inductive Fault where
  /-- raised by `step` alone, when STATUS.STAGE is 15 (R394, R396, R406: the device has halted) and no outside event is
  on the agenda: safe, the machine goes no further until a reset -/
  | halted
  deriving DecidableEq, Repr

/-- Why an instruction has no meaning. -/
inductive Refusal where
  /-- raised by `exec` for an instruction that the model gives no meaning yet: safe -/
  | notModelled (mnemonic : String)
  deriving DecidableEq, Repr

end Sys2Proof.Machine
end

