-- ==== Sys2Proof/Machine/Ops.lean ====
section
/-! DEFINITION. The named operations over the state that every instruction shares: lists by number, memory, cores, slots
and threads, registers with their full/empty bits (R7, R75, R119, R120), state registers (R115-R117), and taking a fault
(R368-R376) with the return from one (R374). -/

namespace Sys2Proof.Machine

/-! ## Lists by number -/

/-- The entry of number `k`. -/
def aget {α : Type} : List (Nat × α) → Nat → Option α
  | [], _ => none
  | (j, x) :: l, k => if j = k then some x else aget l k

/-- The list with entry `k` set, in ascending order of number. -/
def aset {α : Type} : List (Nat × α) → Nat → α → List (Nat × α)
  | [], k, v => [(k, v)]
  | (j, x) :: l, k, v => if k < j then (k, v) :: (j, x) :: l else if k = j then (k, v) :: l else (j, x) :: aset l k v

/-- The list without entry `k`. -/
def adel {α : Type} (l : List (Nat × α)) (k : Nat) : List (Nat × α) := l.filter (·.1 != k)

/-- Element `i` of a list removed. -/
def dropAt {α : Type} : List α → Nat → List α
  | [], _ => []
  | _ :: l, 0 => l
  | x :: l, n + 1 => x :: dropAt l n

/-- The first `n` elements: what a store of bounded size keeps. -/
def capList {α : Type} (n : Nat) (l : List α) : List α := l.take n

/-! ## Memory -/

/-- The byte at an address. -/
def Memory.get : Memory → Nat → Byte
  | [], _ => Memory.blank
  | (b, x) :: m, a => if b = a then x else Memory.get m a

/-- The memory without an entry at an address. -/
def Memory.erase : Memory → Nat → Memory
  | [], _ => []
  | (b, x) :: m, a => if b = a then Memory.erase m a else (b, x) :: Memory.erase m a

/-- The memory with a nonblank byte placed at an address. -/
def Memory.insert : Memory → Nat → Byte → Memory
  | [], a, v => [(a, v)]
  | (b, x) :: m, a, v =>
    if a < b then (a, v) :: (b, x) :: m else if a = b then (a, v) :: m else (b, x) :: Memory.insert m a v

/-- The memory with one byte written, in canonical form. -/
def Memory.put (m : Memory) (a : Nat) (v : Byte) : Memory :=
  if v = Memory.blank then m.erase a else m.insert a v

/-- `n` bytes from `a`, little-endian. -/
def Memory.readNat (m : Memory) (a : Nat) : Nat → Nat
  | 0 => 0
  | n + 1 => (m.get a).toNat + 256 * Memory.readNat m (a + 1) n

/-- The low `n` bytes of `v` written from `a`, little-endian. -/
def Memory.writeNat (m : Memory) (a : Nat) : Nat → Nat → Memory
  | 0, _ => m
  | n + 1, v => Memory.writeNat (m.put a (BitVec.ofNat 8 (v % 256))) (a + 1) n (v / 256)

/-- The 64-byte line of line number `ln`. -/
def Memory.line (m : Memory) (ln : Nat) : Line := BitVec.ofNat 512 (m.readNat (64 * ln) 64)

/-! ## Cores, folds, dies, channels, launches -/

/-- Core of commons core number `c` (R118). -/
def State.core (s : State) (c : Nat) : Core := (aget s.cores c).getD Core.initial

/-- The state with a core replaced. -/
def State.setCore (s : State) (c : Nat) (x : Core) : State := { s with cores := aset s.cores c x }

/-- Fold `f` of the commons. -/
def State.fold (s : State) (f : Nat) : Fold := (aget s.folds f).getD Fold.initial

/-- The state with a fold replaced. -/
def State.setFold (s : State) (f : Nat) (x : Fold) : State := { s with folds := aset s.folds f x }

/-- Die `d` of the commons. -/
def State.die (s : State) (d : Nat) : Die := (aget s.dies d).getD Die.initial

/-- The state with a die replaced. -/
def State.setDie (s : State) (d : Nat) (x : Die) : State := { s with dies := aset s.dies d x }

/-- Channel `ch` of the commons. -/
def State.chan (s : State) (ch : Nat) : Channel := (aget s.channels ch).getD Channel.initial

/-- The state with a channel replaced. -/
def State.setChan (s : State) (ch : Nat) (x : Channel) : State := { s with channels := aset s.channels ch x }

/-- Launch `l`, when there is one. -/
def State.launch? (s : State) (l : Nat) : Option Launch := aget s.dev.launches l

/-- The state with a launch replaced. -/
def State.setLaunch (s : State) (l : Nat) (x : Launch) : State :=
  { s with dev := { s.dev with launches := aset s.dev.launches l x } }

/-- Slot `k` of a core. -/
def Core.slot (c : Core) (k : Nat) : Slot := (c.slots[k]?).getD Slot.initial

/-- The core with a slot replaced. -/
def Core.setSlot (c : Core) (k : Nat) (t : Slot) : Core := { c with slots := c.slots.setIfInBounds k t }

/-- Slot `k` of core `c`. -/
def State.slot (s : State) (c k : Nat) : Slot := (s.core c).slot k

/-- The state with a slot replaced. -/
def State.setSlot (s : State) (c k : Nat) (t : Slot) : State := s.setCore c ((s.core c).setSlot k t)

/-- The device of a core. -/
def devOf (c : Nat) : Nat := c / 4096

/-- The fold of a compute core, by its number in the commons. A gateway core stands alone, under a number no fold has. -/
def foldOf (c : Nat) : Nat := if c % 4096 < 1024 then 128 * devOf c + c % 4096 / 8 else 2 ^ 20 + c

/-- The pasture of a compute core; a gateway core is in none. -/
def pastureOf (c : Nat) : Nat := if c % 4096 < 1024 then 8 * devOf c + c % 4096 / 128 else 2 ^ 20 + c

/-- The device number under which the cores and folds of a launch stand while its folds are released (R247): no device has
it. -/
def awayDev (l : Nat) : Nat := 2 ^ 14 + l

/-- The cores of a fold. -/
def coresOf (f : Nat) : List Nat := if 2 ^ 20 ≤ f ∧ f < 2 ^ 21 then [] else (List.range 8).map fun i => 4096 * (f / 128) + 8 * (f % 128) + i

/-- Position of a number in a list. -/
def posOf (x : Nat) : List Nat → Option Nat
  | [] => none
  | y :: ys => if x = y then some 0 else (posOf x ys).map (· + 1)

/-- The cores of a placement by ordinal (R292). -/
def coresOfPlacement (folds : List Nat) (per : Nat) : List Nat :=
  folds.flatMap fun f => (coresOf f).take per

/-- A compute core number of the part (R9, R13). -/
def State.isCompute (s : State) (c : Nat) : Bool := decide (c < 1048576) && decide (c % 4096 < s.part.cores)

/-- A gateway core number of the part (R9, R13). -/
def State.isGateway (s : State) (c : Nat) : Bool :=
  decide (c < 1048576) && decide (1024 ≤ c % 4096) && decide (c % 4096 < 1024 + s.part.gateways)

/-- The die of a core or gateway core: two pastures, eight gateway cores each (R12). -/
def dieOf (c : Nat) : Nat :=
  let n := c % 4096
  4 * devOf c + (if n < 1024 then n / 256 else (n - 1024) / 8)

/-! ## The current thread -/

/-- The thread whose instruction is executed. -/
def State.thread (s : State) : Slot :=
  match s.cur with
  | .slot c k => s.slot c k
  | .ctx ch i => ((aget (s.chan ch).ctxs i).map (·.thread)).getD Slot.initial
  | .sys n => (s.dev.sysThreads[n]?).getD Slot.initial

/-- The state with that thread replaced. -/
def State.setThread (s : State) (t : Slot) : State :=
  match s.cur with
  | .slot c k => s.setSlot c k t
  | .ctx ch i =>
    match aget (s.chan ch).ctxs i with
    | some x => s.setChan ch { s.chan ch with ctxs := aset (s.chan ch).ctxs i { x with thread := t } }
    | none => s
  | .sys n => { s with dev := { s.dev with sysThreads := s.dev.sysThreads.setIfInBounds n t } }

/-- The core of the current thread: a context's is that of its origin (R273). -/
def State.myCore (s : State) : Nat :=
  match s.cur with
  | .slot c _ => c
  | .ctx ch i => ((aget (s.chan ch).ctxs i).map (·.core)).getD 0
  | .sys _ => 4096 * s.dev.devnum

/-- The number that a core's threads read as theirs: one whose folds are released still bears the number it was placed under (R118,
R273). -/
def State.namedCore (s : State) (c : Nat) : Nat :=
  if c < 2 ^ 20 then c
  else
    match s.launch? (devOf c - 2 ^ 14) with
    | none => c
    | some l =>
      match l.released, posOf c (coresOfPlacement l.folds l.desc.cores) with
      | some cs, some i => cs.getD i c
      | _, _ => c

/-- The slot number of the current thread: a context's is that of its origin (R273). -/
def State.mySlot (s : State) : Nat :=
  match s.cur with
  | .slot _ k => k
  | .ctx ch i => ((aget (s.chan ch).ctxs i).map (·.slot)).getD 0
  | .sys n => n

/-- The launch of the current thread, when it has one. -/
def State.myLaunch (s : State) : Option Nat :=
  match s.cur with
  | .slot c _ => (s.core c).launch
  | .ctx ch i => (aget (s.chan ch).ctxs i).map (·.launch)
  | .sys _ => none

/-- Whether the current thread is a system core's. -/
def State.isSys (s : State) : Bool :=
  match s.cur with
  | .sys _ => true
  | _ => false

/-- Whether the current thread is a context's. -/
def State.isCtx (s : State) : Bool :=
  match s.cur with
  | .ctx _ _ => true
  | _ => false

/-- The state with another thread current. -/
def State.as (s : State) (w : Who) : State := { s with cur := w }

/-! ## Results -/

/-- The outcome of a check made before an effect. -/
inductive Chk (α : Type) where
  | ok (a : α)
  | bad (f : FaultInfo)
  | wait (w : Wait)
  deriving Repr

/-- The check `f` after `c`. -/
def Chk.bind {α β : Type} (c : Chk α) (f : α → Chk β) : Chk β :=
  match c with
  | .ok a => f a
  | .bad x => .bad x
  | .wait w => .wait w

/-- A check applied to each element in order. -/
def Chk.all {α β : Type} (f : α → Chk β) : List α → Chk (List β)
  | [] => .ok []
  | x :: xs => (f x).bind fun y => (Chk.all f xs).bind fun ys => .ok (y :: ys)

/-- The outcome of an instruction's own effect (R6): a fault, which leaves nothing changed; a park before any effect,
after which the instruction issues again; its effect with what it does to its thread's registers; or a request that is
accepted and whose completion is an agent's step, the thread being parked meanwhile. -/
inductive Res where
  | fault (f : FaultInfo)
  | park (w : Wait)
  | done (s : State) (e : Eff)
  | sent (s : State) (w : Wait)

/-- A check, then an effect. -/
def Chk.res {α : Type} (c : Chk α) (f : α → Res) : Res :=
  match c with
  | .ok a => f a
  | .bad x => .fault x
  | .wait w => .park w

/-- A fault of a step with an operand. -/
def stepFault (code : FaultCode) (step opnd : Nat) : FaultInfo := { code := code, step := step, opnd := opnd }

/-- A fault of step 10 with an operand (R371). -/
def flt (code : FaultCode) (opnd : Nat := 0) (acc : Nat := 0) (addr : Nat := 0) : FaultInfo :=
  { code := code, opnd := opnd, acc := acc, addr := BitVec.ofNat 64 addr }

/-! ## Program counters (R65-R67) -/

/-- The linear slot number of a PC. -/
def linear (pc : Word) : Nat := (pc.toNat / 64) * 5 + pc.toNat % 8

/-- The PC of a linear slot number. -/
def pcOf (n : Nat) : Word := BitVec.ofNat 64 ((n / 5) * 64 + n % 5)

/-- A 57-bit canonical address (R65, R199). -/
def canonical (a : Nat) : Bool := decide (a < 2 ^ 56) || (decide (2 ^ 64 - 2 ^ 56 ≤ a) && decide (a < 2 ^ 64))

/-- A slot address (R65). -/
def isSlotAddr (pc : Word) : Bool :=
  canonical pc.toNat && pc.toNat / 8 % 8 == 0 && decide (pc.toNat % 8 < 5)

/-- The slot after `n` slots that begin at a PC (R66). -/
def succPc (pc : Word) (n : Nat) : Word :=
  if pc.toNat % 8 + n < 5 then pc + BitVec.ofNat 64 n else (pc &&& ~~~(0x3F : Word)) + 64

/-! ## Registers of a slot -/

/-- g register `n`. -/
def Slot.gr (t : Slot) (n : Nat) : Word := (t.g[n]?).getD 0

/-- v register `n`. -/
def Slot.vr (t : Slot) (n : Nat) : VReg := (t.v[n]?).getD 0

/-- p register `n`. -/
def Slot.pr (t : Slot) (n : Nat) : PReg := (t.p[n]?).getD 0

/-- The port bound to register `r` (0-63 g, 64-95 v). -/
def Slot.port (t : Slot) (r : Nat) : Option Port := aget t.ports r

/-- Whether a port is an input end (R120). -/
def Port.isIn (p : Port) : Bool := p.kind == .input || p.kind == .qrecv

/-- The value of register `r` as it stands, a g register zero-extended. -/
def Slot.reg (t : Slot) (r : Nat) : VReg := if r < 64 then (t.gr r).setWidth 2048 else t.vr (r - 64)

/-- Register `r` set, its full/empty bit untouched. -/
def Slot.setReg (t : Slot) (r : Nat) (x : VReg) : Slot :=
  if r < 64 then { t with g := t.g.setIfInBounds r (x.setWidth 64) }
  else { t with v := t.v.setIfInBounds (r - 64) x }

/-- Bit `n` of a 96-bit word set or cleared. -/
def setBit96 (x : BitVec 96) (n : Nat) (b : Bool) : BitVec 96 :=
  if b then x ||| BitVec.twoPow 96 n else x &&& ~~~(BitVec.twoPow 96 n)

/-- Register `r` written and filled (WRITE of R7). -/
def Slot.fill (t : Slot) (r : Nat) (x : VReg) : Slot :=
  let t := t.setReg r x
  { t with fe := setBit96 t.fe r true, fillTs := adel t.fillTs r }

/-- Register `r` emptied; a held fill enters at once (R119). -/
def Slot.empty (t : Slot) (r : Nat) : Slot :=
  match aget t.holders r with
  | some h =>
    let t := t.setReg r h.val
    { t with fe := setBit96 t.fe r true, holders := adel t.holders r, fillTs := aset t.fillTs r h.ts }
  | none => { t with fe := setBit96 t.fe r false, fillTs := adel t.fillTs r }

/-- Whether register `r` is full: an input end while an element waits (R120). -/
def Slot.full (t : Slot) (r : Nat) : Bool :=
  match t.port r with
  | some p => if p.isIn then !p.buf.isEmpty else t.fe.getLsbD r
  | none => t.fe.getLsbD r

/-- The value of register `r`, a predicate under 96 and up, that an instruction has read which parked before any effect and is resumed:
its reads were made at its issue (R6). -/
def Slot.latched (t : Slot) (r : Nat) : Option VReg := t.again.bind fun b => aget b.vals r

/-- The value a read of register `r` sees: the element an input end pops (R120). -/
def Slot.read (t : Slot) (r : Nat) : VReg :=
  match t.latched r with
  | some x => x
  | none =>
    match t.port r with
    | some p => if p.isIn then (p.buf.head?.map (·.val)).getD 0 else t.reg r
    | none => t.reg r

/-- The value a read of p register `n` sees. -/
def Slot.readP (t : Slot) (n : Nat) : PReg :=
  match t.latched (96 + n) with
  | some x => x.setWidth 256
  | none => t.pr n

/-- FLAGS as the thread's instruction reads them: those of its issue (R6). -/
def Slot.seenFlags (t : Slot) : Word := (t.again.map (·.flags)).getD t.flags

/-- FOLLOW (R117). -/
def Slot.follow (t : Slot) : Bool := t.flags.getLsbD 11

/-- EFMT as the thread's instruction reads it: that of its issue, when it has parked before any effect and is resumed (R155). -/
def Slot.ety (t : Slot) : Word := (t.again.map (·.efmt)).getD t.efmt

/-- FOLLOW set or cleared. -/
def Slot.setFollow (t : Slot) (b : Bool) : Slot :=
  { t with flags := if b then t.flags ||| (0x800 : Word) else t.flags &&& ~~~(0x800 : Word) }

/-- FLAGS as a write leaves it: reserved bits 0, FOLLOW unchanged (R117, R132). -/
def flagsWritten (old new : Word) : Word := (new &&& 0x7FF) ||| (old &&& 0x800)

/-- FLAGS with MS set (R117). -/
def flagsMs (old : Word) (ms : Nat) : Word := (old &&& ~~~(0x700 : Word)) ||| (BitVec.ofNat 64 (ms % 8) <<< 8)

/-- Whether register `r` is live in a thread that is away on a channel core, so that it counts as full (R278). -/
def Slot.awayLive (t : Slot) (r : Nat) : Bool :=
  t.st == .parked && t.wait == some .near && t.shipTo.isNone && t.reply.isNone &&
    match t.reloc with
    | some (_, _, m) => decide (r < 48) && m.getLsbD r
    | none => false

/-- A remote fill of register `r` (R119, R278): whether it was taken, and the slot. -/
def Slot.remoteFill (t : Slot) (r : Nat) (x : VReg) (ts : Nat) : Option Slot :=
  if !t.full r && !t.awayLive r then
    let t := t.fill r x
    some { t with fillTs := aset t.fillTs r ts }
  else if (aget t.holders r).isSome then none
  else some { t with holders := aset t.holders r { val := x, ts := ts } }

/-- A fill to a g register keeps 64 bits, one to a v register VW bits. -/
def State.vmask (s : State) (x : VReg) : VReg :=
  if s.part.vw = 2048 then x else x &&& (BitVec.allOnes 2048 >>> (2048 - s.part.vw))

/-! ## Ports: pops and appends (R120, R216) -/

/-- The elements a register-sized element of a port holds: 1 for a g register, n for a v register (R216). -/
def State.perPop (s : State) (r : Nat) (p : Port) : Nat := if r < 64 then 1 else lanes s.part.vw p.ty

/-- Register `r` popped. -/
def State.popPort (s : State) (t : Slot) (r : Nat) : Slot :=
  match t.port r with
  | some p => { t with ports := aset t.ports r { p with buf := p.buf.tail, done := p.done + s.perPop r p } }
  | none => t

/-- Whether an output end is full: 8 appends not yet written (R216), or 4 elements in the sibling queue (R120). -/
def State.outFull (s : State) (c : Nat) (t : Slot) (r : Nat) : Bool :=
  match t.port r with
  | some p =>
    match p.kind with
    | .output => decide (8 ≤ p.buf.length - p.wrote.length)
    | .qsend =>
      match (s.slot c p.peerSlot).port p.peerReg with
      | some q => decide (4 ≤ q.buf.length)
      | none => false
    | _ => false
  | none => false

/-- A value appended at an output end of the current thread, with its PTS (R120, R216). -/
def State.append (s : State) (r : Nat) (x : VReg) : State :=
  let t := s.thread
  match t.port r with
  | some p =>
    match p.kind with
    | .qsend =>
      let c := s.myCore
      let u := s.slot c p.peerSlot
      match u.port p.peerReg with
      | some q => s.setSlot c p.peerSlot { u with ports := aset u.ports p.peerReg { q with buf := q.buf ++ [⟨x, t.pts⟩] } }
      | none => s
    | _ =>
      s.setThread { t with ports := aset t.ports r { p with buf := p.buf ++ [⟨x, t.pts⟩], done := p.done + s.perPop r p } }
  | none => s

/-! ## Performance counters (R361, R363) -/

/-- Fixed counter `i` of a core raised by `n`; none counts while the core is saved (R354). -/
def Core.addFixed (c : Core) (i n : Nat) : Core :=
  if c.saved then c else { c with fixed := c.fixed.setIfInBounds i ((c.fixed[i]?).getD 0 + n) }

/-- Whether the configuration word of a counter selects event `ev` of slot `k` (R363). -/
def ctrSelects (cfg : Word) (ev k : Nat) : Bool :=
  let slots := (cfg.extractLsb' 8 16)
  let filtered := (1 ≤ ev && ev ≤ 7) || ev == 9 || ev == 10 || ev == 11 || ev == 13
  (cfg.extractLsb' 0 8).toNat == ev && (!filtered || slots == 0 || slots.getLsbD k)

/-- Event `ev` of slot `k` counted in the programmable counters of a core that select it, but not while it is saved (R354). -/
def Core.count (c : Core) (ev k : Nat) : Core :=
  if c.saved then c
  else (List.range 8).foldl (fun c i =>
    if ctrSelects ((c.ctrCfg[i]?).getD 0) ev k then { c with ctrs := c.ctrs.setIfInBounds i ((c.ctrs[i]?).getD 0 + 1) }
    else c) c

/-- Event `ev` counted for the current thread, when it is a slot's. -/
def State.count (s : State) (ev : Nat) : State :=
  match s.cur with
  | .slot c k => s.setCore c ((s.core c).count ev k)
  | _ => s

/-! ## Following (R126) -/

/-- Followers of slot `k` of core `c` leave follow mode, each at the next bundle it has not executed (R126); one whose FLW is still
to complete has come to its bundle and completes it with no bellwether left. -/
def State.dropFollowers (s : State) (c k : Nat) : State :=
  (coresOf (foldOf c)).foldl (fun s x =>
    let t := s.slot x k
    if t.bell == some c && t.follow then s.setSlot x k { t.setFollow false with followBuf := [], bell := none }
    else if t.bell == some c && !t.followBuf.isEmpty then s.setSlot x k { t with bell := none }
    else s) s

/-! ## Completion (R6, R75) -/

/-- The register a write names, 0-95, or none for a predicate. -/
def Wr.reg? : Wr → Option Nat
  | .g n _ => some n
  | .v n _ => some (64 + n)
  | .p _ _ => none

/-- One write applied: to an output end it is an append (R120). -/
def State.applyWr (s : State) (w : Wr) : State :=
  let t := s.thread
  match w with
  | .p n x => s.setThread { t with p := t.p.setIfInBounds n (x &&& (BitVec.allOnes 256 >>> (256 - s.part.vw / 8))) }
  | .g n x =>
    if s.isCtx && 48 ≤ n then s
    else if (t.port n).isSome then s.append n (x.setWidth 2048) else s.setThread (t.fill n (x.setWidth 2048))
  | .v n x =>
    if (t.port (64 + n)).isSome then s.append (64 + n) (s.vmask x) else s.setThread (t.fill (64 + n) (s.vmask x))

/-- Every write in order. -/
def State.applyWrs (s : State) : List Wr → State
  | [] => s
  | w :: ws => (s.applyWr w).applyWrs ws

/-- Fill timestamps of read registers consumed, up to the timestamp `ts` that the reads brought: a fill that came since keeps its own
(R119). -/
def Slot.forgetTs (t : Slot) (ts : Nat) : List Nat → Slot
  | [] => t
  | r :: rs => Slot.forgetTs (if (aget t.fillTs r).all (· ≤ ts) then { t with fillTs := adel t.fillTs r } else t) ts rs

/-- The take sources emptied, except those the instruction also writes (R75). -/
def Slot.emptyAll (t : Slot) (written : List Nat) : List Nat → Slot
  | [] => t
  | r :: rs => (if written.contains r then t else t.empty r).emptyAll written rs

/-- The port registers popped. -/
def State.popAll (s : State) (t : Slot) : List Nat → Slot
  | [] => t
  | r :: rs => s.popAll (s.popPort t r) rs

/-- The completion of an instruction in the current thread: fill timestamps consumed, emptyings, pops, state registers, sticky
flags, PTS, writes, and the next PC. A substitute is valid no longer (R376), and the thread may issue from the next ac (R26). -/
def State.commit (s : State) (e : Eff) : State :=
  let t := s.thread.forgetTs e.pts e.seen
  let t := t.emptyAll ((e.writes.filterMap Wr.reg?).filter fun r => !e.early.contains r) e.takes.eraseDups
  let t := s.popAll t e.pops
  let fl := t.flags ||| e.sticky
  let fl := match e.ms with
    | some m => flagsMs fl m
    | none => fl
  let fl := match e.setFlags with
    | some x => flagsWritten fl x
    | none => fl
  let t := { t with flags := fl, efmt := (e.setEfmt.getD t.efmt), pts := max t.pts e.pts,
                    pc := e.pc.getD (succPc t.pc 1), wait := none, reply := none, stopReq := false,
                    again := none, vec := none, subst := none, wakeAt := s.ac + 1, told := false, taken := e.taken,
                    st := if e.ended then .ended else if t.stopReq then .stopped else .runnable }
  let s := (s.setThread t).applyWrs e.writes
  let s := if e.late.isEmpty then s else s.setThread (s.thread.emptyAll [] e.late.eraseDups)
  match s.cur with
  | .slot c k => if t.st = .runnable then s else s.dropFollowers c k
  | _ => s

/-- The W destinations of a completion that are full (R75): a take source of the instruction counts as empty. -/
def Slot.blocked (t : Slot) (e : Eff) : List Nat := e.wdest.filter fun r => (t.port r).isNone && t.full r && !e.takes.contains r

/-- A reply completes the current thread's instruction, once every W destination is empty (R75). -/
def State.land (s : State) (e : Eff) : State :=
  match s.thread.blocked e with
  | [] => s.commit e
  | rs => s.setThread { s.thread with st := .parked, wait := some (.full rs), reply := some e }

/-- The current thread parked (R26, R121), the instruction to be resumed, or under HELD to issue again. -/
def State.park (s : State) (w : Wait) : State :=
  s.setThread { s.thread with st := (match w with | .tile _ => SlotState.held | _ => SlotState.parked), wait := some w }

/-- The current thread's PTS raised to at least `ts`. -/
def State.raisePts (s : State) (ts : Nat) : State :=
  s.setThread { s.thread with pts := max s.thread.pts ts }

/-! ## Scratchpad stores made by the core itself -/

/-- Owners' ready bits set by a store of `n` bytes at offset `off` with write timestamp `ts` (R136, R137). -/
def Core.watchHit (c : Core) (off n ts : Nat) : Core :=
  c.watch.foldl (fun c w =>
    if 0 < n && 8 * w.1 < off + n && off < 8 * w.1 + 8 then
      let t := c.slot w.2
      c.setSlot w.2 { t with ready := true, readyTs := ts }
    else c) c

/-- The timestamp pair of a page position (R198). -/
def Core.pageTsOf (c : Core) (p : Nat) : Nat × Nat := (aget c.pageTs p).getD (c.launchTs, c.launchTs)

/-- Timestamps within the skew bound of a home whose greatest is `g` (R204). -/
def clampTs (g ts : Nat) : Nat := min ts (g + 2 ^ 40)

/-- A skew event at a core's scratchpad: counted, and to be reported to Evoven Resident (R361, R366). -/
def Core.skewed (c : Core) : Core := { c.addFixed 13 1 with skewDue := c.skewDue + 1 }

/-- A store of `n` bytes at offset `off` of a scratchpad under R203, by an agent whose clock is `ts`: the core and the
write timestamp. -/
def Core.scrStore (c : Core) (off n v ts : Nat) : Core × Nat :=
  let p := off / 4096
  let x := c.pageTsOf p
  let w := max (clampTs x.2 ts) (x.2 + 1)
  let c := if clampTs x.2 ts = ts then c else c.skewed
  (Core.watchHit { c with scr := c.scr.writeNat off n v, pageTs := aset c.pageTs p (w, w) } off n w, w)

/-- A load of `n` bytes under R203 at clock `ts`: the core, the value and the line's wts. -/
def Core.scrLoad (c : Core) (off n ts : Nat) : Core × Nat × Nat :=
  let p := off / 4096
  let x := c.pageTsOf p
  let c := if clampTs x.2 ts = ts then c else c.skewed
  ({ c with pageTs := aset c.pageTs p (x.1, max x.2 (clampTs x.2 ts)) }, c.scr.readNat off n, x.1)

/-! ## Poisoned scratchpad lines (R403) -/

/-- Where scratchpad lines stand among the lines that can be poisoned: past those of physical memory, core by core (log entry 66). -/
def scrLines : Nat := 2 ^ 41

/-- The number of a scratchpad line of core `c`. -/
def scrLine (c off : Nat) : Nat := scrLines + 65536 * c + off / 64

/-- The first poisoned line among the lines of `n` bytes of core `c`'s scratchpad. -/
def State.spanBad (s : State) (c off n : Nat) : Option Nat :=
  if s.dev.poisoned.isEmpty then none
  else ((List.range ((off + n + 63) / 64 - off / 64)).map fun i => scrLine c (off + 64 * i)).find? s.dev.poisoned.contains

/-- An access to `n` bytes of core `c`'s scratchpad, held by a poisoned line. -/
def State.spanClean (s : State) (c off n : Nat) : Chk Unit :=
  match s.spanBad c off n with
  | some ln => .wait (.poisoned ln)
  | none => .ok ()

/-! ## The fault queue (R370-R373) -/

/-- Offset of the fault queue page in the window (R200). -/
def frqOff : Nat := 1023 * 4096

/-- The 32 bytes of a record (R370). -/
def FaultRec.toNat (r : FaultRec) : Nat :=
  r.pc.toNat + (r.addr.toNat <<< 64) + (r.info.toNat <<< 128) + (r.code.toNat <<< 192) + (r.kind.toNat <<< 208)
    + (r.sflags.toNat <<< 216) + (r.detail.toNat <<< 224)

/-- DETAIL (R371). -/
def FaultInfo.detail (f : FaultInfo) : BitVec 32 :=
  BitVec.ofNat 32 ((f.tcode.toNat <<< 16) + (f.step <<< 8) + (f.opnd <<< 4) + f.acc)

/-- Records entered, removed and waiting, as the page holds them (R373). -/
def Core.frq (c : Core) : Nat × Nat × Nat :=
  (c.scr.readNat frqOff 8, c.scr.readNat (frqOff + 8) 8, c.scr.readNat (frqOff + 16) 8)

/-- A record written at TAIL and TAIL raised (R373). -/
def Core.placeRecord (c : Core) (r : FaultRec) (ts : Nat) : Core :=
  let q := c.frq
  let c := { c with scr := c.scr.writeNat (frqOff + 64 + 32 * (q.1 % 16)) 32 r.toNat }
  let w := c.scrStore frqOff 8 (q.1 + 1) ts
  let t := w.1.slot 0
  w.1.setSlot 0 { t with ready := true, readyTs := w.2 }

/-- A record waits in the core, counted in the queue's third word (R373). -/
def Core.holdRecord (c : Core) (r : FaultRec) (ts : Nat) : Core :=
  let w := c.scrStore (frqOff + 16) 8 (c.frq.2.2 + 1) ts
  { w.1 with waitingRecs := w.1.waitingRecs ++ [r] }

/-- A record enters the core's fault queue, or waits in the core for room (R373). -/
def Core.enterRecord (c : Core) (r : FaultRec) (ts : Nat) : Core :=
  if c.frq.1 - c.frq.2.1 < 16 then c.placeRecord r ts else c.holdRecord r ts

/-- The poisoned line that keeps the next record of core `c` from its place at TAIL (R403). -/
def State.tailBad (s : State) (c : Nat) : Option Nat := s.spanBad c (frqOff + 64 + 32 * ((s.core c).frq.1 % 16)) 32

/-- A record enters the fault queue of core `c`, or waits in the core: for room (R373), or at a poisoned line of the page (R403). -/
def State.enterRecord (s : State) (c : Nat) (r : FaultRec) (ts : Nat) : State :=
  let x := s.core c
  s.setCore c <|
    if (s.spanBad c frqOff 24).isSome then { x with waitingRecs := x.waitingRecs ++ [r] }
    else if (s.tailBad c).isSome then x.holdRecord r ts
    else x.enterRecord r ts

/-- A waiting record admitted when there is room (R373). -/
def Core.admitWaiting (c : Core) (ts : Nat) : Core :=
  let q := c.frq
  match c.waitingRecs with
  | r :: rs =>
    if q.1 - q.2.1 < 16 then
      let w := Core.scrStore { c with waitingRecs := rs } (frqOff + 16) 8 (q.2.2 - 1) ts
      w.1.placeRecord r ts
    else c
  | [] => c

/-! ## Capsule bays, as faults touch them (R314-R316, R328) -/

/-- Offset of bay `b` in the window (R315). -/
def bayOff (b : Nat) : Nat := (1016 + 3 * b) * 4096

/-- The bay that slot `k` holds, when it holds a capsule. -/
def Core.heldBay (c : Core) (k : Nat) : Option Nat := (c.slot k).hold

/-- FLAGS.FAULTED and FAULT set in a held bay's header (R328). -/
def Core.markBay (c : Core) (k : Nat) (r : FaultRec) : Core :=
  match c.heldBay k with
  | none => c
  | some b =>
    let o := bayOff b
    let fl := c.scr.readNat (o + 19) 1 ||| 2
    { c with scr := (c.scr.writeNat (o + 19) 1 fl).writeNat (o + 20) 2 r.code.toNat,
             bays := c.bays.setIfInBounds b { (c.bays[b]?).getD {} with record := some r } }

/-! ## Taking a fault (R368) and the return from one (R374) -/

/-- The record of a fault of slot `k`, with its KIND (R370-R372). -/
def FaultInfo.toRec (f : FaultInfo) (kind k : Nat) (pc : Word) (caps : Bool) (info : Word) : FaultRec :=
  { pc := pc, addr := f.addr, info := info, code := BitVec.ofNat 16 f.code.num, kind := BitVec.ofNat 8 kind,
    sflags := BitVec.ofNat 8 (k % 16 + (if f.second then 16 else 0) + (if f.ovl then 32 else 0)
      + (if caps then 64 else 0) + (if f.brk then 128 else 0)),
    detail := f.detail }

/-- A port whose held fault is raised (R216). -/
def Slot.raisePort (t : Slot) (r : Option Nat) : Slot := { t with ports := t.ports.map fun p => if some p.1 = r then (p.1, { p.2 with raised := true }) else p }

/-- A port whose raised fault is to be retried by its generator. -/
def Port.retry (p : Port) : Port := if p.raised then { p with fault := none, raised := false } else p

/-- Slot `k` of core `c` FAULTED with a record of `kind`: into the core's fault queue with slot 0's ready bit set, or, for
slot 0 (R375) and for a breakpoint of a debug launch (R376), left for the escalation. -/
def State.faultSlot (s : State) (c k : Nat) (f : FaultInfo) (kind : Nat) (info : Word) : State :=
  let t := s.slot c k
  let debug := f.brk && ((((s.core c).launch).bind s.launch?).map (·.debug)).getD false
  let caps := t.hold.isSome
  let kd := if debug then 7 else if k = 0 then 5 else kind
  let r := f.toRec kd k t.pc caps (if debug then 0 else if k = 0 then f.info else info)
  let s := s.setSlot c k { (t.setFollow false).raisePort f.port with st := .faulted, wait := none, followBuf := [], bell := none, stopReq := false, entry := false, again := none, vec := none }
  let s := s.setCore c ((s.core c).markBay k r)
  let s := if debug || k = 0 then s.setCore c { s.core c with escal := (s.core c).escal ++ [r], broke := k :: (s.core c).broke }
           else s.enterRecord c r t.pts
  s.dropFollowers c k

/-- The current thread's instruction raises a fault and has no other effect (R368); a context's is to be shipped back
(R279); a system core's belongs to Evoven Resident (R389). -/
def State.raise (s : State) (f : FaultInfo) : State :=
  match s.cur with
  | .slot c k => s.faultSlot c k f 1 f.info
  | .ctx ch i =>
    match aget (s.chan ch).ctxs i with
    | some x =>
      let x := { x with fault := some f, thread := { x.thread with st := .faulted, wait := none, entry := false, again := none, vec := none } }
      s.setChan ch { s.chan ch with ctxs := aset (s.chan ch).ctxs i x }
    | none => s
  | .sys _ => s.setThread { s.thread with st := .faulted, wait := none, entry := false, again := none, vec := none }

/-- TRET's effect on slot `k` (R131, R374): it re-executes from its state as it stands, an element fault that was raised being retried by
its generator (R216); a relocated one goes back to its channel core (R279). Its PC is checked as no target. -/
def State.returnSlot (s : State) (c k pts : Nat) : State :=
  let t := s.slot c k
  let s := match t.hold with
    | some b => let x := s.core c; s.setCore c { x with bays := x.bays.setIfInBounds b { (x.bays[b]?).getD {} with record := none } }
    | none => s
  let t := { t with pts := max t.pts pts, wait := none, again := none, entry := false, wakeAt := s.ac + 1, ports := t.ports.map fun (p : Nat × Port) => (p.1, p.2.retry) }
  match t.reloc with
  | some (ch, _, _) =>
    if t.st = .faulted then
      s.setSlot c k { t with st := .parked, wait := some .near, shipTo := some ch, stopReq := false }
    else s.setSlot c k { t with st := .runnable }
  | none => s.setSlot c k { t with st := .runnable }

end Sys2Proof.Machine
end

