-- ==== Sys2Proof/Machine/Access.lean ====
section
/-! DEFINITION. Addresses (R199-R202), translation (R340-R344), the lease timestamps at homes (R203-R205, R274), and the
accesses of the thread path and of the other paths. -/

namespace Sys2Proof.Machine

/-! ## Address classes (R199) -/

/-- First address of the local window. -/
def winBase : Nat := 0x01FFFFFFFFC00000

/-- First address of the remote aperture. -/
def apBase : Nat := 0x01FFFC0000000000

/-- The kinds of access of R371's ACC. -/
inductive Acc where
  | fetch | load | store | atomic | pathRead | pathWrite | map | near
  deriving DecidableEq, Repr, Inhabited

/-- The code of R371. -/
def Acc.code : Acc → Nat
  | .fetch => 1 | .load => 2 | .store => 3 | .atomic => 4 | .pathRead => 5 | .pathWrite => 6 | .map => 7 | .near => 8

/-- Whether an access writes. -/
def Acc.writes : Acc → Bool
  | .store | .atomic | .pathWrite | .near => true
  | _ => false

/-- Whether an access is a path's, not a thread's own. -/
def Acc.path : Acc → Bool
  | .pathRead | .pathWrite => true
  | _ => false

/-- Bytes of one stack (R341). -/
def stackBytes : Nat := 48 * 2 ^ 30

/-- A physical address that names memory (R341, R342). -/
def State.paOk (s : State) (pa : Nat) : Bool :=
  decide (pa < 2 ^ 47) && decide (pa % 2 ^ 36 < stackBytes) && decide (pa / 2 ^ 36 % 8 < s.part.pastures)

/-- The exclusive or of the 4-bit groups of a number below 2^44. -/
def xor4 (n : Nat) : Nat := (List.range 11).foldl (fun x i => x ^^^ (n / 16 ^ i % 16)) 0

/-- The exclusive or of the 3-bit groups of a number below 2^42. -/
def xor3 (n : Nat) : Nat := (List.range 14).foldl (fun x i => x ^^^ (n / 8 ^ i % 8)) 0

/-- The pasture of a physical address, by its number in the commons (R341). -/
def pasturePa (pa : Nat) : Nat := 8 * (pa / 2 ^ 39 % 256) + pa / 2 ^ 36 % 8

/-- The fold whose slice is the home of a physical line (R202). -/
def homeFold (ln : Nat) : Nat :=
  let pa := 64 * ln
  128 * (pa / 2 ^ 39 % 256) + 16 * (pa / 2 ^ 36 % 8) + xor4 ln

/-- The channel core of a physical address, by its number in the commons (R272). -/
def channelPa (pa : Nat) : Nat := 32 * pasturePa pa + ((pa / 2 ^ 8 % 32) ^^^ (pa / 2 ^ 13 % 32))

/-- The row of a physical address: the channel with PA[63:18] (R272). -/
def rowPa (pa : Nat) : Nat := pa / 2 ^ 18

/-! ## Translation (R340-R344) -/

/-- The leaf of a translation: its entry and level, 0 for 64 KiB, 1 for 32 MiB, 2 for 16 GiB. -/
structure Leaf where
  pte : Word
  level : Nat
  deriving DecidableEq, Repr, Inhabited

/-- log2 of the page size at a level. -/
def pageBits (level : Nat) : Nat :=
  match level with
  | 0 => 16 | 1 => 25 | _ => 34

/-- The index of a level of the walk (R340). -/
def walkIndex (level va : Nat) : Nat :=
  match level with
  | 3 => va / 2 ^ 45 % 4096
  | 2 => va / 2 ^ 34 % 2048
  | 1 => va / 2 ^ 25 % 512
  | _ => va / 2 ^ 16 % 512

/-- The address field of an entry. -/
def ptePa (e : Word) : Nat := (e.extractLsb' 16 31).toNat * 65536

/-- Whether a leaf entry is one a walk accepts (R342). -/
def State.leafOk (s : State) (e : Word) (level : Nat) : Bool :=
  let r := e.getLsbD 2
  let w := e.getLsbD 3
  let x := e.getLsbD 4
  let mm := e.getLsbD 5
  let sb := e.getLsbD 6
  decide (level ≤ 2) && !(w && x) && !(w && !r) && !((mm || sb) && x) && !(mm && sb)
    && ptePa e % 2 ^ pageBits level == 0 && s.paOk (ptePa e)

/-- A walk from a table at a level (R340-R342). -/
def State.walkFrom (s : State) (va : Nat) : Nat → Nat → Option Leaf
  | level, table =>
    let e : Word := BitVec.ofNat 64 (s.mem.readNat (table + 8 * walkIndex level va) 8)
    let valid := e.getLsbD 0 && e.extractLsb' 47 17 == 0 && e.extractLsb' 7 9 == 0 && s.paOk (ptePa e)
    if !valid then none
    else if e.getLsbD 1 then (if s.leafOk e level then some ⟨e, level⟩ else none)
    else
      match level with
      | 0 => none
      | l + 1 => State.walkFrom s va l (ptePa e)

/-- The number that TLB entries carry for an address space: its launch (R343). -/
def State.space (s : State) (w : Who) : Nat :=
  match w with
  | .slot c _ => ((s.core c).launch).getD (2 ^ 32 + c)
  | .ctx ch i => match aget (s.chan ch).ctxs i with
    | some x => if x.launch = 0 then 2 ^ 32 + x.core else x.launch
    | none => 0
  | .sys _ => 0

/-- The root table of a thread's address space (R340). -/
def State.rootOf (s : State) (w : Who) : Nat :=
  match w with
  | .slot c _ => (((s.core c).launch).bind s.launch?).elim (s.core c).root (·.root)
  | .ctx ch i => match aget (s.chan ch).ctxs i with
    | some x => (s.launch? x.launch).elim (s.core x.core).root (·.root)
    | none => 0
  | .sys _ => 0

/-- The core whose TLBs serve a thread. -/
def State.tlbCore (s : State) (w : Who) : Nat :=
  match w with
  | .slot c _ => c
  | .ctx ch i => ((aget (s.chan ch).ctxs i).map (·.core)).getD 0
  | .sys _ => 4096 * s.dev.devnum

/-- The entry of a TLB for a virtual address. -/
def tlbFind (tlb : List TlbEnt) (space va : Nat) : Option Leaf :=
  match tlb with
  | [] => none
  | e :: l =>
    if e.space = space ∧ va % 2 ^ 57 / 2 ^ pageBits e.level = e.page then some ⟨e.leaf, e.level⟩ else tlbFind l space va

/-- A translation from the TLBs that serve core `c`: L1, L2, last level (R343). -/
def State.tlbHit (s : State) (c sp va : Nat) : Option Leaf :=
  let d := s.die (dieOf c)
  (((tlbFind (s.core c).tlb sp va).or (tlbFind (s.fold (foldOf c)).tlb sp va)).or (tlbFind d.tlb sp va)).or (tlbFind d.tlbG sp va)

/-- A translation from the TLBs, or a walk (R343). -/
def State.lookup (s : State) (w : Who) (va : Nat) : Option Leaf :=
  (s.tlbHit (s.tlbCore w) (s.space w) va).or (s.walkFrom va 3 (s.rootOf w))

/-- The addresses of the entries that a walk reads. -/
def State.walkPath (s : State) (va : Nat) : Nat → Nat → List Nat
  | level, table =>
    let a := table + 8 * walkIndex level va
    let e : Word := BitVec.ofNat 64 (s.mem.readNat a 8)
    match level with
    | 0 => [a]
    | l + 1 => if e.getLsbD 0 && !e.getLsbD 1 && s.paOk (ptePa e) then a :: State.walkPath s va l (ptePa e) else [a]

/-- Event `ev` counted for a thread, when it is a slot's. -/
def State.countFor (s : State) (w : Who) (ev : Nat) : State :=
  match w with
  | .slot c k => s.setCore c ((s.core c).count ev k)
  | _ => s

/-- A valid leaf entered in the TLBs of core `c` that hold its size (R343), the oldest entries giving way (log entry 8). -/
def State.enterLeaf (s : State) (c sp va : Nat) (l : Leaf) : State :=
  let e : TlbEnt := ⟨sp, l.level, va % 2 ^ 57 / 2 ^ pageBits l.level, l.pte⟩
  let k := s.core c
  let s := s.setCore c { k with tlb := capList 64 (e :: k.tlb) }
  let f := s.fold (foldOf c)
  let s := if l.level ≤ 1 ∧ (tlbFind f.tlb sp va).isNone
    then s.setFold (foldOf c) { f with tlb := capList 1024 (e :: f.tlb) } else s
  let d := s.die (dieOf c)
  if l.level = 1 ∧ (tlbFind d.tlb sp va).isNone then s.setDie (dieOf c) { d with tlb := capList 8192 (e :: d.tlb) }
  else if l.level = 2 ∧ (tlbFind d.tlbG sp va).isNone then s.setDie (dieOf c) { d with tlbG := capList 1024 (e :: d.tlbG) }
  else s

/-- The physical address of a virtual address under a leaf. -/
def Leaf.pa (l : Leaf) (va : Nat) : Nat := ptePa l.pte + va % 2 ^ pageBits l.level

/-! ## Where an access is served, and whether it may be made (R199-R201, R207) -/

/-- Whether slot `k` may store `n` bytes at offset `off` of its own bay (R200, R315). -/
def Core.bayStoreOk (c : Core) (k off n : Nat) : Bool :=
  match (c.slot k).hold with
  | none => false
  | some b =>
    let o := bayOff b
    let len := c.scr.readNat (o + 14) 2
    decide (o + 192 ≤ off) && decide (off + n ≤ o + 256 + len)

/-- Whether page position `p` of a core must be refilled before an access (R200). -/
def Core.unpinned (c : Core) (p : Nat) : Bool := !c.saved && !c.pinned.contains p

/-- The line of a place. -/
def Loc.line : Loc → Nat
  | .scr c off => scrLine c off
  | .mem pa => pa / 64

/-- A poisoned line that a core moves with, renamed. -/
def renameLine (f : Nat → Nat) (ln : Nat) : Nat :=
  if ln < scrLines then ln else scrLines + 65536 * f ((ln - scrLines) / 65536) + (ln - scrLines) % 65536

/-- A scratchpad page position as an access finds it: unpinned, with its line poisoned, or at hand (R200, R403). -/
def State.pageLoc (s : State) (c off : Nat) : Chk Loc :=
  if (s.core c).unpinned (off / 4096) then .wait (.page c (off / 4096))
  else if s.dev.poisoned.contains (scrLine c off) then .wait (.poisoned (scrLine c off)) else .ok (.scr c off)

/-- A window access of a core's own thread `k`, of `n` bytes at offset `off` (R200). -/
def State.windowLoc (s : State) (c k off n : Nat) (acc : Acc) (addr : Nat) : Chk Loc :=
  let x := s.core c
  let p := off / 4096
  let bad : Chk Loc := .bad (flt .prot 0 acc.code addr)
  let page : Chk Loc := s.pageLoc c off
  if p < x.scrPages then page
  else if p < 1016 then bad
  else if p < 1022 then (if acc.writes && !(acc == .store || acc == .atomic) then bad
                         else if acc.writes && !x.bayStoreOk k off n then bad else page)
  else if p = 1022 then (if acc.writes && decide (off % 4096 < 24) then bad else page)
  else if acc.writes then bad else page

/-- A remote-aperture access to core `t` by a thread of launch `l` (R201). -/
def State.apertureLoc (s : State) (l : Option Nat) (t off : Nat) (acc : Acc) (addr : Nat) : Chk Loc :=
  let x := s.core t
  let p := off / 4096
  if x.launch.isNone || x.launch != l || x.scrPages ≤ p then
    .bad (flt .prot 0 acc.code addr)
  else s.pageLoc t off

/-- Whether a port leads to device `d`: a memory route is up on it, to `d` itself or to a partner from which other links go on to `d`. -/
def Link.leads (p : Link) (d : Nat) : Bool := p.route == 1 && p.width != 0 && (p.dev == d || !p.cut.contains d)

/-- Whether requests reach device `d` from device `e` now (R367, R401): by some port, for traffic of this device. -/
def State.routed (s : State) (e d : Nat) : Bool :=
  let e := if 256 ≤ e then s.dev.devnum else e
  let d := if 256 ≤ d then s.dev.devnum else d
  e == d || (e != s.dev.devnum && d != s.dev.devnum) ||
    s.dev.links.any fun p => p.2.leads (if e = s.dev.devnum then d else e)

/-- The way of a request from device `e` to device `d`: open; none for now, so that the sender waits (R367); or through a
message-only route alone, when no port has ever led to a device of this commons, which faults PROT (R401). -/
def State.wayTo (s : State) (e d : Nat) (f : FaultInfo) : Chk Unit :=
  if s.routed e d then .ok ()
  else if (s.dev.links.any fun p => p.2.commons == s.dev.commons) || s.dev.links.all (fun p => p.2.route != 2) then .wait (.route d)
  else .bad f

/-- The ways of requests to several devices: to none is there a message-only route alone, and to none no route for now. -/
def State.waysTo (s : State) (e : Nat) (f : FaultInfo) : List Nat → Chk Unit
  | [] => .ok ()
  | d :: ds =>
    match s.wayTo e d f, State.waysTo s e f ds with
    | .bad x, _ | _, .bad x => .bad x
    | .wait w, _ => .wait w
    | _, r => r

/-- The ways of an instruction that changes the tables, or the TLBs, of launches on every device where `is` holds of a launch's folds
(R348, R349, R367, R401). -/
def State.launchesWay (s : State) (is : Nat → Bool) : Chk Unit :=
  s.waysTo (match s.cur with
    | .slot c _ => devOf c
    | .ctx ch _ => ch / 256
    | .sys _ => s.dev.devnum) (flt .prot) ((s.folds.filter fun x => x.2.launch.any is).map fun x => x.1 / 128)

/-- The ways to every device of a launch's placement. -/
def State.launchWay (s : State) (l : Nat) : Chk Unit := s.launchesWay (· == l)

/-- What the leaf of a page permits an access (R207, R341). -/
def leafCheck (l : Leaf) (acc : Acc) (addr : Nat) : Option FaultInfo :=
  if l.pte.getLsbD 5 then some (flt .mapRegion 0 acc.code addr)
  else if l.pte.getLsbD 6 then some (flt .prot 0 acc.code addr)
  else
    let r := l.pte.getLsbD 2
    let w := l.pte.getLsbD 3
    let x := l.pte.getLsbD 4
    let ok := match acc with
      | .fetch => x
      | .load | .pathRead | .map => r
      | .store | .pathWrite => w
      | .atomic | .near => r && w
    if ok then none else some (flt .prot 0 acc.code addr)

/-- The device at which a thread's accesses begin: a context's is its channel's. -/
def State.standsOn (s : State) (w : Who) : Nat :=
  match w with
  | .slot c _ => devOf c
  | .ctx ch _ => ch / 256
  | .sys _ => s.dev.devnum

/-- A physical access that nothing holds back: no route missing, no line poisoned (R367, R403). -/
def State.memReady (s : State) (w : Who) (pa : Nat) (f : FaultInfo) : Chk Loc :=
  (s.wayTo (s.standsOn w) (pa / 2 ^ 39) f).bind fun _ =>
  if s.dev.poisoned.contains (pa / 64) then .wait (.poisoned (pa / 64))
  else .ok (.mem pa)

/-- Whether a place that has passed its checks can be accessed from device `e` now (R367, R403). -/
def State.placeReady (s : State) (e : Nat) (l : Loc) : Bool :=
  match l with
  | .scr c off => s.routed e (devOf c) && !s.dev.poisoned.contains (scrLine c off)
  | .mem pa => s.routed e (pa / 2 ^ 39) && !s.dev.poisoned.contains (pa / 64)

/-- Whether a miss of a page must wait among a die's pending misses: one to it is there, or they have no room (R343). -/
def Die.missWaits (d : Die) (sp page : Nat) : Bool := (d.misses.any fun m => m.space == sp && m.page == page) || decide (256 ≤ d.misses.length)

/-- The first of these entries that a read from device `e` cannot have now: no route leads to it (R367), or its line is poisoned (R403). -/
def State.entryWait (s : State) (e : Nat) (path : List Nat) : Option Wait :=
  match path.find? fun a => !s.routed e (a / 2 ^ 39) with
  | some a => some (.route (a / 2 ^ 39))
  | none => (path.find? fun a => s.dev.poisoned.contains (a / 64)).map fun a => .poisoned (a / 64)

/-- What a translation by core `c` in space `sp` from a root waits for (R343, R367, R403): a walk of the page under way, room among the
pending misses, or an entry that it cannot have. -/
def State.missWait (s : State) (c sp root va : Nat) : Option Wait :=
  let page := va % 2 ^ 57 / 65536
  if (s.die (dieOf c)).missWaits sp page then some (.walk (dieOf c) sp page) else s.entryWait (devOf c) (s.walkPath va 3 root)

/-- What a thread's translation waits for; for its own access (log entry 72), also a walk put off. -/
def State.walkWait (s : State) (w : Who) (va : Nat) (own : Bool) : Option Wait :=
  let c := s.tlbCore w
  if own && s.env.walk.headD 0 == 1 then some (.walk (dieOf c) (s.space w) (va % 2 ^ 57 / 65536)) else s.missWait c (s.space w) (s.rootOf w) va

/-- The leaf of an access by a slot or a context: from the TLBs or a walk, or the wait for one; none when it is invalid. -/
def State.translate (s : State) (w : Who) (va : Nat) (own : Bool) : Chk (Option Leaf) :=
  match s.tlbHit (s.tlbCore w) (s.space w) va with
  | some l => .ok (some l)
  | none => match s.walkWait w va own with
    | some x => .wait x
    | none => .ok (s.walkFrom va 3 (s.rootOf w))

/-- The row lock of another context on an address (R283). -/
def State.rowHeld (s : State) (ch i pa : Nat) : Bool :=
  (s.chan ch).locks.any fun l => l.1 == rowPa pa && l.2.1 != i

/-- The physical address of an address of the system cores, by their own translation (R389). -/
def State.sysPa (s : State) (va : Nat) : Nat :=
  match aget s.dev.sysPages (va / 65536) with
  | some p => 65536 * p + va % 65536
  | none => va

/-- Where an access of `n` bytes at a virtual address is served for thread `w`, with every check of R199-R201, R207, R274
and R389. -/
def State.reach (s : State) (w : Who) (va n : Nat) (acc : Acc) : Chk Loc :=
  match w with
  | .sys _ =>
    if s.paOk (s.sysPa va) then s.memReady w (s.sysPa va) (flt .prot 0 acc.code va) else .bad (flt .xlate 0 acc.code va)
  | .ctx ch i =>
    if apBase ≤ va ∧ va < winBase + 2 ^ 22 then .bad (flt .prot 0 acc.code va)
    else if !canonical va then .bad (flt .xlate 0 acc.code va)
    else
      (s.translate w va !acc.path).bind fun l =>
      match l with
      | none => .bad (flt .xlate 0 acc.code va)
      | some l =>
        match leafCheck l acc va with
        | some f => .bad f
        | none =>
          let pa := l.pa va
          if channelPa pa != ch then .bad (flt .prot 0 acc.code va)
          else if s.rowHeld ch i pa then .wait (.row ch (rowPa pa))
          else s.memReady w pa (flt .prot 0 acc.code va)
  | .slot c k =>
    if winBase ≤ va ∧ va < winBase + 2 ^ 22 then s.windowLoc c k (va - winBase) n acc va
    else if apBase ≤ va ∧ va < winBase then
      let t := (va - apBase) / 2 ^ 22
      let off := (va - apBase) % 2 ^ 22
      if t = c then s.windowLoc c k off n acc va
      else
        match s.apertureLoc (s.core c).launch t off acc va with
        | .bad f => .bad f
        | r => (s.wayTo (devOf c) (devOf t) (flt .prot 0 acc.code va)).bind fun _ => r
    else if !canonical va then .bad (flt .xlate 0 acc.code va)
    else
      (s.translate w va !acc.path).bind fun l =>
      match l with
      | none => .bad (flt .xlate 0 acc.code va)
      | some l =>
        match leafCheck l acc va with
        | some f => .bad f
        | none => s.memReady w (l.pa va) (flt .prot 0 acc.code va)

/-! ## Homes (R202-R205, R274) -/

/-- The timestamp pair of a location: an unheld line counts at its slice's eviction mark, raised to the channel mark by
which a fill would pass (R204, R274). -/
def State.tsAt (s : State) (l : Loc) : Nat × Nat :=
  match l with
  | .scr c off => (s.core c).pageTsOf (off / 4096)
  | .mem pa =>
    let f := s.fold (homeFold (pa / 64))
    match aget f.lines (pa / 64) with
    | some x => (x.wts, x.rts)
    | none => let m := max f.evict (s.chan (channelPa pa)).mark; (m, m)

/-- The greatest timestamp a home has held (R204): the slice's, or a page's own. -/
def State.homeGreatest (s : State) (l : Loc) : Nat :=
  match l with
  | .scr _ _ => (s.tsAt l).2
  | .mem pa => max (s.fold (homeFold (pa / 64))).greatest (s.tsAt l).2

/-- How Evoven Resident's log marks the report of a skew event (R366). -/
def skewMark : Nat := 2 ^ 64

/-- A skew event reported to Evoven Resident (R366), with the launch of the current thread. -/
def State.reportSkew (s : State) : State :=
  { s with dev := { s.dev with syslog := s.dev.syslog ++ [(s.myLaunch.getD 0, skewMark)] } }

/-- A skew event at the slice of fold `f` or at its agents, counted in each of the fold's cores (R361, R366). -/
def State.skewFold (s : State) (f : Nat) : State :=
  let s := s.setFold f { s.fold f with skew := (s.fold f).skew + 1 }
  ((coresOf f).foldl (fun s c => s.setCore c ((s.core c).addFixed 13 1)) s).reportSkew

/-- A clamped timestamp counts a skew event at its home (R204, R361). -/
def State.countSkew (s : State) (l : Loc) (ts : Nat) : State :=
  if clampTs (s.homeGreatest l) ts = ts then s
  else
    match l with
    | .scr c _ => (s.setCore c ((s.core c).addFixed 13 1)).reportSkew
    | .mem pa => s.skewFold (homeFold (pa / 64))

/-- The presence filter's bit of a line set or cleared (R275); only a part with channel cores has one. -/
def State.setPresent (s : State) (ln : Nat) (b : Bool) : State :=
  if !s.part.full then s
  else
    let ch := channelPa (64 * ln)
    let x := s.chan ch
    let l := x.present.filter (· != ln)
    s.setChan ch { x with present := if b then ln :: l else l }

/-- Lines of 64 bytes that a slice holds: 16 ways of 256 KiB, less those its field takes (R198, R229). -/
def Fold.room (f : Fold) : Nat := (16 - f.ways) * 4096

/-- A slice that holds more lines than it has room for evicts one, not `ln` (R204; log entry 8). -/
def Fold.spill (f : Fold) (ln : Nat) : Fold :=
  if f.lines.length ≤ f.room then f
  else match f.lines.find? (fun x => x.1 != ln) with
    | some x => { f with lines := adel f.lines x.1, evict := max f.evict x.2.rts }
    | none => f

/-- A line held by its slice with these timestamps, after an access that wrote when `dirty`. Under the hint `.n` (`alloc`
false) a line that was not held is served from HBM and not allocated: its timestamps pass into the eviction mark, as if
it had been evicted at once (DEDUCED, log entry 9). -/
def State.holdLine (s : State) (pa wts rts : Nat) (alloc dirty : Bool) : State :=
  let ln := pa / 64
  let fi := homeFold ln
  let f := s.fold fi
  let f := { f with greatest := max f.greatest rts }
  match aget f.lines ln with
  | some x => s.setFold fi { f with lines := aset f.lines ln ⟨wts, rts, x.dirty || dirty⟩ }
  | none =>
    if alloc then (s.setFold fi (Fold.spill { f with lines := aset f.lines ln ⟨wts, rts, dirty⟩ } ln)).setPresent ln true
    else s.setFold fi { f with evict := max f.evict rts }

/-- The value of `n` bytes at a location. -/
def State.peek (s : State) (l : Loc) (n : Nat) : Nat :=
  match l with
  | .scr c off => (s.core c).scr.readNat off n
  | .mem pa => s.mem.readNat pa n

/-- A read at the home with lease `lam` and clock `ts` (R203, R206): the state and the location's wts. A scratchpad page gives no lease
(R203, R205). -/
def State.homeRead (s : State) (l : Loc) (ts lam : Nat) (alloc : Bool) : State × Nat :=
  let c := clampTs (s.homeGreatest l) ts
  let x := s.tsAt l
  let rts := max x.2 (c + match l with
    | .scr .. => 0
    | .mem _ => lam)
  let s := s.countSkew l ts
  match l with
  | .scr k off => let y := s.core k; (s.setCore k { y with pageTs := aset y.pageTs (off / 4096) (x.1, rts) }, x.1)
  | .mem pa => (s.holdLine pa x.1 rts alloc false, x.1)

/-- A write of timestamp `w` at the bytes of a ring (R417): a raise of TAIL is remembered with TAIL as it stands, a write of a record
with the record's line, the greatest of each line. -/
def Ring.note (r : Ring) (pa n tail size w : Nat) : Ring :=
  let r := if pa < r.hdr + 16 ∧ r.hdr + 8 < pa + n then { r with tails := r.tails ++ [(tail, w)] } else r
  if r.hdr + 64 ≤ pa ∧ pa < r.hdr + 64 + 64 * size then
    { r with wrote := aset r.wrote (pa / 64) (max w ((aget r.wrote (pa / 64)).getD 0)) }
  else r

/-- A write to memory noted by the launch queues that hold its bytes. -/
def State.noteTail (s : State) (pa n w : Nat) : State :=
  let note (r : Ring) : Ring := r.note pa n (s.mem.readNat (r.hdr + 8) 8) (s.mem.readNat (r.hdr + 16) 4) w
  { s with dev := { s.dev with rings := s.dev.rings.map note } }

/-- The store rule at the home of a place for a writer of clock `ts` (R203, R204): the line's, or page's, new timestamps. -/
def State.homeStamp (s : State) (l : Loc) (ts : Nat) (alloc : Bool) : State × Nat :=
  let c := clampTs (s.homeGreatest l) ts
  let w := max c ((s.tsAt l).2 + 1)
  let s := s.countSkew l ts
  match l with
  | .scr k off => let y := s.core k; (s.setCore k { y with pageTs := aset y.pageTs (off / 4096) (w, w) }, w)
  | .mem pa => (s.holdLine pa w w alloc true, w)

/-- The bytes of a write of timestamp `w`: `n` bytes become `v`, watched words set their owners' ready bits (R136). -/
def State.homePut (s : State) (l : Loc) (n v w : Nat) : State :=
  match l with
  | .scr k off => let y := s.core k; s.setCore k (Core.watchHit { y with scr := y.scr.writeNat off n v } off n w)
  | .mem pa => State.noteTail { s with mem := s.mem.writeNat pa n v } pa n w

/-- A write at the home under the store rule by clock `ts` (R203): the state and the write timestamp. -/
def State.homeWrite (s : State) (l : Loc) (n v ts : Nat) (alloc : Bool) : State × Nat :=
  let r := s.homeStamp l ts alloc
  (r.1.homePut l n v r.2, r.2)

/-- The entries of a walk read at their homes as loads with λ = 0 that take part in no thread's PTS (R343). -/
def State.touchWalk (s : State) (path : List Nat) : State := path.foldl (fun s a => (s.homeRead (.mem a) 0 0 true).1) s

/-- A translation by core `c` for an access of thread `w`: an L1 TLB miss is counted, a walk counted and made at the homes, and a
valid leaf enters the TLBs (R343, R363). -/
def State.tlbEnter (s : State) (w : Who) (va : Nat) : State :=
  let c := s.tlbCore w
  let sp := s.space w
  if (tlbFind (s.core c).tlb sp va).isSome then s
  else
    let s := s.countFor w 13
    match s.tlbHit c sp va with
    | some l => s.enterLeaf c sp va l
    | none =>
      let l := s.walkFrom va 3 (s.rootOf w)
      let s := (s.countFor w 14).touchWalk (s.walkPath va 3 (s.rootOf w))
      let s := { s with env := { s.env with walk := s.env.walk.tail } }
      match l with
      | some l => s.enterLeaf c sp va l
      | none => s

/-- Whether a fault came of an access whose address was translated: not of one that a window or the aperture serves. -/
def FaultInfo.walked (f : FaultInfo) : Bool :=
  let a := f.addr.toNat
  f.acc != 0 && (f.code == .xlate || ((f.code == .prot || f.code == .mapRegion) && a != 0)) && canonical a
    && !(decide (apBase ≤ a) && decide (a < winBase + 2 ^ 22))

/-- What the translation behind a fault of work of thread `w` leaves: its TLB entry when the leaf was valid, its walk and its events
(R343, R363). No TLB serves a system core's own translation. -/
def State.noteFault (s : State) (w : Who) (f : FaultInfo) : State :=
  match w with
  | .sys _ => s
  | w => if f.walked then s.tlbEnter w f.addr.toNat else s

/-! ## The channel's own accesses (R274) -/

/-- A context's load of a location of its channel. -/
def State.chanLoad (s : State) (ch pa ts : Nat) : State × Nat :=
  if (s.chan ch).present.contains (pa / 64) then
    let r := s.homeRead (.mem pa) (ts + 1) 0 true
    (r.1, max (ts + 1) r.2)
  else
    let m := max (s.fold (homeFold (pa / 64))).evict (s.chan ch).mark
    let p := max ts m + 1
    let s := if clampTs m p = p then s else s.reportSkew
    (s.setChan ch { s.chan ch with mark := max m (clampTs m p) }, p)

/-- A write at memory by the channel, or at the slice when the filter shows the line. -/
def State.chanStore (s : State) (ch pa n v ts : Nat) : State × Nat :=
  if (s.chan ch).present.contains (pa / 64) then s.homeWrite (.mem pa) n v ts true
  else
    let m := max (s.fold (homeFold (pa / 64))).evict (s.chan ch).mark
    let w := max (clampTs m ts) (m + 1)
    let s := if clampTs m ts = ts then s else s.reportSkew
    (State.noteTail { s.setChan ch { s.chan ch with mark := w } with mem := s.mem.writeNat pa n v } pa n w, w)

/-! ## The thread path (R203) -/

/-- The lease of a hint (R205). -/
def leaseOf (hint : Nat) : Nat :=
  match hint with
  | 0 => 64 | 2 => 4096 | _ => 0

/-- Whether a hint uses and keeps L1 copies (R205). -/
def usesL1 (hint : Nat) : Bool := hint == 0 || hint == 2

/-- The core whose L1 part holds copies of a line for a core: its own, or under a fused L1 the part R202 names. -/
def State.l1Core (s : State) (c ln : Nat) : Nat :=
  if ((((s.core c).launch).bind s.launch?).map (·.desc.fused)).getD false
  then 4096 * devOf c + 8 * (c % 4096 / 8) + xor3 ln else c

/-- The copy of a line in an L1. -/
def l1Find : List L1Copy → Nat → Option L1Copy
  | [], _ => none
  | x :: l, ln => if x.ln = ln then some x else l1Find l ln

/-- An L1 with a copy placed, the oldest giving way past 1,024 lines (R198; log entry 8). -/
def l1Put (l : List L1Copy) (x : L1Copy) : List L1Copy := capList 1024 (x :: l.filter (·.ln != x.ln))

/-- The bytes of a line as its home holds them. -/
def State.lineAt (s : State) (ln : Nat) : Line := s.mem.line ln

/-- The event of R363 that a load of physical line `ln` by core `c` is, when its L1 does not serve it. -/
def State.loadEvent (s : State) (c ln : Nat) : Nat :=
  let f := homeFold ln
  if pasturePa (64 * ln) != pastureOf c then 6
  else if (aget (s.fold f).lines ln).isNone then 5
  else if f = foldOf c then 3 else 4

/-- A load that a core's scratchpad serves is an event of R363 when that core is of another pasture. -/
def State.countFar (s : State) (l : Loc) : State :=
  match s.cur, l with
  | .slot c _, .scr t _ => if pastureOf t != pastureOf c then s.count 6 else s
  | _, _ => s

/-- A load by the current thread of `n` bytes at a location (R203, R274): the state, with PTS raised, and the value. -/
def State.load (s : State) (l : Loc) (n hint : Nat) : State × Nat :=
  let t := s.thread
  match s.cur, l with
  | .ctx ch _, .mem pa =>
    let r := s.chanLoad ch pa t.pts
    (r.1.raisePts r.2, s.peek l n)
  | .slot c _, .mem pa =>
    let p := t.pts + 1
    let ln := pa / 64
    let k := s.l1Core c ln
    let copy := if usesL1 hint then l1Find (s.core k).l1 ln else none
    match copy.filter (fun x => decide (p ≤ x.rts)) with
    | some x => ((s.count 2).raisePts (max p x.wts), (x.data.extractLsb' (8 * (pa % 64)) (8 * n)).toNat)
    | none =>
      let r := (s.count (s.loadEvent c ln)).homeRead l p (leaseOf hint) (hint != 3)
      let v := s.peek l n
      let s := r.1.raisePts (max p r.2)
      if usesL1 hint then
        let x := s.core k
        (s.setCore k { x with l1 := l1Put x.l1 ⟨ln, s.lineAt ln, r.2, (s.tsAt l).2⟩ }, v)
      else (s, v)
  | .sys _, .mem _ =>
    let p := t.pts + 1
    let r := s.homeRead l p (leaseOf hint) (hint != 3)
    (r.1.raisePts (max p r.2), s.peek l n)
  | _, _ =>
    let p := t.pts + 1
    let r := (s.countFar l).homeRead l p 0 true
    (r.1.raisePts (max p r.2), s.peek l n)

/-- A store or atomic by the current thread of `n` bytes at a location (R203, R274): `f` gives the new value from the
old; the state, with PTS raised, and the old value. -/
def State.rmw (s : State) (l : Loc) (n hint : Nat) (f : Nat → Nat) : State × Nat :=
  let t := s.thread
  let old := s.peek l n
  let v := f old
  match s.cur, l with
  | .ctx ch _, .mem pa => let r := s.chanStore ch pa n v t.pts; (r.1.raisePts r.2, old)
  | .slot c _, .mem pa =>
    let r := s.homeWrite l n v t.pts (hint != 3)
    let s := r.1.raisePts r.2
    let ln := pa / 64
    let k := s.l1Core c ln
    let x := s.core k
    (if (l1Find x.l1 ln).isSome then s.setCore k { x with l1 := l1Put x.l1 ⟨ln, s.lineAt ln, r.2, r.2⟩ } else s, old)
  | .sys _, .mem _ => let r := s.homeWrite l n v t.pts (hint != 3); (r.1.raisePts r.2, old)
  | _, _ => let r := s.homeWrite l n v t.pts true; (r.1.raisePts r.2, old)

/-- A store of `v`. -/
def State.store (s : State) (l : Loc) (n hint v : Nat) : State := (s.rmw l n hint fun _ => v).1

/-- A pinned page touched becomes the most recently used; a pre-empted core has none (R200). -/
def Core.touch (c : Core) (p : Nat) : Core :=
  if c.saved || !c.pinned.contains p || c.pinned.head? = some p then c else { c with pinned := p :: c.pinned.filter (· != p) }

/-- The device that keeps a location. -/
def Loc.dev (l : Loc) : Nat :=
  match l with
  | .scr c _ => devOf c
  | .mem pa => pa / 2 ^ 39

/-- The current thread's reply is to come from device `d`. -/
def State.setFrom (s : State) (d : Nat) : State := s.setThread { s.thread with peer := some d }

/-- A reply that an agent of device `d` sends the current thread: it completes the instruction, or travels while no route leads there
(R367). -/
def State.deliverReply (s : State) (d : Nat) (e : Eff) : State :=
  if s.routed d (s.standsOn s.cur) then s.land e
  else s.setThread { s.thread with wait := some .reply, reply := some e, peer := some d }

/-- What an access leaves beside values and timestamps: the TLB entry of its page, or its page position the most recently
used; and the device its reply comes from. -/
def State.noteAccess (s : State) (va : Nat) (l : Loc) : State :=
  let s := s.setFrom l.dev
  match l with
  | .scr c off => s.setCore c ((s.core c).touch (off / 4096))
  | .mem _ => match s.cur with
    | .sys _ => s
    | w => s.tlbEnter w va

/-- `n` bytes read line by line as loads with λ = 0 by the current thread (MEM of R7, for an instruction that reads a
record), all lines checked first: the locations, in ascending address. -/
def State.reachSpan (s : State) (va n : Nat) (acc : Acc) : Chk (List (Nat × Loc)) :=
  let first := va / 64
  let last := (va + n - 1) / 64
  if n = 0 then .ok []
  else Chk.all (fun i =>
    let a := max va (64 * (first + i))
    let e := min (va + n) (64 * (first + i) + 64)
    (s.reach s.cur a (e - a) acc).bind fun l => .ok (e - a, l)) (List.range (last - first + 1))

/-- The loads of a checked span from `va` on, in order: the state and the bytes as one number. -/
def State.loadSpan (s : State) (va : Nat) : List (Nat × Loc) → State × Nat
  | [] => (s, 0)
  | (n, l) :: ls =>
    let r := (s.noteAccess va l).load l n 1
    let q := State.loadSpan r.1 (va + n) ls
    (q.1, r.2 + (q.2 <<< (8 * n)))

/-- The stores of a checked span from `va` on, in order. -/
def State.storeSpan (s : State) (va : Nat) : List (Nat × Loc) → Nat → State
  | [], _ => s
  | (n, l) :: ls, v => State.storeSpan ((s.noteAccess va l).store l n 1 (v % 2 ^ (8 * n))) (va + n) ls (v >>> (8 * n))

end Sys2Proof.Machine
end

