-- ==== Sys2Proof/Machine/Fetch.lean ====
section
/-! DEFINITION. Fetch lines (R61-R64), the instruction caches (R123, R124), line words (R62, R78), branch targets (R68)
and the bundle at a PC. -/

namespace Sys2Proof.Machine

/-! ## The check of a line (R63, R64) -/

/-- The `k`-bit subsets of the `n` lowest bits, as numbers in ascending order. -/
def combos : Nat → Nat → List Nat
  | 0, _ => [0]
  | _ + 1, 0 => []
  | k + 1, n + 1 => combos (k + 1) n ++ (combos k n).map (2 ^ n + ·)

/-- COL(0) to COL(500) (R63). -/
def columns : List Nat := combos 3 11 ++ (combos 5 11).take 336

/-- The exclusive or of the columns of the bits set in `l`. -/
def checkFrom : List Nat → Nat → Nat → Nat
  | [], _, acc => acc
  | c :: cs, l, acc => checkFrom cs (l / 2) (if l % 2 = 1 then acc ^^^ c else acc)

/-- CHECK over line bits 0 to 500 (R63). -/
def checkOf (l : Line) : Nat := checkFrom columns l.toNat 0

/-- The position of a column, when the syndrome is one. -/
def colIndex : List Nat → Nat → Nat → Option Nat
  | [], _, _ => none
  | c :: cs, s, d => if c = s then some d else colIndex cs s (d + 1)

/-- A line as it is used after its check, and whether it was corrected; none when it is uncorrectable (R64). -/
def verifyLine (l : Line) : Option (Line × Bool) :=
  let s := (l.extractLsb' 501 11).toNat ^^^ checkOf l
  if s = 0 then some (l, false)
  else if s &&& (s - 1) = 0 then some (l, false)
  else match colIndex columns s 0 with
    | some d => some (l ^^^ BitVec.twoPow 512 d, true)
    | none => none

/-- A line with its CHECK field set (R63): what an assembler writes. -/
def sealLine (l : Line) : Line :=
  let m := l &&& (BitVec.allOnes 512 >>> 11)
  m ||| BitVec.ofNat 512 (checkOf m <<< 501)

/-! ## Line words (R62, R78) -/

/-- TMASK. -/
def tmask (l : Line) : Nat := (l.extractLsb' 480 5).toNat

/-- PMASK. -/
def pmask (l : Line) : Nat := (l.extractLsb' 485 4).toNat

/-- The fault of an ill-formed line word (R78). -/
def lineWordBad (l : Line) : Option FaultInfo :=
  if l.extractLsb' 489 12 != 0 then some (stepFault .illegalOp 3 0)
  else if pmask l &&& (pmask l / 2) != 0 then some (stepFault .badPair 3 0)
  else if tmask l &&& (2 * pmask l) != 0 then some (stepFault .badPair 3 0)
  else none

/-- The 96 bits of slot `i` of a line (R61). -/
def slotBits (l : Line) (i : Nat) : Slot96 := l.extractLsb' (96 * i) 96

/-! ## Instruction caches (R14, R123) -/

/-- A cache of lines with one placed, the oldest giving way past `n` lines (log entry 8). -/
def cachePut (n : Nat) (l : List (Nat × Line)) (ln : Nat) (x : Line) : List (Nat × Line) :=
  capList n ((ln, x) :: l.filter (·.1 != ln))

/-- The nearest copy of a line beyond level `k`: L1-I, L2-I, L3-I, then memory, with its level; none beyond memory. -/
def State.codeCopy (s : State) (c ln k : Nat) : Option (Nat × Line) :=
  match if k < 1 then aget (s.core c).l1i ln else none with
  | some x => some (1, x)
  | none =>
    match if k < 2 then aget (s.fold (foldOf c)).l2i ln else none with
    | some x => some (2, x)
    | none =>
      match if k < 3 then aget (s.die (dieOf c)).l3i ln else none with
      | some x => some (3, x)
      | none => if k < 4 then some (4, s.mem.line ln) else none

/-- A correction counted for the stack of pasture `p`, which only Evoven Resident reads (R403). -/
def State.stackFix (s : State) (p : Nat) : State :=
  { s with dev := { s.dev with stackEcc := aset s.dev.stackEcc p ((aget s.dev.stackEcc p).getD 0 + 1) } }

/-- A corrected code line written back to memory, and counted (R64). -/
def State.fixMem (s : State) (ln : Nat) (x : Line) : State := { s.stackFix (pasturePa (64 * ln)) with mem := s.mem.writeNat (64 * ln) 64 x.toNat }

/-- The module that a core's launch runs. -/
def State.moduleRun (s : State) (c : Nat) : Option Nat := (((s.core c).launch).bind s.launch?).bind (·.module)

/-- The die fetch agent's fill of a line to every other core of a core's die that runs the same module (R123). -/
def State.dieFill (s : State) (c ln : Nat) (x : Line) : State :=
  match s.moduleRun c with
  | none => s
  | some m =>
    { s with cores := s.cores.map fun y =>
        if y.1 != c && dieOf y.1 == dieOf c && s.moduleRun y.1 == some m then (y.1, { y.2 with l1i := cachePut 512 y.2.l1i ln x }) else y }

/-- A verified line installed in every level up to `k`; one that passes the die fetch agent goes to the cores it fills. -/
def State.codeInstall (s : State) (c ln k : Nat) (x : Line) : State :=
  let s := if 1 ≤ k then s.setCore c { s.core c with l1i := cachePut 512 (s.core c).l1i ln x } else s
  let s := if 2 ≤ k then
    s.setFold (foldOf c) { s.fold (foldOf c) with l2i := cachePut 16384 (s.fold (foldOf c)).l2i ln x } else s
  let s := if 3 ≤ k then s.setDie (dieOf c) { s.die (dieOf c) with l3i := cachePut 262144 (s.die (dieOf c)).l3i ln x } else s
  if 2 ≤ k then s.dieFill c ln x else s

/-- A code line read for core `c`: the nearest copy, and once more the next outward when that is uncorrectable (R64). The
state holds the line at every level up to the one that gave it, a correction rewritten there and counted: for the core in the
instruction caches (log entry 66), for the stack in memory. -/
def State.readCode (s : State) (c ln : Nat) : State × Option Line :=
  let done (k : Nat) (r : Line × Bool) : State × Option Line :=
    let s := if k = 1 ∧ !r.2 then s else s.codeInstall c ln (if r.2 then k else k - 1) r.1
    (if !r.2 then s else if k = 4 then s.fixMem ln r.1 else s.setCore c ((s.core c).addFixed 11 1), some r.1)
  match s.codeCopy c ln 0 with
  | none => (s, none)
  | some (k, x) =>
    match verifyLine x with
    | some r => done k r
    | none =>
      match s.codeCopy c ln k with
      | none => (s, none)
      | some (k2, y) =>
        match verifyLine y with
        | some r => done k2 r
        | none => (s, none)

/-- What a fetch finds. -/
inductive FetchRes where
  | line (l : Line)
  | bad (f : FaultInfo)
  deriving DecidableEq, Repr

/-- A fault of fetch at the line of a PC. -/
def fetchFault (code : FaultCode) (step : Nat) (pc : Word) : FaultInfo :=
  { code := code, step := step, acc := 1, addr := pc &&& ~~~(0x3F : Word) }

/-- The window of a channel core that holds a PC for a launch (R276). -/
def State.windowOf (s : State) (ch l : Nat) (pc : Word) : Option (Nat × Window) :=
  (s.chan ch).windows.find? fun w => w.2.launch == l && w.2.base == pc &&& ~~~(0xFFF : Word)

/-- The physical line number and fetch checks of a PC for a thread of a core (R82 step 1). -/
def State.fetchLn (s : State) (w : Who) (pc : Word) : Except FaultInfo Nat :=
  let va := pc.toNat / 64 * 64
  match w with
  | .sys _ => if s.paOk (s.sysPa va) then .ok (s.sysPa va / 64) else .error (fetchFault .xlate 1 pc)
  | _ =>
    match s.lookup w va with
    | none => .error (fetchFault .xlate 1 pc)
    | some l => if l.pte.getLsbD 4 then .ok (l.pa va / 64) else .error (fetchFault .prot 1 pc)

/-- A code line read from memory, and once more where it is uncorrectable (R64). -/
def State.readMem (s : State) (ln : Nat) : State × Option Line :=
  match verifyLine (s.mem.line ln) with
  | some r => (if r.2 then s.fixMem ln r.1 else s, some r.1)
  | none => (s, none)

/-- The line of a PC for thread `w` (R82 steps 1 and 2, R276, R279). -/
def State.fetch (s : State) (w : Who) (pc : Word) : State × FetchRes :=
  match w with
  | .ctx ch i =>
    let l := ((aget (s.chan ch).ctxs i).map (·.launch)).getD 0
    match s.windowOf ch l pc with
    | none => (s, .bad { fetchFault .xlate 1 pc with ovl := true })
    | some (n, x) =>
      let i := pc.toNat / 64 % 64
      match (aget x.lines i).bind verifyLine with
      | some r =>
        -- a correction in a channel core's window counts for its stack (log entry 66)
        (if r.2 then (s.setChan ch { s.chan ch with windows := aset (s.chan ch).windows n { x with lines := aset x.lines i r.1 } }).stackFix (ch / 32)
         else s, .line r.1)
      | none =>
        -- fetched once more from memory
        match (s.fetchLn w pc).toOption with
        | none => (s, .bad (fetchFault .badLine 2 pc))
        | some ln =>
          let r := s.readMem ln
          (r.1, match r.2 with
            | some l => .line l
            | none => .bad (fetchFault .badLine 2 pc))
  | _ =>
    match s.fetchLn w pc with
    | .error f => (s.noteFault w f, .bad f)
    | .ok ln =>
      match w with
      | .slot c _ =>
        let r := (s.tlbEnter w (pc.toNat / 64 * 64)).readCode c ln
        (r.1, match r.2 with
          | some l => .line l
          | none => .bad (fetchFault .badLine 2 pc))
      | _ =>
        let r := s.readMem ln
        (r.1, match r.2 with
          | some l => .line l
          | none => .bad (fetchFault .badLine 2 pc))

/-- Whether a fetch of line `ln` by core `c` must leave its L1-I: no copy there, or an uncorrectable one (R64); with the level that
gives the line. -/
def State.missLevel (s : State) (c ln : Nat) : Option Nat :=
  match s.codeCopy c ln 0 with
  | some (1, x) => if (verifyLine x).isSome then none else (s.codeCopy c ln 1).map (·.1)
  | r => r.map (·.1)

/-- Whether the page of a PC is one that a fetch must wait for: no TLB holds it, and a walk for it is among the die's pending misses, or
they have no room (R343); or an entry of its walk is poisoned (R403), or on a device with no route (R367). -/
def State.pageAway (s : State) (w : Who) (pc : Word) : Bool :=
  let va := pc.toNat / 64 * 64
  match w with
  | .sys _ => false
  | w => (s.tlbHit (s.tlbCore w) (s.space w) va).isNone && (s.walkWait w va false).isSome

/-- Whether the line that thread `w` awaits can come now: it is not poisoned (R403), a route leads from where it is kept (R367), and its
page is translated (R343). -/
def State.lineComes (s : State) (w : Who) (t : Slot) (ln : Nat) : Bool :=
  !s.dev.poisoned.contains ln && match w with
    | .slot c _ => s.routed (devOf c) (ln / 2 ^ 33) && (t.again.isSome || !s.pageAway w t.pc)
    | .sys _ => s.routed s.dev.devnum (ln / 2 ^ 33)
    | .ctx .. => true

/-- The line of a PC that is not at hand for the current thread: its page not translated yet (R343), poisoned where it would be read
(R403), kept by a device with no route (R367), or, for a slot, not served by its L1-I and held back by the environment (R64, R122). A
line not known yet counts as the one that the page tables give now. -/
def State.lineAway (s : State) (pc : Word) : Option Nat :=
  match s.cur with
  | .slot c _ =>
    match s.fetchLn s.cur pc with
    | .error _ => none
    | .ok ln =>
      if s.pageAway s.cur pc then some ln
      else if s.env.stall.headD 0 = 1 || s.dev.poisoned.contains ln || !s.routed (devOf c) (ln / 2 ^ 33) then
        match s.missLevel c ln with
        | some k => if s.env.stall.headD 0 = 1 || k == 4 then some ln else none
        | none => none
      else none
  | .sys _ =>
    match s.fetchLn s.cur pc with
    | .error _ => none
    | .ok ln => if s.dev.poisoned.contains ln || !s.routed s.dev.devnum (ln / 2 ^ 33) then some ln else none
  | .ctx .. => none

/-- The fault of a taken branch at its target (R68), or none when the branch completes. -/
def State.targetFault (s : State) (pc : Word) : Option FaultInfo :=
  let bad : FaultInfo := { code := .badTarget, addr := pc }
  if !isSlotAddr pc then some bad
  else
    match (s.fetch s.cur pc).2 with
    | .bad _ => none
    | .line l => if (lineWordBad l).isSome then none else if (tmask l).testBit (pc.toNat % 8) then none else some bad

/-- The state after the fetch that checks a target (R68). -/
def State.targetFetch (s : State) (pc : Word) : State := (s.fetch s.cur pc).1

/-- Whether a code line of memory can reach the current slot now (R367). -/
def State.lineRouted (s : State) (ln : Nat) : Bool :=
  match s.cur with
  | .slot c _ => s.routed (devOf c) (ln / 2 ^ 33)
  | .sys _ => s.routed s.dev.devnum (ln / 2 ^ 33)
  | .ctx .. => true

/-- The line for whose arrival a taken branch stalls before its target is checked (R68): once for the environment's choice, and
while it is poisoned. A follower's fetch is gated off (R126). -/
def State.targetLine (s : State) (pc : Word) : Option Nat :=
  let t := s.thread
  if t.follow || !isSlotAddr pc then none
  else
    match s.lineAway pc with
    | some ln => if t.again.isNone || s.dev.poisoned.contains ln || s.pageAway s.cur pc || !s.lineRouted ln then some ln else none
    | none => none

/-- The line that a slot fetches ahead of its issue: that of its PC, or the next in sequence, when its L1-I lacks it and a TLB holds
its page, executable (R123): its address and its number. -/
def State.aheadVa (s : State) (c k : Nat) : Option (Nat × Nat) :=
  let t := s.slot c k
  let w : Who := .slot c k
  let at_ (va : Nat) : Option (Nat × Nat) :=
    if !canonical va then none
    else ((s.tlbHit c (s.space w) va).filter (·.pte.getLsbD 4)).bind fun l =>
      let ln := l.pa va / 64
      if (aget (s.core c).l1i ln).isSome || s.dev.poisoned.contains ln || !s.routed (devOf c) (ln / 2 ^ 33) then none else some (va, ln)
  if t.follow || t.st == .idle || t.st == .ended then none
  else (at_ (t.pc.toNat / 64 * 64)).or (at_ (t.pc.toNat / 64 * 64 + 64))

/-- That line's number. -/
def State.aheadLine (s : State) (c k : Nat) : Option Nat := (s.aheadVa c k).map (·.2)

/-- PCOF of an exact linear number, or none outside the canonical range (R65, R67, R68). -/
def pcOfInt (t : Int) : Option Word :=
  if t < 0 then none
  else
    let n := t.toNat
    if canonical (n / 5 * 64) && decide (n / 5 * 64 < 2 ^ 64) then some (pcOf n) else none

end Sys2Proof.Machine
end

