-- ==== Sys2Proof/Machine/Float.lean ====
section
/-! DEFINITION. Number formats and arithmetic (R36-R60): integers narrowed once, floating values as exact numbers
(-1)^s · m · 2^e rounded once, block scales, the l6 logarithmic format, and the chunk rule. -/

namespace Sys2Proof

/-! ## Sticky flags and rounding modes (R42, R44) -/

/-- IV, bit 0 of FLAGS (R117). -/
def flagIV : Word := 0x01
/-- DZ. -/
def flagDZ : Word := 0x02
/-- OF. -/
def flagOF : Word := 0x04
/-- UF. -/
def flagUF : Word := 0x08
/-- NX. -/
def flagNX : Word := 0x10
/-- SAT. -/
def flagSAT : Word := 0x20

/-- A flag word when a condition holds. -/
def flagIf (c : Bool) (f : Word) : Word := if c then f else 0

/-- Rounding modes (R42). -/
inductive Rnd where
  | rne | rtz | rdn | rup
  deriving DecidableEq, Repr, Inhabited

/-- The mode of code `n` of FLAGS.RM (R42). -/
def Rnd.ofCode (n : Nat) : Rnd :=
  match n % 4 with
  | 0 => .rne | 1 => .rtz | 2 => .rdn | _ => .rup

/-- The mode in force: the override when it is 0b1xx, FLAGS.RM when it is 0 (R42). -/
def Rnd.inForce (rmo : Nat) (flags : Word) : Rnd :=
  if 4 ≤ rmo then Rnd.ofCode (rmo - 4) else Rnd.ofCode (flags.extractLsb' 6 2).toNat

/-! ## Integers (R36, R37) -/

/-- The low `w` bits of `x` read as a two's-complement integer. -/
def sxInt (w x : Nat) : Int :=
  let y := x % 2 ^ w
  if w = 0 then 0 else if y < 2 ^ (w - 1) then (y : Int) else (y : Int) - (2 ^ w : Nat)

/-- `x` read at an integer type (R36). -/
def tyInt (t x : Nat) : Int :=
  let w := tyWidth t
  if tyIsSigned t then sxInt w x else (x % 2 ^ w : Nat)

/-- `v` modulo 2^w (WRAP of R7). -/
def wrapNat (w : Nat) (v : Int) : Nat := (v % (2 ^ w : Nat)).toNat

/-- The least value of an integer type. -/
def tyMin (t : Nat) : Int := if tyIsSigned t then -(2 ^ (tyWidth t - 1) : Nat) else 0

/-- The greatest value of an integer type. -/
def tyMax (t : Nat) : Int :=
  if tyIsSigned t then (2 ^ (tyWidth t - 1) : Nat) - 1 else (2 ^ tyWidth t : Nat) - 1

/-- SATI (R7): the clamped value and SAT when it was clamped. -/
def sati (t : Nat) (v : Int) : Int × Word :=
  if v < tyMin t then (tyMin t, flagSAT) else if tyMax t < v then (tyMax t, flagSAT) else (v, 0)

/-- NARROW (R139, R158): the element's bits and the flags. -/
def narrow (t : Nat) (sat : Bool) (v : Int) : Nat × Word :=
  if sat then let r := sati t v; (wrapNat (tyWidth t) r.1, r.2) else (wrapNat (tyWidth t) v, 0)

/-- The quotient of R38 and R145 with its flag. -/
def divInt (t : Nat) (a b : Int) : Int × Word :=
  if b = 0 then (if tyIsSigned t then -1 else tyMax t, flagDZ)
  else if a = tyMin t && b = -1 && tyIsSigned t then (a, 0)
  else (a.tdiv b, 0)

/-- The remainder of R38 and R145 with its flag. -/
def remInt (t : Nat) (a b : Int) : Int × Word :=
  if b = 0 then (a, flagDZ) else if a = tyMin t && b = -1 && tyIsSigned t then (0, 0) else (a.tmod b, 0)

/-- SHL before writing (R144): the value's bits and SAT. -/
def shlInt (t : Nat) (sat : Bool) (a : Int) (s : Nat) : Nat × Word :=
  let w := tyWidth t
  if s < w then narrow t sat (a * (2 ^ s : Nat))
  else if !sat || a = 0 then (0, 0)
  else (wrapNat w (if a < 0 then tyMin t else tyMax t), flagSAT)

/-- SHR (R144): logical on the low w bits. -/
def shrBits (w x s : Nat) : Nat := if s < w then (x % 2 ^ w) >>> s else 0

/-- SAR (R144): arithmetic on the low w bits. -/
def sarBits (w x s : Nat) : Nat :=
  let a := sxInt w x
  if s < w then wrapNat w (a / (2 ^ s : Nat)) else if a < 0 then 2 ^ w - 1 else 0

/-! ## Floating values -/

/-- A floating value: a NaN, an infinity, or (-1)^neg · m · 2^e exactly. -/
inductive FVal where
  | nan (signalling : Bool)
  | inf (neg : Bool)
  | fin (neg : Bool) (m : Nat) (e : Int)
  deriving DecidableEq, Repr, Inhabited

/-- A floating format (R39, R41): exponent and fraction bits, bias, whether an all-ones exponent holds infinities and
NaNs, the greatest significand at the greatest quantum exponent, and the NaN the device writes (none for e2m1). -/
structure FFmt where
  ebits : Nat
  mbits : Nat
  bias : Nat
  ieee : Bool
  maxM : Nat
  maxQ : Int
  nan : Option Nat
  deriving DecidableEq, Repr, Inhabited

/-- The formats of R39 and R41. -/
def ffmt (t : Nat) : FFmt :=
  match t with
  | 0x10 => ⟨8, 7, 127, true, 0xFF, 120, some 0x7FC0⟩
  | 0x11 => ⟨5, 10, 15, true, 0x7FF, 5, some 0x7E00⟩
  | 0x13 => ⟨4, 3, 7, false, 14, 5, some 0x7F⟩
  | 0x14 => ⟨5, 2, 15, true, 7, 13, some 0x7E⟩
  | 0x15 => ⟨2, 1, 1, false, 3, 1, none⟩
  | _ => ⟨8, 23, 127, true, 0xFFFFFF, 104, some 0x7FC00000⟩

/-- The formats into which a conversion clamps (R45). -/
def tyIsNarrowF (t : Nat) : Bool := t == 0x13 || t == 0x14 || t == 0x15

/-- The value of an element's bits at a floating type (R39-R41). Narrow NaNs are quiet. -/
def fval (t x : Nat) : FVal :=
  let f := ffmt t
  let frac := x % 2 ^ f.mbits
  let ex := (x >>> f.mbits) % 2 ^ f.ebits
  let neg := (x >>> (f.mbits + f.ebits)) % 2 == 1
  if f.ieee && ex == 2 ^ f.ebits - 1 then
    if frac = 0 then .inf neg else .nan (!tyIsNarrowF t && frac >>> (f.mbits - 1) == 0)
  else if t == 0x13 && ex == 15 && frac == 7 then .nan false
  else if ex = 0 then .fin neg frac (1 - (f.bias : Int) - f.mbits)
  else .fin neg (frac + 2 ^ f.mbits) ((ex : Int) - f.bias - f.mbits)

/-- The canonical quiet NaN of a type, or +0 where it has none (R40, R45). -/
def fnan (t : Nat) : Nat := ((ffmt t).nan).getD 0

/-- Bits of a sign, a significand below 2^(mbits+1) and its quantum exponent. -/
def fpack (t : Nat) (neg : Bool) (m : Nat) (q : Int) : Nat :=
  let f := ffmt t
  let s := if neg then 1 <<< (f.mbits + f.ebits) else 0
  if m < 2 ^ f.mbits then s + m else s + ((q + f.mbits + f.bias).toNat <<< f.mbits) + (m - 2 ^ f.mbits)

/-- The bits of an infinity, where the format has one. -/
def finf (t : Nat) (neg : Bool) : Nat :=
  let f := ffmt t
  (if neg then 1 <<< (f.mbits + f.ebits) else 0) + ((2 ^ f.ebits - 1) <<< f.mbits)

/-- The bits of the largest finite magnitude. -/
def fmax (t : Nat) (neg : Bool) : Nat := fpack t neg (ffmt t).maxM (ffmt t).maxQ

/-- Whether the kept part of a magnitude is raised by one unit (R42): `rem`/`half` against the dropped part. -/
def roundsUp (r : Rnd) (neg : Bool) (kept rem half : Nat) (sticky : Bool) : Bool :=
  match r with
  | .rne => decide (half < rem) || (rem == half && half != 0 && (sticky || kept % 2 == 1))
  | .rtz => false
  | .rdn => neg && (rem != 0 || sticky)
  | .rup => !neg && (rem != 0 || sticky)

/-- A magnitude m·2^e (with `sticky`, strictly between m and m+1 units) cut to quantum exponent q: the kept units after
rounding, and whether that is inexact. -/
def cutTo (r : Rnd) (neg : Bool) (m : Nat) (e q : Int) (sticky : Bool) : Nat × Bool :=
  if q ≤ e then (m <<< (e - q).toNat, sticky)
  else
    let sh := (q - e).toNat
    let kept := m >>> sh
    let rem := m % 2 ^ sh
    let up := roundsUp r neg kept rem (2 ^ (sh - 1)) sticky
    (if up then kept + 1 else kept, rem != 0 || sticky)

/-- (-1)^neg · m · 2^e rounded into type `t` (ROUND of R7, with R43 and, where the type is narrow, the clamp of R45): the
bits and the flags OF, UF, NX and SAT. -/
def roundF (t : Nat) (r : Rnd) (neg : Bool) (m : Nat) (e : Int) (sticky : Bool := false) : Nat × Word :=
  let f := ffmt t
  if m = 0 then (fpack t neg 0 0, 0)
  else
    let top := e + (m.log2 : Int)
    let emin := 1 - (f.bias : Int)
    let q := max (top - f.mbits) (emin - f.mbits)
    let c := cutTo r neg m e q sticky
    let carry := decide (2 ^ (f.mbits + 1) ≤ c.1)
    let k := if carry then c.1 / 2 else c.1
    let q' := if carry then q + 1 else q
    -- tiny after rounding, judged with an unbounded exponent
    let u := cutTo r neg m e (top - f.mbits) sticky
    let tiny := decide (top < emin) && !(top == emin - 1 && decide (2 ^ (f.mbits + 1) ≤ u.1))
    let ovf := decide (f.maxQ < q') || (q' == f.maxQ && decide (f.maxM < k))
    if ovf then
      if tyIsNarrowF t then (fmax t neg, flagOF ||| flagNX ||| flagSAT)
      else
        let toInf := match r with
          | .rne => true | .rtz => false | .rdn => neg | .rup => !neg
        (if toInf then finf t neg else fmax t neg, flagOF ||| flagNX)
    else (fpack t neg k q', flagIf c.2 flagNX ||| flagIf (tiny && c.2) flagUF)

/-- The signed significand of a finite value scaled to exponent `b`, at most its own. -/
def scaleTo (neg : Bool) (m : Nat) (e b : Int) : Int :=
  let x : Int := ((m <<< (e - b).toNat : Nat) : Int)
  if neg then -x else x

/-- A signed multiple of 2^e rounded into `t`; an exact zero takes sign `zneg`. -/
def roundInt (t : Nat) (r : Rnd) (v e : Int) (zneg : Bool) : Nat × Word :=
  if v = 0 then (fpack t zneg 0 0, 0) else roundF t r (decide (v < 0)) v.natAbs e

/-- Whether a value is a signalling NaN. -/
def FVal.isSig : FVal → Bool
  | .nan s => s
  | _ => false

/-- Whether a value is a NaN. -/
def FVal.isNan : FVal → Bool
  | .nan _ => true
  | _ => false

/-- The sign of a value. -/
def FVal.neg : FVal → Bool
  | .nan _ => false
  | .inf n => n
  | .fin n _ _ => n

/-- The value with the opposite sign. -/
def FVal.opp : FVal → FVal
  | .nan s => .nan s
  | .inf n => .inf (!n)
  | .fin n m e => .fin (!n) m e

/-- IV when an operand is a signalling NaN (R44). -/
def sigFlag (xs : List FVal) : Word := flagIf (xs.any FVal.isSig) flagIV

/-- Addition of IEEE 754-2019 (R43, R44, R162). -/
def faddV (t : Nat) (r : Rnd) (a b : FVal) : Nat × Word :=
  match a, b with
  | .nan _, _ | _, .nan _ => (fnan t, sigFlag [a, b])
  | .inf x, .inf y => if x == y then (finf t x, 0) else (fnan t, flagIV)
  | .inf x, _ => (finf t x, 0)
  | _, .inf y => (finf t y, 0)
  | .fin n1 m1 e1, .fin n2 m2 e2 =>
    let b := min e1 e2
    let z := if m1 = 0 && m2 = 0 && n1 == n2 then n1 else r == .rdn
    roundInt t r (scaleTo n1 m1 e1 b + scaleTo n2 m2 e2 b) b z

/-- The product as an exact value, with IV for 0 × ∞ or a signalling operand. -/
def fmulV (a b : FVal) : FVal × Word :=
  match a, b with
  | .nan _, _ | _, .nan _ => (.nan false, sigFlag [a, b])
  | .inf x, .inf y => (.inf (x != y), 0)
  | .inf x, .fin n m _ => if m = 0 then (.nan false, flagIV) else (.inf (x != n), 0)
  | .fin n m _, .inf y => if m = 0 then (.nan false, flagIV) else (.inf (n != y), 0)
  | .fin n1 m1 e1, .fin n2 m2 e2 => (.fin (n1 != n2) (m1 * m2) (e1 + e2), 0)

/-- An exact value rounded into `t`; a NaN is canonical (R40). -/
def froundV (t : Nat) (r : Rnd) (x : FVal) : Nat × Word :=
  match x with
  | .nan _ => (fnan t, 0)
  | .inf n => (finf t n, 0)
  | .fin n m e => roundF t r n m e

/-- a × b rounded once. -/
def fmul (t : Nat) (r : Rnd) (a b : FVal) : Nat × Word :=
  let p := fmulV a b
  let q := froundV t r p.1
  (q.1, p.2 ||| q.2)

/-- a × b + c rounded once (fusedMultiplyAdd). -/
def ffma (t : Nat) (r : Rnd) (a b c : FVal) : Nat × Word :=
  let p := fmulV a b
  let q := faddV t r p.1 c
  (q.1, p.2 ||| q.2)

/-- a / b rounded once. -/
def fdiv (t : Nat) (r : Rnd) (a b : FVal) : Nat × Word :=
  match a, b with
  | .nan _, _ | _, .nan _ => (fnan t, sigFlag [a, b])
  | .inf _, .inf _ => (fnan t, flagIV)
  | .inf x, .fin n _ _ => (finf t (x != n), 0)
  | .fin n _ _, .inf y => (fpack t (n != y) 0 0, 0)
  | .fin n1 m1 e1, .fin n2 m2 e2 =>
    if m2 = 0 then (if m1 = 0 then (fnan t, flagIV) else (finf t (n1 != n2), flagDZ))
    else if m1 = 0 then (fpack t (n1 != n2) 0 0, 0)
    else
      let x := m1 <<< 64
      roundF t r (n1 != n2) (x / m2) (e1 - e2 - 64) (x % m2 != 0)

/-- The integer square root, bit by bit from bit `k`. -/
def isqrtFrom : Nat → Nat → Nat → Nat
  | 0, n, r => if (r + 1) * (r + 1) ≤ n then r + 1 else r
  | k + 1, n, r =>
    let r' := r + 2 ^ (k + 1)
    isqrtFrom k n (if r' * r' ≤ n then r' else r)

/-- The square root rounded once (R162). -/
def fsqrt (t : Nat) (r : Rnd) (a : FVal) : Nat × Word :=
  match a with
  | .nan s => (fnan t, flagIf s flagIV)
  | .inf n => if n then (fnan t, flagIV) else (finf t false, 0)
  | .fin n m e =>
    if m = 0 then (fpack t n 0 0, 0)
    else if n then (fnan t, flagIV)
    else
      let odd := e % 2 != 0
      let sh := if odd then 61 else 60
      let x := m <<< sh
      let s := isqrtFrom 48 x 0
      roundF t r false s ((e - sh) / 2) (s * s != x)

/-- The order of two numbers, −0 below +0 (R46): whether a orders below b. -/
def fbelow (a b : FVal) : Bool :=
  match a, b with
  | .inf x, .inf y => x && !y
  | .inf x, _ => x
  | _, .inf y => !y
  | .fin n1 m1 e1, .fin n2 m2 e2 =>
    let c := min e1 e2
    let x := scaleTo n1 m1 e1 c
    let y := scaleTo n2 m2 e2 c
    decide (x < y) || (x == y && n1 && !n2)
  | _, _ => false

/-- minimumNumber or maximumNumber (R46) on the elements' bits. -/
def fminmax (t : Nat) (isMax : Bool) (x y : Nat) : Nat × Word :=
  let a := fval t x
  let b := fval t y
  if a.isSig || b.isSig then (fnan t, flagIV)
  else if a.isNan && b.isNan then (fnan t, 0)
  else if a.isNan then (y, 0)
  else if b.isNan then (x, 0)
  else if isMax then (if fbelow a b then y else x, 0) else (if fbelow b a then y else x, 0)

/-- Comparison by value, −0 = +0: less and equal; neither with a NaN (R164). -/
def fcmp (a b : FVal) : Bool × Bool :=
  match a, b with
  | .nan _, _ | _, .nan _ => (false, false)
  | .inf x, .inf y => (x && !y, x == y)
  | .inf x, _ => (x, false)
  | _, .inf y => (!y, false)
  | .fin n1 m1 e1, .fin n2 m2 e2 =>
    let c := min e1 e2
    let x := scaleTo n1 m1 e1 c
    let y := scaleTo n2 m2 e2 c
    (decide (x < y), x == y)

/-- CMPOK of R139 on "less" and "equal". -/
def cmpOk (c : Nat) (lt eq : Bool) : Bool :=
  match c with
  | 0 => eq | 1 => !eq | 2 => lt | 3 => !lt | 4 => !lt && !eq | _ => lt || eq

/-! ## Conversions (R45) -/

/-- Float to float. -/
def cvtFF (t : Nat) (r : Rnd) (x : FVal) : Nat × Word :=
  match x with
  | .nan s => (fnan t, flagIf (s || t == 0x15) flagIV)
  | .inf n =>
    if t == 0x13 then (fnan t, flagIV)
    else if t == 0x15 then (fmax t n, flagIV ||| flagSAT)
    else (finf t n, 0)
  | .fin n m e => roundF t r n m e

/-- A finite value rounded to an integer: the integer and whether it is inexact. -/
def roundToInt (r : Rnd) (n : Bool) (m : Nat) (e : Int) : Int × Bool :=
  let c := cutTo r n m e 0 false
  (if n then -(c.1 : Int) else c.1, c.2)

/-- Float to integer. -/
def cvtFI (t : Nat) (r : Rnd) (x : FVal) : Nat × Word :=
  let w := tyWidth t
  match x with
  | .nan _ => (0, flagIV)
  | .inf n => (wrapNat w (if n then tyMin t else tyMax t), flagIV)
  | .fin n m e =>
    let c := roundToInt r n m e
    if c.1 < tyMin t then (wrapNat w (tyMin t), flagIV)
    else if tyMax t < c.1 then (wrapNat w (tyMax t), flagIV)
    else (wrapNat w c.1, flagIf c.2 flagNX)

/-- Integer to float; a narrow target clamps as in a narrowing (DEDUCED, log entry 20). -/
def cvtIF (t : Nat) (r : Rnd) (v : Int) : Nat × Word := roundInt t r v 0 false

/-! ## Block scales (R47) -/

/-- x · 2^k, exact. -/
def FVal.scale (x : FVal) (k : Int) : FVal :=
  match x with
  | .fin n m e => .fin n m (e + k)
  | y => y

/-- SCALEFOR (R168): 127 + the least t in −127..127 with m·2^e ≤ F·2^t; 127 for 0. -/
def scaleFor (m : Nat) (e : Int) (f : Nat) : Nat :=
  if m = 0 then 127
  else
    -- m·2^e ≤ f·2^t, tried upward from a t that is too small
    let t0 : Int := e + (m.log2 : Int) - (f.log2 : Int) - 1
    let le (t : Int) : Bool :=
      let b := min e t
      decide (m <<< (e - b).toNat ≤ f <<< (t - b).toNat)
    let t := if le t0 then t0 else if le (t0 + 1) then t0 + 1 else t0 + 2
    (127 + max (-127) (min 127 t)).toNat

/-- The largest finite magnitude F that SCALEFOR uses for a type (R168). -/
def scaleF (t : Nat) : Nat :=
  match t with
  | 0x13 => 448 | 0x14 => 57344 | 0x15 => 6 | 0x01 => 127 | _ => 7

/-! ## l6 (R48-R52) -/

/-- The constants C of R49. -/
def l6C (f : Nat) : Nat :=
  match f with
  | 0 => 0x10000 | 1 => 0x13070 | 2 => 0x16A0A | _ => 0x1AE89

/-- An l6 code is zero, NaR, or a sign and a logarithm (R48). -/
inductive L6 where
  | zero | nar | num (neg : Bool) (l : Int)
  deriving DecidableEq, Repr

/-- R48. -/
def l6Of (x : Nat) : L6 :=
  let y := x % 64
  if y = 0x10 then .zero else if y = 0x30 then .nar else .num (32 ≤ y) (sxInt 5 y)

/-- The linear value of a log sum Σ in units of 2^-24 (R49). -/
def l6Lin (neg : Bool) (s : Int) : Int :=
  let q := s / 4
  let f := (s % 4).toNat
  let x : Int := ((l6C f <<< (q + 8).toNat : Nat) : Int)
  if neg then -x else x

/-- The value of an l6 element; NaR as a quiet NaN (R166, R170). -/
def l6Val (x : Nat) : FVal :=
  match l6Of x with
  | .zero => .fin false 0 0
  | .nar => .nan false
  | .num n l => .fin n (l6Lin false l).natAbs (-24)

/-- The product of two l6 elements (R50). -/
def l6Mul (a b : Nat) : Nat × Word :=
  match l6Of a, l6Of b with
  | .nar, _ | _, .nar => (0x30, 0)
  | .zero, _ | _, .zero => (0x10, 0)
  | .num s1 l1, .num s2 l2 =>
    let s := if s1 != s2 then 32 else 0
    if l1 + l2 < -15 then (0x10, flagUF ||| flagNX)
    else if 15 < l1 + l2 then (s + 15, flagSAT)
    else (s + wrapNat 5 (l1 + l2), 0)

/-- The candidates of R51 step 2 tried in ascending L from `l`, keeping the nearest; ties go to the even L. -/
def l6Near (mi : Int) (base : Int) : Nat → Int → (Int × Int) → (Int × Int)
  | 0, _, best => best
  | k + 1, l, best =>
    let cv : Int := ((l6C (l % 4).toNat <<< (l / 4 - 16 - base).toNat : Nat) : Int)
    let d := (mi - cv).natAbs
    let keep := decide ((best.2 : Int) < d) || (decide (best.2 = d) && l % 2 != 0)
    l6Near mi base k (l + 1) (if keep then best else (l, d))

/-- Conversion of a linear value to l6 (R51). -/
def toL6 (x : FVal) : Nat × Word :=
  match x with
  | .nan _ | .inf _ => (0x30, flagIV)
  | .fin n m e =>
    if m = 0 then (0x10, 0)
    else
      let base := min e (-20)
      let mi : Int := ((m <<< (e - base).toNat : Nat) : Int)
      let s := if n then 32 else 0
      let top : Int := ((l6C 3 <<< (3 - 16 - base).toNat : Nat) : Int)
      if top < mi then (s + 15, flagSAT ||| flagNX)
      else
        let r := l6Near mi base 31 (-15) (-16, mi)
        if r.1 = -16 then (0x10, flagUF ||| flagNX) else (s + wrapNat 5 r.1, flagIf (r.2 != 0) flagNX)

/-! ## Values of any element type, and the chunk rule (R56, R57) -/

/-- VAL (R56): the exact value of an element of an integer, floating or l6 type. -/
def val (t x : Nat) : FVal :=
  if t = 0x16 then l6Val x
  else if tyIsInt t then let v := tyInt t x; .fin (decide (v < 0)) v.natAbs 0
  else fval t x

/-- The exact sum of two values: NaN with IV for ∞ − ∞. -/
def faddExact (a b : FVal) : FVal × Word :=
  match a, b with
  | .nan _, _ | _, .nan _ => (.nan false, 0)
  | .inf x, .inf y => if x == y then (.inf x, 0) else (.nan false, flagIV)
  | .inf x, _ => (.inf x, 0)
  | _, .inf y => (.inf y, 0)
  | .fin n1 m1 e1, .fin n2 m2 e2 =>
    let b := min e1 e2
    let v := scaleTo n1 m1 e1 b + scaleTo n2 m2 e2 b
    (.fin (decide (v < 0)) v.natAbs b, 0)

/-- VAL(a) * VAL(b) for an element of type `ta` and one of type `tb`; the l6 product is read from the unnarrowed log sum
(R50, R56). -/
def mulV (ta a tb b : Nat) : FVal × Word :=
  if ta = 0x16 ∧ tb = 0x16 then
    match l6Of a, l6Of b with
    | .nar, _ | _, .nar => (.nan false, 0)
    | .zero, _ | _, .zero => (.fin false 0 0, 0)
    | .num s1 l1, .num s2 l2 => (.fin (s1 != s2) (l6Lin false (l1 + l2)).natAbs (-24), 0)
  else fmulV (val ta a) (val tb b)

/-- The products of a chunk added one by one. -/
def chunkFold : List (FVal × Word) → FVal × Word → FVal × Word
  | [], s => s
  | p :: xs, (s, w) =>
    let r := faddExact s p.1
    chunkFold xs (r.1, w ||| p.2 ||| r.2)

/-- Whether a value is an infinity of a sign. -/
def FVal.isInf (neg : Bool) (x : FVal) : Bool :=
  match x with
  | .inf n => n == neg
  | _ => false

/-- The exact sum of the products of one chunk (R56): +∞ and −∞ among them set IV wherever they stand. -/
def chunkSum (ps : List (FVal × Word)) (s : FVal × Word) : FVal × Word :=
  let r := chunkFold ps s
  if (ps.any fun p => p.1.isInf false) && (ps.any fun p => p.1.isInf true) then (r.1, r.2 ||| flagIV) else r

/-- acc := RNE(acc + s · 2^k, f32) (R56): the accumulator's new bits and the flags. -/
def chunkAcc (acc : Nat) (s : FVal × Word) (k : Int) : Nat × Word :=
  let a := fval 0x12 acc
  let x := s.1.scale k
  match a, x with
  | .nan g, _ => (fnan 0x12, s.2 ||| flagIf g flagIV)
  | _, .nan _ => (fnan 0x12, s.2)
  | _, _ => let r := faddV 0x12 .rne a x; (r.1, s.2 ||| r.2)

/-- One integer chunk (R57): acc + s narrowed to i32. -/
def chunkInt (sat : Bool) (acc : Nat) (s : Int) : Nat × Word := narrow 0x03 sat (tyInt 0x03 acc + s)

/-- Σ of integer products of a chunk. -/
def chunkSumInt : List (Int × Int) → Int
  | [] => 0
  | (a, b) :: xs => a * b + chunkSumInt xs

end Sys2Proof
end

