-- ==== Sys2Proof/Machine/Flags.lean ====
section
/-! DEFINITION. The flags and conditions of R42, R44, R117, R127 and R139 as instructions use them. -/

namespace Sys2Proof.Machine

/-- The rounding mode in force for an instruction with override field `rmo` (R42, R158). -/
def Slot.rnd (t : Slot) (rmo : Nat) : Rnd := Rnd.inForce rmo t.seenFlags

/-- The conditions of BRC on a scalar (R127): eq0, ne0, lt0, ge0, gt0, le0. -/
def condScalar (c : Nat) (x : Word) : Bool := cmpOk c (decide (x.toInt < 0)) (x == 0)

/-- CMPOK (R139) on integers. -/
def cmpInt (c : Nat) (x y : Int) : Bool := cmpOk c (decide (x < y)) (decide (x = y))

/-- The conditions of VCMP on floating values (R164): false with a NaN but for `.ne`, and `.uo` true only then. -/
def cmpFloat (c : Nat) (a b : FVal) : Bool :=
  if a.isNan || b.isNan then c == 1 || c == 6
  else if c = 6 then false
  else let r := fcmp a b; cmpOk c r.1 r.2

/-- 1 or 0. -/
def boolWord (b : Bool) : Word := if b then 1 else 0

/-- The union of flag words. -/
def orFlags : List Word → Word
  | [] => 0
  | x :: xs => x ||| orFlags xs

/-- EFMT as a write leaves it, or none for a value that leaves WIDTH or VAR4 at 0b11 (R117). -/
def efmtWritten (x : Word) : Option Word :=
  let y := x &&& 0x3F
  if y.extractLsb' 0 2 == 3 || y.extractLsb' 4 2 == 3 then none else some y

end Sys2Proof.Machine
end

