-- ==== Sys2Proof/Machine/Operands.lean ====
section
/-! DEFINITION. Operand forms (R73-R75, R118, R160): which registers an instruction reads and writes, the checks made at
its issue (R82 steps 6 to 9), the parking of reads and W destinations (R26), and the issue and completion that every
meaning shares. -/

namespace Sys2Proof.Machine

/-! ## Which registers a form reads and writes -/

/-- Registers 0-95 with their T or W bits. -/
structure Uses where
  reads : List (Nat × Bool) := []
  writes : List (Nat × Bool) := []
  /-- registers that no port may be bound to -/
  bar : List Nat := []
  /-- the operand that names a register read, or written (R371: 1 D, 2 A, 3 B, 4 C) -/
  rnames : List (Nat × Nat) := []
  wnames : List (Nat × Nat) := []
  deriving DecidableEq, Repr, Inhabited

/-- `n` registers from the one a byte names, each with the byte's flag; none when it names no g or v register. -/
def regsFrom (b : BitVec 8) (n : Nat) : List (Nat × Bool) :=
  if opName b < 96 then (List.range n).map fun i => (opName b + i, opFlag b) else []

/-- The registers of one operand position. -/
def usesOfKind (k : Kind) (ty : Nat) (m : BitVec 6) (isSys : Bool) (b : BitVec 8) : Uses :=
  match k with
  | .src | .vsrc => { reads := regsFrom b 1 }
  | .dst | .vdst => { writes := regsFrom b 1 }
  | .srcDst => { reads := regsFrom b 1, writes := regsFrom b 1 }
  | .evenDst => { writes := regsFrom b 2 }
  | .dst60 => { writes := regsFrom b 4 }
  | .dst61 => { writes := regsFrom b 3 }
  | .key => { reads := regsFrom b (if ty = 0x21 then 2 else 1) }
  | .cword => { reads := regsFrom b 2 }
  | .launchArg => if isSys then { reads := regsFrom b 1 } else {}
  | .optSrc => if m.getLsbD 0 then { reads := regsFrom b 1 } else {}
  | .none | .psrc | .pdst | .tile | .raw | .special => {}

/-- Both. -/
def Uses.join (x y : Uses) : Uses :=
  { reads := x.reads ++ y.reads, writes := x.writes ++ y.writes, rnames := x.rnames ++ y.rnames, wnames := x.wnames ++ y.wnames }

/-- The registers of operand `n`, named as its. -/
def Uses.name (u : Uses) (n : Nat) : Uses := { u with rnames := u.reads.map fun r => (r.1, n), wnames := u.writes.map fun r => (r.1, n) }

/-- The operand that names a register, 0 for none. -/
def nameOf (l : List (Nat × Nat)) (r : Nat) : Nat := (aget l r).getD 0

/-- Numbers of the bits set in a mask below `n`, from `base`. -/
def maskRegs (n m base : Nat) : List Nat := ((List.range n).filter fun i => m.testBit i).map (base + ·)

/-- The registers of positions that an instruction's own rule governs. -/
def extraUses (x : Extra) (b : Body) (t vw : Nat) : Uses :=
  let m := b.mod
  let na := 16384 / (if vw = 0 then 1 else vw)
  let kk := match t with
    | 0x10 | 0x11 => 32
    | 0x15 => 128
    | _ => 64
  let nc := (32 * kk) / (if vw = 0 then 1 else vw)
  match x with
  | .brc => if 6 ≤ m.toNat % 8 then {} else Uses.name { reads := regsFrom b.a 1 } 2
  | .trd => Uses.name { writes := regsFrom b.d 1 } 1
  | .twr => Uses.name { reads := regsFrom b.b 1 } 3
  | .vsplit => Uses.name { writes := regsFrom b.d 3 } 1
  | .vqnt => Uses.name (if m.getLsbD 4 then { writes := regsFrom b.c 1 } else { reads := regsFrom b.c 1 }) 4
  | .mma => (Uses.name { reads := regsFrom b.a na } 2).join (Uses.name { reads := if m.getLsbD 4 then regsFrom b.c nc else [] } 4)
  | .mdrain => if t = 1 ∨ t = 5 then Uses.name { reads := regsFrom b.b 4 } 3 else {}
  | .kiter => Uses.name { writes := regsFrom b.d (if t = 0x21 then 4 else 3) } 1
  | .sendr => Uses.name { reads := regsFrom b.c 1 } 4
  | .xmig => Uses.name { reads := (maskRegs 32 (b.imm % 2 ^ 32) 0 ++ maskRegs 8 b.b.toNat 32 ++ maskRegs 8 b.c.toNat 40).map (·, false) } 7
  | _ => {}

/-- The registers of an instruction that fault PORT whatever port is bound to them (R167, R168, R187, R192). -/
def portBar (i : Instr) (u : Uses) : List Nat :=
  match i with
  | .mma _ | .mrd _ | .mwr _ => (u.reads ++ u.writes).map (·.1)
  | .vsplit _ => u.writes.map (·.1)
  | .vqnt f => if f.mod.getLsbD 4 then (regsFrom f.c 1).map (·.1) else []
  | _ => []

/-- The registers an instruction reads and writes. -/
def usesOf (i : Instr) (efmt : Word) (vw : Nat) (isSys : Bool) : Uses :=
  match i.view with
  | none => {}
  | some v =>
    let b := v.body
    let t := resolveTy efmt b.ty
    let of (k : Kind) (r : BitVec 8) (n : Nat) : Uses := (usesOfKind k b.ty b.mod isSys r).name n
    let u := (((of v.spec.d b.d 1).join (of v.spec.a b.a 2)).join ((of v.spec.b b.b 3).join (of v.spec.c b.c 4))).join (extraUses v.spec.x b t vw)
    { u with bar := portBar i u }

/-! ## Reading operands -/

/-- A scalar source (R118, R141): a register, zr, or a read-only name; on a system core the names read as those of core 0 of its
device, and slot as its number (DEDUCED, log entry 82). -/
def State.rs (s : State) (b : BitVec 8) : Word :=
  let n := opName b
  if n < 64 then (if s.isCtx && 48 ≤ n then 0 else (s.thread.read n).setWidth 64)
  else
    let c := s.namedCore s.myCore
    let compute := decide (c % 4096 < 1024)
    match n with
    | 113 => BitVec.ofNat 64 s.mySlot
    | 114 => BitVec.ofNat 64 (c % 4096)
    | 115 => if compute then BitVec.ofNat 64 (c % 4096 / 8) else BitVec.allOnes 64
    | 116 => if compute then BitVec.ofNat 64 (c % 4096 / 128) else BitVec.allOnes 64
    | 117 => BitVec.ofNat 64 (devOf c)
    | 118 => BitVec.ofNat 64 c
    | _ => 0

/-- Values of width `w` packed from the least significant. -/
def packLanes (w : Nat) : List Nat → Nat
  | [] => 0
  | x :: xs => x % 2 ^ w + (packLanes w xs <<< w)

/-- `lanes` (R118) at lane width `w`: lane i holds i modulo 2^w. -/
def laneIndices (vw w : Nat) : VReg :=
  BitVec.ofNat 2048 (packLanes w (List.range (vw / (if w = 0 then 8 else w))))

/-- Element `i` of a vector value at a type (R154). -/
def elem (t : Nat) (x : VReg) (i : Nat) : Nat :=
  if t = 0x16 then (x.toNat >>> (32 * (i / 5) + 6 * (i % 5))) % 64
  else let w := if tyWidth t = 0 then 8 else tyWidth t; (x.toNat >>> (w * i)) % 2 ^ w

/-- The groups of five l6 elements packed in words (R52). -/
def packL6 : List Nat → Nat
  | a :: b :: c :: d :: e :: xs => packLanes 6 [a, b, c, d, e] + (packL6 xs <<< 32)
  | xs => packLanes 6 xs

/-- A vector value of elements at a type (R154). -/
def ofElems (t : Nat) (xs : List Nat) : VReg :=
  BitVec.ofNat 2048 (if t = 0x16 then packL6 xs else packLanes (if tyWidth t = 0 then 8 else tyWidth t) xs)

/-- `lanes` as an instruction of type `t` reads it, lane i at 8 bits where TY has no width (DEDUCED, log entry 65). -/
def lanesAt (vw t : Nat) : VReg :=
  if t = 0x16 then ofElems t (List.range (lanes vw t)) else laneIndices vw (if tyWidth t = 0 then 8 else tyWidth t)

/-- A vector source (R160), read at the type `t` of the operand, by which `lanes` takes its lane width (log entry 65). -/
def State.rv (s : State) (t : Nat) (b : BitVec 8) : VReg :=
  let n := opName b
  if 64 ≤ n ∧ n < 96 then s.vmask (s.thread.read n)
  else if n = 119 then lanesAt s.part.vw t else 0

/-- A predicate source. -/
def State.rp (s : State) (b : BitVec 8) : PReg := s.thread.readP (opName b - 96)

/-- The writes of a scalar destination; zr discards (R74). -/
def wrS (b : BitVec 8) (x : Word) : List Wr := if opName b < 64 then [.g (opName b) x] else []

/-- The writes of a vector destination. -/
def wrV (b : BitVec 8) (x : VReg) : List Wr :=
  if 64 ≤ opName b ∧ opName b < 96 then [.v (opName b - 64) x] else []

/-- The writes of a predicate destination. -/
def wrP (b : BitVec 8) (x : PReg) : List Wr :=
  if 96 ≤ opName b ∧ opName b < 104 then [.p (opName b - 96) x] else []

/-- What a vector destination keeps where the instruction does not write it: its bits, or 0 for an output end (R157). -/
def State.keepV (s : State) (b : BitVec 8) : VReg :=
  let n := opName b
  if 64 ≤ n ∧ n < 96 then (if (s.thread.port n).isSome then 0 else s.vmask (s.thread.reg n)) else 0

/-- The accumulator that VDOT and VLACC read in D (R170, R171): its bits, or 0 for an output end (DEDUCED, log entry 83). -/
def State.accV (s : State) (b : BitVec 8) : VReg :=
  let n := opName b
  if 64 ≤ n ∧ n < 96 then (if (s.thread.port n).isSome then 0 else s.vmask (s.thread.read n)) else 0

/-! ## The checks of R82, steps 5 to 9 -/

/-- The encodings a system core executes (R389). -/
def sysRuns (op sub : Nat) : Bool :=
  decide (op ≤ 0x12) || op == 0x60 || op == 0x61 || (op == 0x66 && decide (sub ≤ 1)) || op == 0x69 || op == 0x98
    || (op == 0x8B && decide (1 ≤ sub))

/-- The encodings a channel core context executes (R273). -/
def ctxRuns (op sub : Nat) : Bool :=
  decide (op ≤ 0x06) || (decide (0x10 ≤ op) && decide (op ≤ 0x12)) || op == 0x60 || op == 0x61
    || (op == 0x66 && decide (sub ≤ 1)) || (op == 0x80 && (sub == 1 || sub == 5 || sub == 6))

/-- The restriction of R81 and R273 on the current thread. -/
def State.privBad (s : State) (p : Priv) : Bool :=
  match p with
  | .none => false
  | .shepherd => match s.cur with
    | .slot _ k => k != 0
    | _ => false
  | .system => !s.isSys
  | .ctxOnly => !s.isCtx

/-- T or W on g48-g63 in a context (R273). -/
def ctxFlagBad (u : Uses) : Bool :=
  (u.reads ++ u.writes).any fun r => r.2 && decide (48 ≤ r.1) && decide (r.1 < 64)

/-- A plat entry that this core's fold copy holds, as its record stands (R336). -/
def State.platRaw (s : State) (n : Nat) : Option Line := aget (s.fold (foldOf s.myCore)).plats n

/-- The scale row of FDIN and FDOUT, reserved for a plat without scales (R71, R236): the operand named by the fault. -/
def State.scaleRowBad (s : State) (i : Instr) : Option Nat :=
  let bad (p1 : BitVec 12) (imm : BitVec 16) : Option Nat :=
    match s.platRaw p1.toNat with
    | some l => if imm.toNat / 256 != 0 && l.extractLsb' 400 8 != 8 then some 7 else none
    | none => none
  match i with
  | .fdin f => bad f.p1 f.imm
  | .fdout f => bad f.p1 f.imm
  | _ => none

/-- Steps 5 to 9 of R82 for the current thread, and what of step 10 the fields alone decide. -/
def State.precheck (s : State) (i : Instr) : Option FaultInfo :=
  match i.view with
  | none => none
  | some v =>
    let efmt := s.thread.ety
    let vw := s.part.vw
    let sys := s.isSys
    -- an absent unit's encodings fault UNIT_ABSENT, never ILLEGAL_OP (R10, R80)
    if v.spec.unit != .none && !s.part.full then some (stepFault .unitAbsent 6 0)
    else if (sys && !sysRuns v.op v.sub) || (s.isCtx && !ctxRuns v.op v.sub) then some (stepFault .illegalOp 5 0)
    else
      match (i.check7 efmt vw sys).or (s.scaleRowBad i) with
      | some n => some (stepFault .illegalOp 7 n)
      | none =>
        if s.privBad v.spec.priv then some (stepFault .priv 8 0)
        else
          match i.check9 efmt vw sys with
          | some n => some (stepFault .illegalOperand 9 n)
          | none =>
            if s.isCtx && ctxFlagBad (usesOf i efmt vw sys) then some (stepFault .illegalOperand 9 0)
            -- an entry PC whose TMASK bit is clear (R68; log entry 67)
            else if s.thread.entry then some { code := .badTarget, addr := s.thread.pc }
            else (i.check10 vw).map (stepFault .illegalOperand 10)

/-! ## Reads, W and ports at issue (R7, R26, R75, R119, R120) -/

/-- A port fault of a read of register `r` (R120, R216). -/
def Slot.readFault (t : Slot) (r : Nat) : Option FaultInfo :=
  match if (t.latched r).isSome then none else t.port r with
  | none => none
  | some p =>
    match p.kind with
    | .output | .qsend => some (flt .port)
    | .qrecv => none
    | .input => if !p.buf.isEmpty then none
                else if p.count ≤ p.done then some (flt .port) else p.fault.map fun f => { f with port := some r }

/-- A port fault of a write of register `r` (R120, R216). -/
def Slot.writeFault (t : Slot) (r : Nat) : Option FaultInfo :=
  match t.port r with
  | none => none
  | some p =>
    match p.kind with
    | .input | .qrecv => some (flt .port)
    | .qsend => none
    | .output => match p.fault with
      | some f => some { f with port := some r }
      | none => if p.count ≤ p.done then some (flt .port) else none

/-- The first fault of a list of registers. -/
def firstFault (f : Nat → Option FaultInfo) : List Nat → Option FaultInfo
  | [] => none
  | r :: rs => match f r with
    | some x => some x
    | none => firstFault f rs

/-- The greatest timestamp that the first reads of these registers bring (R119). -/
def Slot.readTs (t : Slot) : List Nat → Nat
  | [] => 0
  | r :: rs =>
    let x := if (t.latched r).isSome then 0
      else match t.port r with
        | some p => if p.isIn then (p.buf.head?.map (·.ts)).getD 0 else 0
        | none => (aget t.fillTs r).getD 0
    max x (t.readTs rs)

/-- The reads and destinations of an instruction at issue: a PORT fault, a park on an empty source or a full W
destination, or the state with PTS raised by first reads and the emptyings and pops its completion will make. The take sources
`prior` of a pair's first instruction count as empty for a W destination of the second (R77). -/
def State.prepare (s : State) (u : Uses) (prior : List Nat := []) : Chk (State × Eff) :=
  let t := s.thread
  let rs := (u.reads.map (·.1)).eraseDups
  let ws := (u.writes.map (·.1)).eraseDups
  let named (names : List (Nat × Nat)) (g : Nat → Option FaultInfo) (r : Nat) : Option FaultInfo :=
    (g r).map fun f => if f.opnd = 0 then { f with opnd := nameOf names r } else f
  let barred (r : Nat) : Option FaultInfo := if (t.port r).isSome then some (flt .port) else none
  match firstFault (named (u.rnames ++ u.wnames) barred) u.bar with
  | some f => .bad f
  | none =>
  match firstFault (named u.rnames t.readFault) rs with
  | some f => .bad f
  | none =>
    match firstFault (named u.wnames t.writeFault) ws with
    | some f => .bad f
    | none =>
      let empties := rs.filter fun r => !((t.latched r).isSome || t.full r)
      if !empties.isEmpty then .wait (.empty empties)
      else
        let takes := ((u.reads.filter fun r => r.2 && (t.port r.1).isNone).map (·.1)).eraseDups
        let fulls := ((u.writes.filter fun w => w.2 && (t.port w.1).isNone && t.full w.1 && !takes.contains w.1 && !prior.contains w.1).map (·.1))
          ++ ws.filter fun r => s.outFull s.myCore t r
        if !fulls.isEmpty then .wait (.full fulls)
        else
          let pops := rs.filter fun r => (t.port r).isSome
          let pts := max (max t.pts ((t.again.map (·.rts)).getD 0)) (t.readTs rs)
          .ok (s.setThread { t with pts := pts },
            { takes := takes, pops := pops, pts := pts, seen := rs, wdest := ((u.writes.filter (·.2)).map (·.1)).eraseDups })

/-! ## Issue and completion -/

/-- The environment's choice for the next blocking operation (log entry 5). -/
def State.deferNow (s : State) : Nat := s.env.defer.headD 0

/-- That choice consumed. -/
def State.popDefer (s : State) : State := { s with env := { s.env with defer := s.env.defer.tail } }

/-- The environment's choice of what a path performs next, consumed (log entry 5). -/
def State.popPick (s : State) : State := { s with env := { s.env with pick := s.env.pick.tail } }

/-- The completion of an effect. An instruction that parks by nature (`w`) completes when its reply arrives: at once, or,
where the environment holds the reply back, in REPLY_ARRIVAL, its slot being PARKED meanwhile with PTS as at issue. -/
def State.finish (s : State) (w : Option Wait) (pts0 : Nat) (e : Eff) : State :=
  match w with
  | none => s.commit e
  | some r =>
    if s.deferNow = 1 then
      let t := s.thread
      s.popDefer.setThread { t with pts := pts0, st := .parked, wait := some r, again := none, reply := some { e with pts := max e.pts t.pts } }
    else s.popDefer.commit e

/-- The park of an instruction whose page is to be walked (R343): the miss enters the die's table, or merges with one there, and a
walker of the thread's pasture begins when one is free. -/
def State.enterMiss (s : State) (d space page : Nat) : State :=
  let x := s.die d
  if (x.misses.any fun m => m.space == space && m.page == page) || 256 ≤ x.misses.length then s
  else
    let p := pastureOf (s.tlbCore s.cur)
    let busy := (s.dies.map fun y => (y.2.misses.filter fun m => m.walking && m.pasture == p).length).sum
    let m : Miss := { space := space, page := page, root := s.rootOf s.cur, pasture := p, walking := decide (busy < 64) }
    { s.setDie d { x with misses := x.misses ++ [m] } with env := { s.env with walk := s.env.walk.tail } }

/-- An instruction that has had no effect parks; a taken branch whose target line is not at hand stalls instead (R68). -/
def State.parkOn (s : State) (w : Wait) : State :=
  match w with
  | .walk d sp page => (s.enterMiss d sp page).park w
  | .line ln => { s.setThread { s.thread with fetchWait := some ln, st := .runnable, wait := none } with env := { s.env with stall := s.env.stall.tail } }
  | w => s.park w

/-- The current thread has sent its request and waits for `w`; its PTS is that of its issue (R26, R29). -/
def State.waiting (s : State) (pts : Nat) (w : Wait) : State :=
  s.setThread { s.thread with pts := pts, st := (match w with | .tile _ => .held | _ => .parked), wait := some w, again := none }

/-- A fault of the current thread's instruction: what the fetch of a target that it has checked, or that fails its check, corrected stays
corrected and counted (R64, R68), and so does what a translation that faults leaves (R343). -/
def State.fail (s : State) (f : FaultInfo) : State :=
  let s := match f.fetched with
    | some pc => s.targetFetch pc
    | none => s
  (if f.code == .badTarget && isSlotAddr f.addr then s.targetFetch f.addr else s.noteFault s.cur f).raise f

/-- The issue of an instruction by the current thread: the checks of R82 in order, the reads, and the effect `body`; a
fault leaves the state but for R368. -/
def State.run (s : State) (i : Instr) (w : Option Wait) (body : State → Eff → Res) : State :=
  match s.precheck i with
  | some f => s.raise f
  | none =>
    match s.prepare (usesOf i s.thread.ety s.part.vw s.isSys) with
    | .bad f => s.raise f
    | .wait x => s.parkOn x
    | .ok (s1, e) =>
      match body s1 e with
      | .fault f => s.fail f
      | .park x => s.parkOn x
      | .done s2 e2 => s2.finish w s.thread.pts e2
      | .sent s2 x => s2.waiting s.thread.pts x

/-- The meaning of an instruction: its issue always answers a next state. -/
def meaning (i : Instr) (w : Option Wait) (body : State → Eff → Res) (s : State) : Host.Outcome State Fault Refusal :=
  .next (s.run i w body)

/-- An instruction of fixed latency that writes one scalar destination and sticky flags. -/
def doneS (s : State) (e : Eff) (d : BitVec 8) (x : Word) (fl : Word := 0) : Res :=
  .done s { e with writes := e.writes ++ wrS d x, sticky := e.sticky ||| fl }

/-- One that writes one vector destination. -/
def doneV (s : State) (e : Eff) (d : BitVec 8) (x : VReg) (fl : Word := 0) : Res :=
  .done s { e with writes := e.writes ++ wrV d x, sticky := e.sticky ||| fl }

end Sys2Proof.Machine
end

