-- ==== Sys2Proof/Machine/Waits.lean ====
section
/-! DEFINITION. When a parked thread's condition holds (R26, R129, R379), when work of one path has completed and with
which timestamp (R206, R226), and which slots the wheel may issue (R24, R122). -/

namespace Sys2Proof.Machine

/-! ## Completed work (R226) -/

/-- Whether the work a condition names has completed. -/
def State.condDone (s : State) (x : Cond) : Bool :=
  match x with
  | .copy c n =>
    let later (x y : Nat) : Bool := x != c || decide (n < y)
    ((s.core c).cq.all fun e => match e with
      | .cmd m => later m.core m.num
      | .walk .. => true)
      && (s.chain.all fun r => later r.core r.num)
      && s.cores.all fun x => (x.2.crun.toList ++ x.2.cover).all fun r => later r.cmd.core r.cmd.num
  | .field _ f n => decide (n ≤ (s.fold f).fseq)
  | .stream c k r b n =>
    match (s.slot c k).port r with
    | some p => p.kind != .output || p.num != b || decide (n ≤ p.ahead)
    | none => true
  | .matrix c n =>
    let x := s.core c
    (x.mq.all fun o => decide (n < o.num)) && (x.mrun.all fun o => decide (n < o.num))
  | .key c n => s.posted.all fun p => p.core != c || decide (n < p.num)
  | .near c n =>
    (s.packets.all fun p => p.core != c || decide (n < p.num)) &&
      s.channels.all fun x => x.2.deferred.all fun p => p.core != c || decide (n < p.num)
  | .thread _ => true
  | .access w a => let t := (s.as w).thread; !(t.st == .parked && (t.wait == some .served || t.vec.isSome) && t.lastIssue == a)
  | .fetch c k ln => (s.slot c k).fetchWait != some ln
  | .overlay ch w b => match aget (s.chan ch).windows w with
    | some x => x.arrived || x.base != b
    | none => true

/-- The timestamp above which work that waited on it is served: at least every write timestamp of that work. -/
def State.condMark (s : State) (x : Cond) : Nat :=
  match x with
  | .copy c _ => (s.core c).cmark
  | .field c _ _ => (s.core c).fdmark
  | .stream c .. => (s.core c).smark
  | .matrix c _ => (s.core c).mmark
  | .key c _ => (s.core c).slots.toList.foldl (fun m t => t.posted.foldl (fun m p => max m p.2) m) 0
  | .near c _ => (s.core c).slots.toList.foldl (fun m t => max m t.near) 0
  | .thread ts => ts
  | .access .. | .fetch .. | .overlay .. => 0

/-- All of a list. -/
def State.condsDone (s : State) (cs : List Cond) : Bool := cs.all s.condDone

/-- The greatest mark of a list. -/
def State.condsMark (s : State) (cs : List Cond) : Nat := cs.foldl (fun m c => max m (s.condMark c)) 0

/-- A write of timestamp `w` by work that has completed, and that the FENCEX of a parked thread waits for (`mine` of its conditions
name it), kept for that thread's PTS (R226). -/
def Slot.noteFence (t : Slot) (mine : Cond → Bool) (w : Nat) : Slot :=
  match t.wait, t.reply with
  | some (.fence cs), some e => if cs.any mine then { t with reply := some { e with pts := max e.pts w } } else t
  | _, _ => t

/-- That, for every thread of a core. -/
def Core.noteFence (c : Core) (mine : Cond → Bool) (w : Nat) : Core := { c with slots := c.slots.map fun t => t.noteFence mine w }

/-- The conditions that the fences of a core lay on work of class `cl` issued now (R226). -/
def Core.fenced (c : Core) (cl : Nat) : List Cond := (aget c.fences cl).getD []

/-! ## Tables of a launch, as waits read them -/

/-- Barrier `b` of a launch. -/
def State.barrier (s : State) (l b : Nat) : Barrier :=
  (((s.launch? l).bind fun x => aget x.barriers b).getD { phase := 0, members := [], arrivals := [], marks := [] })

/-- The device of a place. -/
def Place.dev : Place → Nat
  | .core c => devOf c
  | .fold f => f / 128
  | .pasture p => p / 8

/-- Whether a launch's transit store on device `d` takes another capsule (R314; log entry 68). -/
def Launch.transitRoom (l : Launch) (d : Nat) : Bool := decide ((l.transit.filter fun x => x.place.dev == d).length < 256)

/-- The park-queue header words TAIL, HEAD and SIZE of a launch (R327). -/
def State.parkRoom (s : State) (l : Launch) : Bool :=
  decide (s.mem.readNat (l.park + 8) 8 - s.mem.readNat l.park 8 < s.mem.readNat (l.park + 16) 4)

/-- Entries of a copy engine's queue, the one under way among them (R219). -/
def Core.copyEntries (c : Core) : Nat := c.cq.length + c.cover.length + (if c.cwalk.isSome || c.crun.isSome then 1 else 0)

/-- Entries of a fold's field queue, the command under way among them (R233). -/
def Fold.fieldEntries (f : Fold) : Nat := f.fq.length + (if f.frun.isSome then 1 else 0)

/-! ## Pre-emption's wait (R378 step 2) -/

/-- Whether a thread waits, by its message or fill, on a full inbox or an occupied holder. -/
def State.sending (s : State) (c : Nat) : Bool :=
  let mine (x : Option (Who × BitVec 8 × Eff)) : Bool := match x with
    | some (.slot i _, _, _) => i == c
    | _ => false
  (s.msgs.any fun m => mine m.sender) || (s.fills.any fun m => mine m.sender) || s.cores.any fun x => x.2.heldMsgs.any fun m => mine m.sender

/-- Whether a parked instruction must complete before its core is saved: a division, a CAPNEW or CAPNEXT that the transit store is to
take, a SEND whose way is not open. -/
def Slot.holdsSave (t : Slot) : Bool :=
  t.st == .parked && match t.wait with
    | some .divide | some (.transit _) => true
    | some (.route _) => match t.again with
      | some b => match b.first with
        | .send _ | .sendR _ | .sendFar _ => true
        | _ => false
      | none => false
    | _ => false

/-- Whether every issued instruction that a save lets complete has completed. -/
def State.quietCore (s : State) (c : Nat) : Bool :=
  let x := s.core c
  x.mq.isEmpty && x.mrun.isNone && !s.sending c && x.slots.toList.all fun t => !t.holdsSave

/-! ## Wait conditions -/

/-- Whether the condition of a wait holds that is one for every thread. -/
def State.sharedHolds (s : State) (w : Wait) : Bool :=
  match w with
  | .fence cs | .settled cs => s.condsDone cs
  | .quiet cs => cs.isEmpty || cs.any fun c => s.quietCore c || !(s.core c).heldMsgs.isEmpty
  | .page c p => !(s.core c).unpinned p
  | .poisoned ln => !s.dev.poisoned.contains ln
  | .moduleFree m => ((aget s.dev.modules m).getD {}).st == 0
  | .excRoom => decide (s.dev.excq.length < 4096)
  | .launchDone l => match s.launch? l with
    | some y => y.st == .retired
    | none => true
  | .launchRunning l => match s.launch? l with
    | some y => y.st != .placing && y.st != .preempted
    | none => true
  | .walk d sp page =>
    let ms := (s.die d).misses
    !(ms.any fun m => m.space == sp && m.page == page) && decide (ms.length < 256)
  | _ => false

/-- Whether the condition of a wait of slot `k` of core `c` holds, so that its instruction goes on. A reply is brought by an
agent's step and never holds here. -/
def State.holds (s : State) (c k : Nat) (w : Wait) : Bool :=
  let x := s.core c
  let t := x.slot k
  match w with
  | .empty rs => rs.all fun r => t.full r || (t.readFault r).isSome
  | .full rs => rs.all fun r => if (t.port r).isSome then !s.outFull c t r || (t.writeFault r).isSome else !t.full r
  | .ready => t.ready
  | .eseq n => decide (n ≤ x.eseq)
  | .fseq n => decide (n ≤ (s.fold (foldOf c)).fseq)
  | .message => !x.inbox.isEmpty
  | .inboxRoom => decide (x.inbox.length < 32)
  | .copyRoom => decide (x.copyEntries < 32)
  | .fieldRoom => decide ((s.fold (foldOf c)).fieldEntries < 16)
  | .capsule => (List.range 2).any fun b => ((x.bays[b]?).getD {}).assigned == some k
  | .siblings =>
    let sib := (List.range x.nslots).filter (· != 0)
    (sib.any fun j => (x.slot j).st == .faulted) ||
      sib.all fun j => (x.slot j).st == .idle || (x.slot j).st == .stopped || (x.slot j).st == .ended
  | .stopping j => (x.slot j).st == .stopped || (x.slot j).st == .faulted || (x.slot j).st == .idle || (x.slot j).st == .ended
  | .drain r => match t.port r with
    | some p => p.buf.isEmpty || p.fault.isSome
    | none => true
  | .tile n => (x.pend[n]?).getD 0 == 0
  | .posted m => s.posted.all fun p => !(p.core == c && p.slot == k && p.mapNo == m)
  | .transit d => match x.launch.bind s.launch? with
    | some l => l.transitRoom d && s.routed (devOf c) d
    | none => true
  | .park => match x.launch.bind s.launch? with
    | some l => s.parkRoom l
    | none => true
  | .round n => match aget s.dev.trees n with
    | some tr => tr.contribs.all fun q => (tr.nodes[q.1]?).map (fun y => (y.2.2, y.2.1)) != some (c, k)
    | none => true
  | .route d => s.routed (devOf c) d
  | w => s.sharedHolds w

/-- Whether a wait is of an instruction that has had no effect, and that goes on from its beginning when the condition holds (R6). -/
def Wait.reissues : Wait → Bool
  | .reply | .served | .near | .matrix | .divide | .follow | .packets | .stopping _ | .fence _ | .settled _ | .moduleFree _ | .launchDone _
  | .launchRunning _ | .lead _ | .phase .. | .tile _ | .line _ | .transit _ => false
  | _ => true

/-- Whether a barrier's agent holds the operation that waits (R356, R358). -/
def Wait.atBarrier : Wait → Bool
  | .lead _ | .phase .. => true
  | _ => false

/-- Whether what a wait waits for is state of its own core, so that pre-emption saves the instruction as not issued (R379). -/
def Wait.isLocal : Wait → Bool
  | .empty _ | .full _ | .ready | .eseq _ | .fseq _ | .message | .inboxRoom | .copyRoom | .fieldRoom | .capsule | .siblings | .drain _
  | .tile _ => true
  | _ => false

/-- Whether a context's wait has ended. -/
def State.ctxHolds (s : State) (ch i : Nat) (x : Ctx) (w : Wait) : Bool :=
  match w with
  | .row _ r => !((s.chan ch).locks.any fun l => l.1 == r && l.2.1 != i)
  | .empty rs => rs.all fun r => x.thread.full r
  | .full rs => rs.all fun r => !x.thread.full r
  | .packets =>
    (s.packets.all fun p => !(p.core == x.core && p.slot == x.slot)) &&
      s.channels.all fun y => y.2.deferred.all fun p => !(p.core == x.core && p.slot == x.slot)
  | .route d => s.routed (ch / 256) d
  | w => s.sharedHolds w

/-- Whether a system core's wait has ended. -/
def State.sysHolds (s : State) (t : Slot) (w : Wait) : Bool :=
  match w with
  | .empty rs => rs.all fun r => t.full r
  | .full rs => rs.all fun r => !t.full r
  | .route d => s.routed s.dev.devnum d
  | .ready => t.ready
  | w => s.sharedHolds w

/-! ## What the wheel may issue (R24, R122, R126) -/

/-- Whether 8 ac have passed since a thread's last issue, and the ac in which it became runnable (R24, R26, R122). -/
def State.rested (s : State) (t : Slot) : Bool :=
  decide (t.wakeAt ≤ s.ac) && match t.lastIssue with
  | none => true
  | some a => decide (a + 8 ≤ s.ac)

/-- Whether an instruction is a branch whose outcome a follower finds for itself (R126). -/
def isOwnBranch (i : Instr) : Bool :=
  match i with
  | .brc _ | .dbnz _ | .brx _ | .jmp _ => true
  | _ => false

/-- Whether a follower has its next bundle, and for a branch the bellwether's outcome (R126). -/
def Slot.followReady (t : Slot) : Bool :=
  match t.followBuf with
  | [] => false
  | b :: _ => !isOwnBranch b.first || b.out.isSome

/-- Whether a thread is RUNNABLE and awaits no line. -/
def Slot.runs (t : Slot) : Bool := t.st == .runnable && t.fetchWait.isNone

/-- Whether the wheel of core `c` may issue slot `k` now. -/
def State.mayIssue (s : State) (c k : Nat) : Bool :=
  let t := s.slot c k
  t.runs && s.rested t && (!t.follow || t.followReady)

/-! ## Stalls and waits counted in an ac (R361, R362) -/

/-- The fetch-stall class a slot counts in (R362): a follow buffer that does not give the next bundle, an uncorrectable nearest copy,
or the deepest instruction cache that missed. -/
def State.stallClass (s : State) (c : Nat) (t : Slot) : Option Nat :=
  if t.st != .runnable || !s.rested t then none
  else if t.follow && !t.followReady then some 7
  else t.fetchWait.map fun ln =>
    match s.codeCopy c ln 0 with
    | some (k, x) => if (verifyLine x).isNone then 8 else if k ≤ 2 then 4 else k + 2
    | none => 6

/-- What one slot adds to the fixed counters of its core in an ac. -/
def State.countSlot (s : State) (c : Nat) (x : Core) (t : Slot) : Core :=
  match t.st with
  | .parked => x.addFixed 9 1
  | .held => x.addFixed 10 1
  | _ => match s.stallClass c t with
    | some i => x.addFixed i 1
    | none => x

/-- The first number in ascending rotation after `last` that qualifies (R24). -/
def rotate (n last : Nat) (ok : Nat → Bool) : Option Nat :=
  (List.range n).findSome? fun i => let k := (last + 1 + i) % n; if ok k then some k else none

/-- Whether core `c` issues at all: placed or a gateway core, and not pre-empted. -/
def State.coreLive (s : State) (c : Nat) : Bool :=
  let x := s.core c
  (x.launch.isSome || s.isGateway c) && !x.saved && !x.stopping && x.escal.isEmpty

end Sys2Proof.Machine
end

