-- ==== Sys2Proof/Machine/Issue.lean ====
section
/-! DEFINITION. The wheel's issue of a bundle (R24, R77, R78, R82 steps 1 to 5, R122-R126, R273, R376), the arrival of
replies and of fetched lines, and following. -/

namespace Sys2Proof.Machine

/-- The answer of a step of an agent. -/
def answer (s : State) : Host.Outcome State Fault Refusal := .next s

/-! ## The bundle at a PC -/

/-- The register in D of an instruction, for the comparison of R77: only a D that the instruction writes counts (log entry 69). -/
def dKind (i : Instr) : Option (BitVec 8) :=
  i.view.bind fun v =>
    match v.spec.d with
    | .dst | .srcDst | .vdst | .pdst => some v.body.d
    | .special => some v.body.d
    | _ => none

/-- R77's classes and destinations. -/
def pairBad (op1 op2 : Nat) (i1 i2 : Option Instr) : Bool :=
  let first := decide (op1 ≤ 0x06) || (decide (0x10 ≤ op1) && decide (op1 ≤ 0x12))
  let second := op2 == 0x30 || (decide (0x32 ≤ op2) && decide (op2 ≤ 0x36))
  let shared := match i1.bind dKind, i2.bind dKind with
    | some a, some b => opName a == opName b && opName a != 112
    | _, _ => false
  !first || !second || shared

/-- The bundle in slot `pc` of a line, or the fault of steps 3 to 5; a second instruction with no assigned OP and SUB is judged after
the first's steps (R82). -/
def bundleAt (l : Line) (pc : Word) : Except FaultInfo Bundle :=
  match lineWordBad l with
  | some f => .error f
  | none =>
    let n := pc.toNat % 8
    let w1 := slotBits l n
    let i1 := decodeSlot w1
    if (pmask l).testBit n then
      let w2 := slotBits l (n + 1)
      let i2 := decodeSlot w2
      if pairBad (w1.extractLsb' 88 8).toNat (w2.extractLsb' 88 8).toNat i1 i2 then .error (stepFault .badPair 4 0)
      else
        match i1, i2 with
        | none, _ => .error (stepFault .illegalOp 5 0)
        | some a, none => .ok { pc := pc, first := a, bad2 := true }
        | some a, some b => .ok { pc := pc, first := a, second := some b }
    else
      match i1 with
      | none => .error (stepFault .illegalOp 5 0)
      | some a => .ok { pc := pc, first := a }

/-- The bundle the current thread issues: the substitute of R376, the follow buffer's oldest (R126), or the one fetched;
with the state after the fetch. An entry PC's clear TMASK bit is noted for step 10 (R68; log entry 67). A PC that is no slot address
faults BAD_TARGET before the fetch (DEDUCED, log entry 81). -/
def State.bundle (s : State) : State × Except FaultInfo Bundle :=
  let t := s.thread
  match t.subst with
  | some w =>
    (s, match decodeSlot w with
      | some a => .ok { pc := t.pc, first := a }
      | none => .error (stepFault .illegalOp 5 0))
  | none =>
    match (if t.follow then t.followBuf else []) with
    | b :: bs => (s.setThread { t with followBuf := bs }, .ok b)
    | [] =>
      if !isSlotAddr t.pc then (s, .error { code := .badTarget, addr := t.pc })
      else
        let r := s.fetch s.cur t.pc
        match r.2 with
        | .bad f => (r.1, .error f)
        | .line l =>
          if t.entry && !(tmask l).testBit (t.pc.toNat % 8) then (r.1, (bundleAt l t.pc).map fun b => { b with entryBad := true })
          else (r.1, bundleAt l t.pc)

/-- The line that the current thread's next issue awaits (R122, R124). -/
def State.stalls (s : State) : Option Nat :=
  let t := s.thread
  if t.follow || t.subst.isSome || !isSlotAddr t.pc then none else s.lineAway t.pc

/-- Slot `k` of core `c`, when it is to issue and its line is not at hand, stalls (R122, R362). -/
def State.markStall (s : State) (c k : Nat) : State :=
  if !s.mayIssue c k then s
  else
    match (s.as (.slot c k)).stalls with
    | none => s
    | some ln => { s.setSlot c k { s.slot c k with fetchWait := some ln } with env := { s.env with stall := s.env.stall.tail } }

/-- A turn of the wheel of core `c` begins: the power cap has let it issue (R406), and the slots that await their lines stall. -/
def State.turn (s : State) (c : Nat) : State :=
  let s := { s with env := { s.env with gate := s.env.gate.tail } }
  (List.range (s.core c).nslots).foldl (fun s k => s.markStall c k) s

/-! ## Following (R125, R126) -/

/-- The other cores of a core's fold. -/
def foldMates (c : Nat) : List Nat := (coresOf (foldOf c)).filter (· != c)

/-- A bundle that slot `k` of core `c` has issued is copied to its followers, and to a slot whose FLW awaits it; the
ninth unexecuted bundle ends follow mode (R125, R126). One that has been HELD (`told`) was copied when it was issued first. -/
def State.copyToFollowers (s : State) (c k : Nat) (b : Bundle) (told : Bool := false) : State :=
  (foldMates c).foldl (fun s x =>
    let t := s.slot x k
    if t.bell != some c || (told && (t.follow || !t.followBuf.isEmpty)) then s
    else if t.follow then
      (if 8 ≤ t.followBuf.length then s.setSlot x k { t.setFollow false with followBuf := [], bell := none }
       else s.setSlot x k { t with followBuf := t.followBuf ++ [b] })
    else if t.wait = some .follow then
      (if 8 ≤ t.followBuf.length then s.setSlot x k { t with bell := none }
       else if !t.followBuf.isEmpty then s.setSlot x k { t with followBuf := t.followBuf ++ [b] }
       else if b.pc = succPc t.pc 1 then s.setSlot x k { t with followBuf := [b] } else s)
    else s) s

/-- The last bundle that slot `k` of core `c` issues before its followers leave it: a slot whose FLW awaits that bundle still gets it
(R125, R126). -/
def State.lastBundle (s : State) (c k : Nat) (b : Bundle) : State := (s.copyToFollowers c k b).dropFollowers c k

/-- Whether an issue that a fault of steps 4 or 5 ends is one of a pair (R77, R361). -/
def State.atPair (s : State) (f : FaultInfo) : Bool :=
  let t := s.thread
  t.subst.isNone && (f.step == 4 || f.step == 5) && match (s.fetch s.cur t.pc).2 with
    | .line l => (pmask l).testBit (t.pc.toNat % 8)
    | .bad _ => false

/-- The current thread issues: its bundle is left in `issue` for the step to run; a fault of steps 1 to 5 is taken at
once. Either counts as an issue (R122, R361; log entry 47). -/
def State.issueThread (s : State) : State :=
  let s := s.setThread { s.thread with lastIssue := some s.ac, wait := none, again := none, peer := none }
  let s := match s.cur with
    | .slot c k => s.setCore c (((s.core c).addFixed 1 1).count 1 k)
    | _ => s
  let s := if s.env.stall.head? = some 0 then { s with env := { s.env with stall := s.env.stall.tail } } else s
  let r := s.bundle
  let s := r.1
  match r.2 with
  | .error f =>
    let b : Bundle := { (default : Bundle) with pc := s.thread.pc }
    match s.cur with
    | .slot c k => ((if s.atPair f then s.setCore c ((s.core c).addFixed 2 1) else s).raise f).lastBundle c k b
    | _ => s.raise f
  | .ok b =>
    let s := s.setThread { s.thread with entry := b.entryBad }
    let s := match s.cur with
      | .slot c _ => if b.second.isSome || b.bad2 then s.setCore c ((s.core c).addFixed 2 1) else s
      | _ => s
    { s with issue := some b }

/-- The threads of a channel core or of the system cores that may issue. -/
def State.otherMayIssue (s : State) (w : Who) : Bool :=
  match w with
  | .ctx ch i =>
    match aget (s.chan ch).ctxs i with
    | some x => x.fault.isNone && !x.returning && x.thread.runs && s.rested x.thread
        -- the lines of an overlay still arriving hold back the fetch (R276)
        && (s.windowOf ch x.launch x.thread.pc).all (·.2.arrived)
    | none => false
  | .sys n =>
    let t := (s.dev.sysThreads[n]?).getD Slot.initial
    t.runs && s.rested t && !s.dev.poisoned.contains (t.pc.toNat / 64) && s.routed s.dev.devnum (t.pc.toNat / 2 ^ 39)
  | .slot c k => s.coreLive c && s.mayIssue c k

/-- BUNDLE_ISSUE: one ac of an issuer's wheel (R24, R273): the first slot in rotation that qualifies issues, or the ac is
a bubble. -/
def execBundleIssue (a : Issuer) (s : State) : Host.Outcome State Fault Refusal :=
  answer <|
    match a with
    | .core c =>
      if (s.core c).launch.isNone && !s.isGateway c then s
      else if s.env.gate.headD 0 = 1 then
        { s.setCore c ((s.core c).addFixed 3 1) with env := { s.env with gate := s.env.gate.tail } }
      else if !s.coreLive c then s.setCore c ((s.core c).addFixed 3 1)
      else
        let s := s.turn c
        let x := s.core c
        match rotate 16 x.lastSlot (fun k => decide (k < x.nslots) && s.mayIssue c k) with
        | none => s.setCore c (x.addFixed 3 1)
        | some k => ((s.setCore c { x with lastSlot := k }).as (.slot c k)).issueThread
    | .chan ch =>
      match rotate 16 (s.chan ch).lastCtx (fun i => s.otherMayIssue (.ctx ch i)) with
      | none => s
      | some i => ((s.setChan ch { s.chan ch with lastCtx := i }).as (.ctx ch i)).issueThread
    | .sys n => if s.otherMayIssue (.sys n) then (s.as (.sys n)).issueThread else s

/-! ## Replies and lines -/

/-- A status written with its refused bit set (R129). -/
def refuseWr (w : Wr) : Wr :=
  match w with
  | .g n x => .g n (x ||| 0x80)
  | x => x

/-- A status written as `n`. -/
def statusWr (n : Nat) (w : Wr) : Wr :=
  match w with
  | .g r _ => .g r (BitVec.ofNat 64 n)
  | x => x

/-- A slot fetches ahead of its issue (R123), by a translation that a TLB holds: a line that cannot be corrected is dropped. -/
def State.runAhead (s : State) (c k : Nat) : State :=
  match s.aheadVa c k with
  | some (va, ln) => ((s.tlbEnter (.slot c k) va).readCode c ln).1
  | none => s

/-- FETCH_LINE_ARRIVAL: the code line a thread waits for arrives (R122, R124), and a taken branch that stalled goes on (R68); or a
line that a slot fetched ahead (R123). -/
def execFetchLineArrival (w : Who) (s : State) : Host.Outcome State Fault Refusal :=
  answer <|
    let s := s.as w
    let t := s.thread
    match t.fetchWait, w with
    | some ln, _ =>
      if !s.lineComes w t ln then s
      else
        -- the ac in which the line comes is one of its stall (R122, R362)
        let s := match w with
          | .slot c k => s.setCore c (s.countSlot c (s.core c) (s.slot c k))
          | _ => s
        let s := s.setThread { s.thread with fetchWait := none, wakeAt := s.ac + 1 }
        let s := match w with
          | .slot c _ => (s.readCode c ln).1
          | _ => s
        { s with issue := t.again }
    | none, .slot c k => s.runAhead c k
    | none, _ => s

/-! ## Joining and leaving (R125, R126) -/

/-- FLW's pending completion with the value `v` for D. -/
def flwEff (e : Eff) (v : Word) : Eff :=
  { e with writes := e.writes.map fun w => match w with
      | .g n _ => .g n v
      | w => w }

/-- FOLLOW_JOIN: the awaited bundle has come, D := 1 and FOLLOW is set (R125); where the bellwether is already left (R126), the slot
goes on by its own fetch. -/
def execFollowJoin (c k : Nat) (s : State) : Host.Outcome State Fault Refusal :=
  answer <|
    let s := s.as (.slot c k)
    let t := s.thread
    match t.reply with
    | some e =>
      if t.wait = some .follow ∧ !t.followBuf.isEmpty ∧ t.blocked e = [] then
        let s := s.commit (flwEff e 1)
        if t.bell.isNone then s.setThread { s.thread with followBuf := [] }
        else (s.setThread (s.thread.setFollow true)).dropFollowers c k
      else s
    | none => s

/-- FLW_TIMEOUT: 256 ac have passed without it, D := 0 (R125). -/
def execFlwTimeout (c k : Nat) (s : State) : Host.Outcome State Fault Refusal :=
  answer <|
    let s := s.as (.slot c k)
    let t := s.thread
    match t.reply with
    | some e =>
      if t.wait = some .follow ∧ t.followBuf.isEmpty ∧ t.flwSince + 256 ≤ s.ac ∧ t.blocked e = [] then
        (s.setThread { t with bell := none }).commit (flwEff e 0)
      else s
    | none => s

/-- The outcome of a branch of slot `k` of core `c` that completed after its issue, given to its followers (R126). -/
def State.tellFollowers (s : State) (c k : Nat) (b : Bundle) (out : Word × Bool) : State :=
  (foldMates c).foldl (fun s x =>
    let t := s.slot x k
    if t.bell != some c then s
    else s.setSlot x k { t with followBuf := t.followBuf.map fun y => if y.pc == b.pc && y.out.isNone then { y with out := some out } else y }) s

/-- A bundle that parks, with what its issue has read (R6): EFMT, FLAGS, the predicates, the sources that are full with the timestamps
of their fills, and the registers that it writes, which an accumulator may be. -/
def State.latch (s : State) (b : Bundle) : Bundle :=
  let t := s.thread
  let uses (i : Instr) : Uses := usesOf i t.ety s.part.vw s.isSys
  let us := uses b.first :: (b.second.map uses).toList
  let reads := (us.flatMap fun u => u.reads.map (·.1)).eraseDups
  let seen := reads.filter fun r => (t.latched r).isSome || t.full r
  let dests := (us.flatMap fun u => u.writes.map (·.1)).eraseDups.filter fun r => !reads.contains r && (t.port r).isNone
  { b with rerun := true, efmt := t.ety, flags := t.seenFlags,
           vals := (seen ++ dests).map (fun r => (r, t.read r)) ++ (List.range 8).map fun n => (96 + n, (t.readP n).setWidth 2048),
           rts := max ((t.again.map (·.rts)).getD 0) (t.readTs seen) }

/-- A bundle whose instruction has parked or stalled before any effect is kept, to go on when its condition holds (R6, R68), or to be
issued again when TSTOP abandons its wait (R131). -/
def State.keepAgain (s : State) (b : Bundle) : State :=
  let t := s.thread
  if t.fetchWait.isSome || (t.st == .parked && t.reply.isNone && (t.wait.map fun w => w.reissues || w.atBarrier).getD false)
  then s.setThread { t with again := some (s.latch b) } else s

/-- Whether an instruction is TEND, after which no slot follows its issuer (R126). -/
def isTend (i : Instr) : Bool :=
  match i with
  | .tend _ => true
  | _ => false

/-- After a bundle has run for the current thread: what is kept of one that parked; at its issue the copies for its followers, the last
one where it faults, stops, ends or executes TEND, and at its completion a branch's outcome; and the end of its own following when its
outcome differs from the bellwether's (R126). -/
def State.afterIssue (s : State) (b : Bundle) : State :=
  let s := s.keepAgain b
  match s.cur with
  | .slot c k =>
    let t := s.slot c k
    let complete := t.fetchWait.isNone && (t.st == .runnable || t.st == .ended || t.st == .stopped)
    let out := if complete then some (t.pc, t.taken) else none
    let leaves := t.st == .faulted || t.st == .stopped || t.st == .ended || (complete && isTend b.first)
    let s :=
      if b.rerun then
        let s := if complete && isOwnBranch b.first then s.tellFollowers c k b (t.pc, t.taken) else s
        if leaves then s.dropFollowers c k else s
      else
        let s := s.copyToFollowers c k { b with out := out } t.told
        let s := s.setSlot c k { s.slot c k with told := t.st == .held }
        if leaves then s.dropFollowers c k else s
    if !t.follow then s
    else if complete && isOwnBranch b.first && b.out != out then
      s.setSlot c k { (s.slot c k).setFollow false with followBuf := [], bell := none }
    else if t.st == .held then
      -- the instruction issues again once its tile is unlocked
      s.setSlot c k { s.slot c k with followBuf := b :: (s.slot c k).followBuf }
    else s
  | _ => s

end Sys2Proof.Machine
end

