-- ==== Sys2Proof/Machine/Scalar.lean ====
section
/-! DEFINITION. OP 0x10, 0x11 and 0x12 (R139-R153): integer and address instructions. Each meaning is a body over shared
operand forms, which a pair uses too (R77). -/

namespace Sys2Proof.Machine

/-! ## Forms (R139) -/

/-- The 64-bit two's-complement form of a result's bits at a type (R139). -/
def extTy (t x : Nat) : Word := BitVec.ofInt 64 (tyInt t x)

/-- IN(op) (R139). -/
def State.inTy (s : State) (t : Nat) (b : BitVec 8) : Int := tyInt t (s.rs b).toNat

/-- The low w bits of a source. -/
def State.bitsTy (s : State) (t : Nat) (b : BitVec 8) : Nat := (s.rs b).toNat % 2 ^ tyWidth t

/-- A result that NARROW forms (R139). -/
def doneNarrow (s : State) (e : Eff) (f : FmtR) (v : Int) : Res :=
  let r := narrow f.ty.toNat (f.mod.getLsbD 1) v
  doneS s e f.d (extTy f.ty.toNat r.1) r.2

/-- A result given by its bits at TY. -/
def doneBits (s : State) (e : Eff) (f : FmtR) (x : Nat) : Res := doneS s e f.d (extTy f.ty.toNat x)

/-- The signed immediate of format I. -/
def simmI (f : FmtI) : Int := f.imm.toInt

/-- The width in bytes that LEA scales by (R148), for TY 0x00 one byte. -/
def esize (t : Nat) : Nat := if tyWidth t = 0 then 1 else if tyWidth t < 8 then (if t = 0x16 then 4 else 1) else tyWidth t / 8

/-- The address A + B (scaled) + displacement (R148, R207). -/
def State.ea (s : State) (f : FmtR) (size : Nat) : Word :=
  s.rs f.a + (if f.mod.getLsbD 0 then s.rs f.b * BitVec.ofNat 64 size else s.rs f.b) + f.imm.signExtend 64

/-! ## OP 0x10 -/

/-- ADD (R142, R143). -/
def addBody (f : FmtR) (s : State) (e : Eff) : Res :=
  let t := f.ty.toNat
  doneNarrow s e f (s.inTy t f.a + s.inTy t f.b)

/-- The meaning of ADD. -/
def execAdd (f : FmtR) (s : State) : Host.Outcome State Fault Refusal := meaning (.add f) none (addBody f) s

/-- SUB. -/
def subBody (f : FmtR) (s : State) (e : Eff) : Res :=
  let t := f.ty.toNat
  doneNarrow s e f (s.inTy t f.a - s.inTy t f.b)

/-- The meaning of SUB. -/
def execSub (f : FmtR) (s : State) : Host.Outcome State Fault Refusal := meaning (.sub f) none (subBody f) s

/-- MUL. -/
def mulBody (f : FmtR) (s : State) (e : Eff) : Res :=
  let t := f.ty.toNat
  doneNarrow s e f (s.inTy t f.a * s.inTy t f.b)

/-- The meaning of MUL. -/
def execMul (f : FmtR) (s : State) : Host.Outcome State Fault Refusal := meaning (.mul f) none (mulBody f) s

/-- MULH (R143): the upper w bits of the exact product. -/
def mulhBody (f : FmtR) (s : State) (e : Eff) : Res :=
  let t := f.ty.toNat
  doneBits s e f (wrapNat (tyWidth t) (s.inTy t f.a * s.inTy t f.b / (2 ^ tyWidth t : Nat)))

/-- The meaning of MULH. -/
def execMulh (f : FmtR) (s : State) : Host.Outcome State Fault Refusal := meaning (.mulh f) none (mulhBody f) s

/-- MADD: narrowed once after the exact sum. -/
def maddBody (f : FmtR) (s : State) (e : Eff) : Res :=
  let t := f.ty.toNat
  doneNarrow s e f (s.inTy t f.a * s.inTy t f.b + s.inTy t f.c)

/-- The meaning of MADD. -/
def execMadd (f : FmtR) (s : State) : Host.Outcome State Fault Refusal := meaning (.madd f) none (maddBody f) s

/-- DIV (R38, R145). -/
def divBody (f : FmtR) (s : State) (e : Eff) : Res :=
  let t := f.ty.toNat
  let q := divInt t (s.inTy t f.a) (s.inTy t f.b)
  doneS s e f.d (extTy t (wrapNat (tyWidth t) q.1)) q.2

/-- The meaning of DIV. -/
def execDiv (f : FmtR) (s : State) : Host.Outcome State Fault Refusal := meaning (.div f) none (divBody f) s

/-- REM (R38, R145). -/
def remBody (f : FmtR) (s : State) (e : Eff) : Res :=
  let t := f.ty.toNat
  let q := remInt t (s.inTy t f.a) (s.inTy t f.b)
  doneS s e f.d (extTy t (wrapNat (tyWidth t) q.1)) q.2

/-- The meaning of REM. -/
def execRem (f : FmtR) (s : State) : Host.Outcome State Fault Refusal := meaning (.rem f) none (remBody f) s

/-- AND. -/
def andBody (f : FmtR) (s : State) (e : Eff) : Res :=
  let t := f.ty.toNat
  doneBits s e f (s.bitsTy t f.a &&& s.bitsTy t f.b)

/-- The meaning of AND. -/
def execAnd (f : FmtR) (s : State) : Host.Outcome State Fault Refusal := meaning (.and f) none (andBody f) s

/-- OR. -/
def orBody (f : FmtR) (s : State) (e : Eff) : Res :=
  let t := f.ty.toNat
  doneBits s e f (s.bitsTy t f.a ||| s.bitsTy t f.b)

/-- The meaning of OR. -/
def execOr (f : FmtR) (s : State) : Host.Outcome State Fault Refusal := meaning (.or f) none (orBody f) s

/-- XOR. -/
def xorBody (f : FmtR) (s : State) (e : Eff) : Res :=
  let t := f.ty.toNat
  doneBits s e f (s.bitsTy t f.a ^^^ s.bitsTy t f.b)

/-- The meaning of XOR. -/
def execXor (f : FmtR) (s : State) : Host.Outcome State Fault Refusal := meaning (.xor f) none (xorBody f) s

/-- SHL (R144). -/
def shlBody (f : FmtR) (s : State) (e : Eff) : Res :=
  let t := f.ty.toNat
  let r := shlInt t (f.mod.getLsbD 1) (s.inTy t f.a) (s.rs f.b).toNat
  doneS s e f.d (extTy t r.1) r.2

/-- The meaning of SHL. -/
def execShl (f : FmtR) (s : State) : Host.Outcome State Fault Refusal := meaning (.shl f) none (shlBody f) s

/-- SHR (R144): logical. -/
def shrBody (f : FmtR) (s : State) (e : Eff) : Res :=
  let t := f.ty.toNat
  doneBits s e f (shrBits (tyWidth t) (s.bitsTy t f.a) (s.rs f.b).toNat)

/-- The meaning of SHR. -/
def execShr (f : FmtR) (s : State) : Host.Outcome State Fault Refusal := meaning (.shr f) none (shrBody f) s

/-- SAR (R144): arithmetic. -/
def sarBody (f : FmtR) (s : State) (e : Eff) : Res :=
  let t := f.ty.toNat
  doneBits s e f (sarBits (tyWidth t) (s.bitsTy t f.a) (s.rs f.b).toNat)

/-- The meaning of SAR. -/
def execSar (f : FmtR) (s : State) : Host.Outcome State Fault Refusal := meaning (.sar f) none (sarBody f) s

/-- ROL (R144): rotates by s mod w. -/
def rolBody (f : FmtR) (s : State) (e : Eff) : Res :=
  let t := f.ty.toNat
  let w := tyWidth t
  let n := (s.rs f.b).toNat % (if w = 0 then 1 else w)
  let x := s.bitsTy t f.a
  doneBits s e f ((x <<< n ||| x >>> (w - n)) % 2 ^ w)

/-- The meaning of ROL. -/
def execRol (f : FmtR) (s : State) : Host.Outcome State Fault Refusal := meaning (.rol f) none (rolBody f) s

/-- MIN (R143, R46). -/
def minBody (f : FmtR) (s : State) (e : Eff) : Res :=
  let t := f.ty.toNat
  doneS s e f.d (BitVec.ofInt 64 (min (s.inTy t f.a) (s.inTy t f.b)))

/-- The meaning of MIN. -/
def execMin (f : FmtR) (s : State) : Host.Outcome State Fault Refusal := meaning (.min f) none (minBody f) s

/-- MAX. -/
def maxBody (f : FmtR) (s : State) (e : Eff) : Res :=
  let t := f.ty.toNat
  doneS s e f.d (BitVec.ofInt 64 (max (s.inTy t f.a) (s.inTy t f.b)))

/-- The meaning of MAX. -/
def execMax (f : FmtR) (s : State) : Host.Outcome State Fault Refusal := meaning (.max f) none (maxBody f) s

/-- SEL (R147): A when C is nonzero, else B; 64 bits unchanged. -/
def selBody (f : FmtR) (s : State) (e : Eff) : Res :=
  doneS s e f.d (if s.rs f.c != 0 then s.rs f.a else s.rs f.b)

/-- The meaning of SEL. -/
def execSel (f : FmtR) (s : State) : Host.Outcome State Fault Refusal := meaning (.sel f) none (selBody f) s

/-- CMP (R146). -/
def cmpBody (f : FmtR) (s : State) (e : Eff) : Res :=
  let t := f.ty.toNat
  doneS s e f.d (boolWord (cmpInt (f.mod.toNat % 8) (s.inTy t f.a) (s.inTy t f.b)))

/-- The meaning of CMP. -/
def execCmp (f : FmtR) (s : State) : Host.Outcome State Fault Refusal := meaning (.cmp f) none (cmpBody f) s

/-- LEA (R148). -/
def leaBody (f : FmtR) (s : State) (e : Eff) : Res :=
  doneS s e f.d (s.ea f (esize f.ty.toNat))

/-- The meaning of LEA. -/
def execLea (f : FmtR) (s : State) : Host.Outcome State Fault Refusal := meaning (.lea f) none (leaBody f) s

/-! ## OP 0x11 -/

/-- A result of format I that NARROW forms. -/
def doneNarrowI (s : State) (e : Eff) (f : FmtI) (v : Int) : Res :=
  let r := narrow f.ty.toNat (f.mod.getLsbD 1) v
  doneS s e f.d (extTy f.ty.toNat r.1) r.2

/-- A result of format I given by its bits at TY. -/
def doneBitsI (s : State) (e : Eff) (f : FmtI) (x : Nat) : Res := doneS s e f.d (extTy f.ty.toNat x)

/-- ADDI (R149): the immediate enters exactly. -/
def addiBody (f : FmtI) (s : State) (e : Eff) : Res :=
  doneNarrowI s e f (s.inTy f.ty.toNat f.a + (simmI f))

/-- The meaning of ADDI. -/
def execAddi (f : FmtI) (s : State) : Host.Outcome State Fault Refusal := meaning (.addi f) none (addiBody f) s

/-- ANDI (R149). -/
def andiBody (f : FmtI) (s : State) (e : Eff) : Res :=
  let t := f.ty.toNat
  doneBitsI s e f (s.bitsTy t f.a &&& wrapNat (tyWidth t) (simmI f))

/-- The meaning of ANDI. -/
def execAndi (f : FmtI) (s : State) : Host.Outcome State Fault Refusal := meaning (.andi f) none (andiBody f) s

/-- ORI (R149). -/
def oriBody (f : FmtI) (s : State) (e : Eff) : Res :=
  let t := f.ty.toNat
  doneBitsI s e f (s.bitsTy t f.a ||| wrapNat (tyWidth t) (simmI f))

/-- The meaning of ORI. -/
def execOri (f : FmtI) (s : State) : Host.Outcome State Fault Refusal := meaning (.ori f) none (oriBody f) s

/-- XORI (R149). -/
def xoriBody (f : FmtI) (s : State) (e : Eff) : Res :=
  let t := f.ty.toNat
  doneBitsI s e f (s.bitsTy t f.a ^^^ wrapNat (tyWidth t) (simmI f))

/-- The meaning of XORI. -/
def execXori (f : FmtI) (s : State) : Host.Outcome State Fault Refusal := meaning (.xori f) none (xoriBody f) s

/-- SHLI (R149, R144). -/
def shliBody (f : FmtI) (s : State) (e : Eff) : Res :=
  let t := f.ty.toNat
  let r := shlInt t (f.mod.getLsbD 1) (s.inTy t f.a) (f.imm.toNat % 64)
  doneS s e f.d (extTy t r.1) r.2

/-- The meaning of SHLI. -/
def execShli (f : FmtI) (s : State) : Host.Outcome State Fault Refusal := meaning (.shli f) none (shliBody f) s

/-- SHRI. -/
def shriBody (f : FmtI) (s : State) (e : Eff) : Res :=
  let t := f.ty.toNat
  doneBitsI s e f (shrBits (tyWidth t) (s.bitsTy t f.a) (f.imm.toNat % 64))

/-- The meaning of SHRI. -/
def execShri (f : FmtI) (s : State) : Host.Outcome State Fault Refusal := meaning (.shri f) none (shriBody f) s

/-- SARI. -/
def sariBody (f : FmtI) (s : State) (e : Eff) : Res :=
  let t := f.ty.toNat
  doneBitsI s e f (sarBits (tyWidth t) (s.bitsTy t f.a) (f.imm.toNat % 64))

/-- The meaning of SARI. -/
def execSari (f : FmtI) (s : State) : Host.Outcome State Fault Refusal := meaning (.sari f) none (sariBody f) s

/-- CMPI (R149): the immediate is not narrowed to TY. -/
def cmpiBody (f : FmtI) (s : State) (e : Eff) : Res :=
  doneS s e f.d (boolWord (cmpInt (f.mod.toNat % 8) (s.inTy f.ty.toNat f.a) (simmI f)))

/-- The meaning of CMPI. -/
def execCmpi (f : FmtI) (s : State) : Host.Outcome State Fault Refusal := meaning (.cmpi f) none (cmpiBody f) s

/-- LI (R150). -/
def liBody (f : FmtI) (s : State) (e : Eff) : Res :=
  doneS s e f.d (f.imm.signExtend 64)

/-- The meaning of LI. -/
def execLi (f : FmtI) (s : State) : Host.Outcome State Fault Refusal := meaning (.li f) none (liBody f) s

/-- LIH (R150). -/
def lihBody (f : FmtI) (s : State) (e : Eff) : Res :=
  doneS s e f.d ((f.imm.extractLsb' 0 16) ++ (s.rs f.a).extractLsb' 0 48)

/-- The meaning of LIH. -/
def execLih (f : FmtI) (s : State) : Host.Outcome State Fault Refusal := meaning (.lih f) none (lihBody f) s

/-- ADDPC (R150): from the line of the instruction. -/
def addpcBody (f : FmtI) (s : State) (e : Eff) : Res :=
  doneS s e f.d ((s.thread.pc &&& ~~~(0x3F : Word)) + f.imm.signExtend 64)

/-- The meaning of ADDPC. -/
def execAddpc (f : FmtI) (s : State) : Host.Outcome State Fault Refusal := meaning (.addpc f) none (addpcBody f) s

/-! ## OP 0x12 -/

/-- The number of zero bits above the highest set bit of `w` bits (R151). -/
def clzBits (w x : Nat) : Nat := if x = 0 then w else w - 1 - x.log2

/-- The number of zero bits below the lowest set bit, from bit `i` of `w`. -/
def ctzFrom : Nat → Nat → Nat
  | 0, _ => 0
  | w + 1, x => if x % 2 = 1 then 0 else 1 + ctzFrom w (x / 2)

/-- `n` bytes of a number in reverse order. -/
def swapBytes : Nat → Nat → Nat
  | 0, _ => 0
  | n + 1, x => (x % 256) * 256 ^ n + swapBytes n (x / 256)

/-- CLZ (R151). -/
def clzBody (f : FmtR) (s : State) (e : Eff) : Res :=
  let t := f.ty.toNat
  doneS s e f.d (BitVec.ofNat 64 (clzBits (tyWidth t) (s.bitsTy t f.a)))

/-- The meaning of CLZ. -/
def execClz (f : FmtR) (s : State) : Host.Outcome State Fault Refusal := meaning (.clz f) none (clzBody f) s

/-- CTZ. -/
def ctzBody (f : FmtR) (s : State) (e : Eff) : Res :=
  let t := f.ty.toNat
  doneS s e f.d (BitVec.ofNat 64 (ctzFrom (tyWidth t) (s.bitsTy t f.a)))

/-- The meaning of CTZ. -/
def execCtz (f : FmtR) (s : State) : Host.Outcome State Fault Refusal := meaning (.ctz f) none (ctzBody f) s

/-- POPC. -/
def popcBody (f : FmtR) (s : State) (e : Eff) : Res :=
  let t := f.ty.toNat
  doneS s e f.d (BitVec.ofNat 64 (popBits (tyWidth t) (s.bitsTy t f.a)))

/-- The meaning of POPC. -/
def execPopc (f : FmtR) (s : State) : Host.Outcome State Fault Refusal := meaning (.popc f) none (popcBody f) s

/-- BSWAP. -/
def bswapBody (f : FmtR) (s : State) (e : Eff) : Res :=
  let t := f.ty.toNat
  doneBits s e f (swapBytes (tyWidth t / 8) (s.bitsTy t f.a))

/-- The meaning of BSWAP. -/
def execBswap (f : FmtR) (s : State) : Host.Outcome State Fault Refusal := meaning (.bswap f) none (bswapBody f) s

/-- BFX (R152). -/
def bfxBody (f : FmtR) (s : State) (e : Eff) : Res :=
  let pos := f.imm.toNat % 64
  let len := f.imm.toNat / 256 % 64 + 1
  let x := (s.rs f.a).toNat / 2 ^ pos % 2 ^ len
  doneS s e f.d (if f.ty = 0x04 then BitVec.ofInt 64 (sxInt len x) else BitVec.ofNat 64 x)

/-- The meaning of BFX. -/
def execBfx (f : FmtR) (s : State) : Host.Outcome State Fault Refusal := meaning (.bfx f) none (bfxBody f) s

/-- BFI (R152). -/
def bfiBody (f : FmtR) (s : State) (e : Eff) : Res :=
  let pos := f.imm.toNat % 64
  let len := f.imm.toNat / 256 % 64 + 1
  let m : Word := BitVec.ofNat 64 ((2 ^ len - 1) * 2 ^ pos)
  doneS s e f.d ((s.rs f.a &&& ~~~m) ||| (BitVec.ofNat 64 ((s.rs f.b).toNat % 2 ^ len * 2 ^ pos) &&& m))

/-- The meaning of BFI. -/
def execBfi (f : FmtR) (s : State) : Host.Outcome State Fault Refusal := meaning (.bfi f) none (bfiBody f) s

/-- ABS (R151). -/
def absBody (f : FmtR) (s : State) (e : Eff) : Res :=
  let a := s.inTy f.ty.toNat f.a
  doneNarrow s e f (if a < 0 then -a else a)

/-- The meaning of ABS. -/
def execAbs (f : FmtR) (s : State) : Host.Outcome State Fault Refusal := meaning (.abs f) none (absBody f) s

/-- EXT (R153). -/
def extBody (f : FmtR) (s : State) (e : Eff) : Res :=
  let t := f.ty.toNat
  if f.mod.getLsbD 1 then
    let x : Int := if f.mod.getLsbD 2 then ((s.rs f.a).toNat : Int) else (s.rs f.a).toInt
    let r := sati t x
    doneS s e f.d (extTy t (wrapNat (tyWidth t) r.1)) r.2
  else doneBits s e f (s.bitsTy t f.a)

/-- The meaning of EXT. -/
def execExt (f : FmtR) (s : State) : Host.Outcome State Fault Refusal := meaning (.ext f) none (extBody f) s

end Sys2Proof.Machine
end

