-- ==== Sys2Proof/Machine/Control.lean ====
section
/-! DEFINITION. Control flow (R127), waiting, prefetch and following (R125, R126, R133, R134, R136-R138). A branch body
takes the number of slots of its bundle, since the link and the successor are the bundle's (R66). -/

namespace Sys2Proof.Machine

/-! ## Branches (R127) -/

/-- A taken branch to a PC, its target checked (R68). -/
def takeTo (s : State) (e : Eff) (pc : Word) : Res :=
  match s.targetLine pc with
  | some ln => .park (.line ln)
  | none =>
    match s.targetFault pc with
    | some f => .fault f
    | none => .done (s.targetFetch pc) { e with pc := some pc, taken := true }

/-- A taken branch to an exact linear slot number (R67). -/
def takeLinear (s : State) (e : Eff) (t : Int) : Res :=
  match pcOfInt t with
  | some pc => takeTo s e pc
  | none => .fault { code := .badTarget, addr := BitVec.ofInt 64 (t / 5 * 64 + t % 5) }

/-- The effect with the link, the successor of the bundle, written to D. -/
def withLink (s : State) (e : Eff) (d : BitVec 8) (n : Nat) : Eff :=
  { e with writes := e.writes ++ wrS d (succPc s.thread.pc n) }

/-- BR. -/
def brBody (f : FmtB) (_n : Nat) (s : State) (e : Eff) : Res := takeLinear s e (linear s.thread.pc + f.disp.toInt)

/-- The meaning of BR. -/
def execBr (f : FmtB) (s : State) : Host.Outcome State Fault Refusal := meaning (.br f) none (brBody f 1) s

/-- CALL. -/
def callBody (f : FmtB) (n : Nat) (s : State) (e : Eff) : Res :=
  takeLinear s (withLink s e f.d n) (linear s.thread.pc + f.disp.toInt)

/-- The meaning of CALL. -/
def execCall (f : FmtB) (s : State) : Host.Outcome State Fault Refusal := meaning (.call f) none (callBody f 1) s

/-- BRC: a scalar compared with zero, or any bit of a predicate. -/
def brcBody (f : FmtB) (n : Nat) (s : State) (e : Eff) : Res :=
  let c := f.mod.toNat % 8
  let take := match c with
    | 6 => s.rp f.a != 0
    | 7 => s.rp f.a == 0
    | _ => condScalar c (s.rs f.a)
  if take then takeLinear s e (linear s.thread.pc + f.disp.toInt)
  else .done s { e with pc := some (succPc s.thread.pc n) }

/-- The meaning of BRC. -/
def execBrc (f : FmtB) (s : State) : Host.Outcome State Fault Refusal := meaning (.brc f) none (brcBody f 1) s

/-- DBNZ. -/
def dbnzBody (f : FmtB) (n : Nat) (s : State) (e : Eff) : Res :=
  let c := s.rs f.d - 1
  let e := { e with writes := e.writes ++ wrS f.d c }
  if c != 0 then takeLinear s e (linear s.thread.pc + f.disp.toInt)
  else .done s { e with pc := some (succPc s.thread.pc n) }

/-- The meaning of DBNZ. -/
def execDbnz (f : FmtB) (s : State) : Host.Outcome State Fault Refusal := meaning (.dbnz f) none (dbnzBody f 1) s

/-- BRX. -/
def brxBody (f : FmtR) (n : Nat) (s : State) (e : Eff) : Res :=
  takeLinear s (withLink s e f.d n) (linear s.thread.pc + (s.rs f.a).toInt)

/-- The meaning of BRX. -/
def execBrx (f : FmtR) (s : State) : Host.Outcome State Fault Refusal := meaning (.brx f) none (brxBody f 1) s

/-- JMP. -/
def jmpBody (f : FmtR) (n : Nat) (s : State) (e : Eff) : Res := takeTo s (withLink s e f.d n) (s.rs f.a)

/-- The meaning of JMP. -/
def execJmp (f : FmtR) (s : State) : Host.Outcome State Fault Refusal := meaning (.jmp f) none (jmpBody f 1) s

/-! ## NOP, VWID -/

/-- NOP (R133). -/
def nopBody (_f : FmtR) (s : State) (e : Eff) : Res := .done s e

/-- The meaning of NOP. -/
def execNop (f : FmtR) (s : State) : Host.Outcome State Fault Refusal := meaning (.nop f) none (nopBody f) s

/-- VWID (R138). -/
def vwidBody (f : FmtR) (s : State) (e : Eff) : Res :=
  let t := resolveTy s.thread.ety f.ty.toNat
  doneS s e f.d (BitVec.ofNat 64 (if t = 0 then s.part.vw else lanes s.part.vw t))

/-- The meaning of VWID. -/
def execVwid (f : FmtR) (s : State) : Host.Outcome State Fault Refusal := meaning (.vwid f) none (vwidBody f) s

/-! ## WATCH, WAITA -/

/-- WATCH (R136). -/
def watchBody (f : FmtR) (s : State) (e : Eff) : Res :=
  let a := (s.ea f 8).toNat
  if a < winBase ∨ winBase + 2 ^ 22 ≤ a then .fault (flt .prot 0 2 a)
  else if a % 8 != 0 then .fault (flt .align 0 2 a)
  else
    (s.reach s.cur a 8 .load).res fun l =>
      match l with
      | .mem _ => .fault (flt .prot 0 2 a)
      | .scr c off =>
        let x := (s.core c).touch (off / 4096)
        let w := if f.mod.getLsbD 1 then adel x.watch (off / 8) else aset x.watch (off / 8) s.mySlot
        .done (s.setCore c { x with watch := w }) e

/-- The meaning of WATCH: it parks as a scratchpad access does. -/
def execWatch (f : FmtR) (s : State) : Host.Outcome State Fault Refusal := meaning (.watch f) (some .reply) (watchBody f) s

/-- WAITA (R137). -/
def waitaBody (_f : FmtR) (s : State) (e : Eff) : Res :=
  let t := s.thread
  if !t.ready then .park .ready
  else .done (s.setThread { t with ready := false }) { e with pts := max e.pts t.readyTs }

/-- The meaning of WAITA. -/
def execWaita (f : FmtR) (s : State) : Host.Outcome State Fault Refusal := meaning (.waita f) none (waitaBody f) s

/-! ## IPF (R134) -/

/-- One line requested into the L2-I or the L3-I; skipped where it cannot be fetched, or not now (log entry 77). -/
def State.prefetch (s : State) (l3 : Bool) (va : Nat) : State :=
  match s.cur with
  | .slot c _ =>
    if !canonical va then s
    else
      match s.fetchLn s.cur (BitVec.ofNat 64 va) with
      | .error f => s.noteFault s.cur f
      | .ok ln =>
        let r := if s.dev.poisoned.contains ln || s.pageAway s.cur (BitVec.ofNat 64 va) || !s.lineRouted ln then (s, none) else (s.tlbEnter s.cur va).readMem ln
        let s := r.1
        match r.2 with
        | none => s
        | some x =>
          if l3 then s.setDie (dieOf c) { s.die (dieOf c) with l3i := cachePut 262144 (s.die (dieOf c)).l3i ln x }
          else s.setFold (foldOf c) { s.fold (foldOf c) with l2i := cachePut 16384 (s.fold (foldOf c)).l2i ln x }
  | _ => s

/-- Lines from `va` requested in order. -/
def State.prefetchFrom (s : State) (l3 : Bool) (va : Nat) : Nat → State
  | 0 => s
  | n + 1 => State.prefetchFrom (s.prefetch l3 va) l3 (va + 64) n

/-- IPF. -/
def ipfBody (f : FmtR) (s : State) (e : Eff) : Res :=
  let a := (s.rs f.a).toNat
  let n := (s.rs f.b).toNat
  let l3 := f.mod.getLsbD 0
  let first := a / 64 * 64
  let count := if n = 0 then 0 else (a + n - first + 63) / 64
  .done (s.prefetchFrom l3 first (min count (if l3 then 262144 else 16384))) e

/-- The meaning of IPF: it never parks after its reads. -/
def execIpf (f : FmtR) (s : State) : Host.Outcome State Fault Refusal := meaning (.ipf f) none (ipfBody f) s

/-! ## Following (R125, R126) -/

/-- FLW: the cases that complete at once with D = 0, or the wait for the bellwether's bundle; a slot that follows leaves its
bellwether as it begins to wait (log entry 70). -/
def flwBody (f : FmtR) (s : State) (e : Eff) : Res :=
  match s.cur with
  | .slot c k =>
    let b := 4096 * devOf c + 8 * (c % 4096 / 8) + (s.rs f.a).toNat % 8
    let u := s.slot b k
    let off := s.isGateway c || b == c || u.follow ||
      !(u.st == .runnable || u.st == .parked || u.st == .held)
    if off then doneS s e f.d 0
    else
      let t := s.thread
      let r := { e with writes := e.writes ++ wrS f.d 1 }
      .sent (s.setThread { t.setFollow false with bell := some b, flwSince := s.ac, followBuf := [], reply := some r }) .follow
  | _ => doneS s e f.d 0

/-- The meaning of FLW. -/
def execFlw (f : FmtR) (s : State) : Host.Outcome State Fault Refusal := meaning (.flw f) none (flwBody f) s

/-- FLX: FOLLOW cleared, own fetch resumes at the successor. -/
def flxBody (_f : FmtR) (s : State) (e : Eff) : Res :=
  let t := s.thread
  .done (if t.follow then s.setThread { t.setFollow false with followBuf := [], bell := none } else s) e

/-- The meaning of FLX. -/
def execFlx (f : FmtR) (s : State) : Host.Outcome State Fault Refusal := meaning (.flx f) none (flxBody f) s

end Sys2Proof.Machine
end

