-- ==== Sys2Proof/Machine/Vector.lean ====
section
/-! DEFINITION. OP 0x30 to 0x32 and 0x34 to 0x36 (R154-R164, R173-R177): element-wise arithmetic, comparison, moves,
reductions and predicates. -/

namespace Sys2Proof.Machine

/-! ## Governing and writing (R156, R157) -/

/-- The predicate bit that governs element `i` at a type (R156); TY 0 means bytes. -/
def predBit (t i : Nat) : Nat :=
  if t = 0x16 then 4 * (i / 5)
  else if tyWidth t = 4 then i / 2
  else if tyWidth t = 0 then i else i * tyWidth t / 8

/-- The element whose result predicate bit `j` receives (R157, R177). -/
def predElem (t j : Nat) : Nat :=
  if t = 0x16 then 5 * (j / 4)
  else if tyWidth t = 4 then 2 * j
  else if tyWidth t = 0 then j else j * 8 / tyWidth t

/-- Whether element `i` is active under PG (R156). -/
def State.active (s : State) (pg : BitVec 4) (t i : Nat) : Bool :=
  pg == 0 || (s.thread.readP (pg.extractLsb' 0 3).toNat).getLsbD (predBit t i)

/-- The resolved TY of an instruction (R155). -/
def State.tyOf (s : State) (f : FmtR) : Nat := resolveTy s.thread.ety f.ty.toNat

/-- The `.z` bit (R158). -/
def zBit (f : FmtR) : Bool := f.mod.getLsbD 5

/-- The rounding mode of an instruction with RMO in MOD[2:0] (R158). -/
def State.rmo (s : State) (f : FmtR) : Rnd := s.thread.rnd (f.mod.toNat % 8)

/-- A vector of l6 elements `x` written over `keep`: only the words of 32 bits that the write touches change (R154). -/
def l6Over (vw : Nat) (keep x : VReg) (touched : Nat → Bool) : VReg :=
  BitVec.ofNat 2048 (packLanes 32 ((List.range (vw / 32)).map fun j =>
    ((if (List.range' (5 * j) 5).any touched then x else keep).toNat >>> (32 * j)) % 2 ^ 32))

/-- Elements `lo` to `lo`+m-1 of a destination of type `t` given by `g` where active (R157): an inactive one keeps its bits
or is zeroed under `.z`, and an element outside keeps its bits. A zeroed element has all bits 0, in l6 too (log entry 62). -/
def State.writeElems (s : State) (f : FmtR) (t lo m : Nat) (g : Nat → Nat × Word) : VReg × Word :=
  let keep := s.keepV f.d
  let xs := (List.range (lanes s.part.vw t)).map fun i =>
    if lo ≤ i ∧ i < lo + m then
      (if s.active f.pg t i then g i else (if zBit f then 0 else elem t keep i, (0 : Word)))
    else (elem t keep i, 0)
  let x := ofElems t (xs.map (·.1))
  (if t = 0x16 then l6Over s.part.vw keep x fun i => decide (lo ≤ i) && decide (i < lo + m) && (zBit f || s.active f.pg t i) else x,
   orFlags (xs.map (·.2)))

/-- An element-wise result over the whole destination. -/
def doneElems (s : State) (e : Eff) (f : FmtR) (t : Nat) (g : Nat → Nat × Word) : Res :=
  let r := s.writeElems f t 0 (lanes s.part.vw t) g
  doneV s e f.d r.1 r.2

/-- A one-source element-wise operation. -/
def vec1 (s : State) (e : Eff) (f : FmtR) (op : Nat → Nat → Nat × Word) : Res :=
  let t := s.tyOf f
  let a := s.rv t f.a
  doneElems s e f t fun i => op t (elem t a i)

/-- A two-source element-wise operation. -/
def vec2 (s : State) (e : Eff) (f : FmtR) (op : Nat → Nat → Nat → Nat × Word) : Res :=
  let t := s.tyOf f
  let a := s.rv t f.a
  let b := s.rv t f.b
  doneElems s e f t fun i => op t (elem t a i) (elem t b i)

/-- A three-source element-wise operation. -/
def vec3 (s : State) (e : Eff) (f : FmtR) (op : Nat → Nat → Nat → Nat → Nat × Word) : Res :=
  let t := s.tyOf f
  let a := s.rv t f.a
  let b := s.rv t f.b
  let c := s.rv t f.c
  doneElems s e f t fun i => op t (elem t a i) (elem t b i) (elem t c i)

/-! ## Operations on elements (R162) -/

/-- Addition at a type. -/
def elAdd (sat : Bool) (r : Rnd) (t x y : Nat) : Nat × Word :=
  if tyIsInt t then narrow t sat (tyInt t x + tyInt t y) else faddV t r (fval t x) (fval t y)

/-- Subtraction. -/
def elSub (sat : Bool) (r : Rnd) (t x y : Nat) : Nat × Word :=
  if tyIsInt t then narrow t sat (tyInt t x - tyInt t y) else faddV t r (fval t x) (fval t y).opp

/-- Multiplication. -/
def elMul (sat : Bool) (r : Rnd) (t x y : Nat) : Nat × Word :=
  if tyIsInt t then narrow t sat (tyInt t x * tyInt t y) else fmul t r (fval t x) (fval t y)

/-- Multiply and add, narrowed or rounded once. -/
def elFma (sat : Bool) (r : Rnd) (t x y z : Nat) : Nat × Word :=
  if tyIsInt t then narrow t sat (tyInt t x * tyInt t y + tyInt t z) else ffma t r (fval t x) (fval t y) (fval t z)

/-- Minimum. -/
def elMin (t x y : Nat) : Nat × Word :=
  if tyIsInt t then (if tyInt t y < tyInt t x then y else x, 0) else fminmax t false x y

/-- Maximum. -/
def elMax (t x y : Nat) : Nat × Word :=
  if tyIsInt t then (if tyInt t x < tyInt t y then y else x, 0) else fminmax t true x y

/-- VABS: a float clears its sign bit only (R40). -/
def elAbs (sat : Bool) (t x : Nat) : Nat × Word :=
  if tyIsInt t then narrow t sat (tyInt t x).natAbs else (x % 2 ^ (tyWidth t - 1), 0)

/-- VCLAMP. -/
def elClamp (t x lo hi : Nat) : Nat × Word :=
  let m := elMax t x lo
  let n := elMin t m.1 hi
  (n.1, m.2 ||| n.2)

/-- VDIV. -/
def elDiv (r : Rnd) (t x y : Nat) : Nat × Word :=
  if tyIsInt t then let q := divInt t (tyInt t x) (tyInt t y); (wrapNat (tyWidth t) q.1, q.2)
  else fdiv t r (fval t x) (fval t y)

/-! ## OP 0x30, 0x31 -/

/-- VADD. -/
def vaddBody (f : FmtR) (s : State) (e : Eff) : Res :=
  vec2 s e f (elAdd (f.mod.getLsbD 3) (s.rmo f))

/-- The meaning of VADD. -/
def execVadd (f : FmtR) (s : State) : Host.Outcome State Fault Refusal := meaning (.vadd f) none (vaddBody f) s

/-- VSUB. -/
def vsubBody (f : FmtR) (s : State) (e : Eff) : Res :=
  vec2 s e f (elSub (f.mod.getLsbD 3) (s.rmo f))

/-- The meaning of VSUB. -/
def execVsub (f : FmtR) (s : State) : Host.Outcome State Fault Refusal := meaning (.vsub f) none (vsubBody f) s

/-- VMUL. -/
def vmulBody (f : FmtR) (s : State) (e : Eff) : Res :=
  vec2 s e f (elMul (f.mod.getLsbD 3) (s.rmo f))

/-- The meaning of VMUL. -/
def execVmul (f : FmtR) (s : State) : Host.Outcome State Fault Refusal := meaning (.vmul f) none (vmulBody f) s

/-- VFMA. -/
def vfmaBody (f : FmtR) (s : State) (e : Eff) : Res :=
  vec3 s e f (elFma (f.mod.getLsbD 3) (s.rmo f))

/-- The meaning of VFMA. -/
def execVfma (f : FmtR) (s : State) : Host.Outcome State Fault Refusal := meaning (.vfma f) none (vfmaBody f) s

/-- VMIN. -/
def vminBody (f : FmtR) (s : State) (e : Eff) : Res :=
  vec2 s e f elMin

/-- The meaning of VMIN. -/
def execVmin (f : FmtR) (s : State) : Host.Outcome State Fault Refusal := meaning (.vmin f) none (vminBody f) s

/-- VMAX. -/
def vmaxBody (f : FmtR) (s : State) (e : Eff) : Res :=
  vec2 s e f elMax

/-- The meaning of VMAX. -/
def execVmax (f : FmtR) (s : State) : Host.Outcome State Fault Refusal := meaning (.vmax f) none (vmaxBody f) s

/-- VABS. -/
def vabsBody (f : FmtR) (s : State) (e : Eff) : Res :=
  vec1 s e f (elAbs (f.mod.getLsbD 3))

/-- The meaning of VABS. -/
def execVabs (f : FmtR) (s : State) : Host.Outcome State Fault Refusal := meaning (.vabs f) none (vabsBody f) s

/-- VAND: bitwise on the element. -/
def vandBody (f : FmtR) (s : State) (e : Eff) : Res :=
  vec2 s e f fun _ x y => (x &&& y, 0)

/-- The meaning of VAND. -/
def execVand (f : FmtR) (s : State) : Host.Outcome State Fault Refusal := meaning (.vand f) none (vandBody f) s

/-- VOR: bitwise on the element. -/
def vorBody (f : FmtR) (s : State) (e : Eff) : Res :=
  vec2 s e f fun _ x y => (x ||| y, 0)

/-- The meaning of VOR. -/
def execVor (f : FmtR) (s : State) : Host.Outcome State Fault Refusal := meaning (.vor f) none (vorBody f) s

/-- VXOR: bitwise on the element. -/
def vxorBody (f : FmtR) (s : State) (e : Eff) : Res :=
  vec2 s e f fun _ x y => (x ^^^ y, 0)

/-- The meaning of VXOR. -/
def execVxor (f : FmtR) (s : State) : Host.Outcome State Fault Refusal := meaning (.vxor f) none (vxorBody f) s

/-- VSHL (R144): the amount is b read unsigned. -/
def vshlBody (f : FmtR) (s : State) (e : Eff) : Res :=
  vec2 s e f fun t x y => shlInt t (f.mod.getLsbD 3) (tyInt t x) y

/-- The meaning of VSHL. -/
def execVshl (f : FmtR) (s : State) : Host.Outcome State Fault Refusal := meaning (.vshl f) none (vshlBody f) s

/-- VSHR. -/
def vshrBody (f : FmtR) (s : State) (e : Eff) : Res :=
  vec2 s e f fun t x y => (shrBits (tyWidth t) x y, 0)

/-- The meaning of VSHR. -/
def execVshr (f : FmtR) (s : State) : Host.Outcome State Fault Refusal := meaning (.vshr f) none (vshrBody f) s

/-- VSAR. -/
def vsarBody (f : FmtR) (s : State) (e : Eff) : Res :=
  vec2 s e f fun t x y => (sarBits (tyWidth t) x y, 0)

/-- The meaning of VSAR. -/
def execVsar (f : FmtR) (s : State) : Host.Outcome State Fault Refusal := meaning (.vsar f) none (vsarBody f) s

/-- VSEL: a where the element of C is set, else b. -/
def vselBody (f : FmtR) (s : State) (e : Eff) : Res :=
  let t := s.tyOf f
  let a := s.rv t f.a
  let b := s.rv t f.b
  let c := s.rp f.c
  doneElems s e f t fun i => (if c.getLsbD (predBit t i) then elem t a i else elem t b i, 0)

/-- The meaning of VSEL. -/
def execVsel (f : FmtR) (s : State) : Host.Outcome State Fault Refusal := meaning (.vsel f) none (vselBody f) s

/-- VCLAMP. -/
def vclampBody (f : FmtR) (s : State) (e : Eff) : Res :=
  vec3 s e f elClamp

/-- The meaning of VCLAMP. -/
def execVclamp (f : FmtR) (s : State) : Host.Outcome State Fault Refusal := meaning (.vclamp f) none (vclampBody f) s

/-- VDIV (R163). -/
def vdivBody (f : FmtR) (s : State) (e : Eff) : Res :=
  vec2 s e f (elDiv (s.rmo f))

/-- The meaning of VDIV. -/
def execVdiv (f : FmtR) (s : State) : Host.Outcome State Fault Refusal := meaning (.vdiv f) (some .divide) (vdivBody f) s

/-- VSQRT (R163). -/
def vsqrtBody (f : FmtR) (s : State) (e : Eff) : Res :=
  vec1 s e f fun t x => fsqrt t (s.rmo f) (fval t x)

/-- The meaning of VSQRT. -/
def execVsqrt (f : FmtR) (s : State) : Host.Outcome State Fault Refusal := meaning (.vsqrt f) (some .divide) (vsqrtBody f) s

/-! ## Predicate destinations (R157, R177) -/

/-- A predicate given per element: every bit of an active element receives its result, every other bit 0. -/
def State.predOf (s : State) (pg : BitVec 4) (t : Nat) (g : Nat → Bool) : PReg :=
  BitVec.ofNat 256 (packLanes 1 ((List.range (s.part.vw / 8)).map fun j =>
    let i := predElem t j
    if s.active pg t i && g i then 1 else 0))

/-- An instruction that writes one predicate. -/
def doneP (s : State) (e : Eff) (d : BitVec 8) (x : PReg) (fl : Word := 0) : Res :=
  .done s { e with writes := e.writes ++ wrP d x, sticky := e.sticky ||| fl }

/-- VCMP (R164). -/
def vcmpBody (f : FmtR) (s : State) (e : Eff) : Res :=
  let t := s.tyOf f
  let a := s.rv t f.a
  let b := s.rv t f.b
  let c := f.mod.toNat % 8
  let res (i : Nat) : Bool :=
    if tyIsInt t then cmpInt c (tyInt t (elem t a i)) (tyInt t (elem t b i))
    else cmpFloat c (fval t (elem t a i)) (fval t (elem t b i))
  let fl := if tyIsInt t then 0 else orFlags ((List.range (lanes s.part.vw t)).map fun i =>
    flagIf (s.active f.pg t i && ((fval t (elem t a i)).isSig || (fval t (elem t b i)).isSig)) flagIV)
  doneP s e f.d (s.predOf f.pg t res) fl

/-- The meaning of VCMP. -/
def execVcmp (f : FmtR) (s : State) : Host.Outcome State Fault Refusal := meaning (.vcmp f) none (vcmpBody f) s

/-! ## OP 0x34 (R174) -/

/-- VSPLAT. -/
def vsplatBody (f : FmtR) (s : State) (e : Eff) : Res :=
  let t := s.tyOf f
  let x := (s.rs f.a).toNat % 2 ^ tyWidth t
  doneElems s e f t fun _ => (x, 0)

/-- The meaning of VSPLAT. -/
def execVsplat (f : FmtR) (s : State) : Host.Outcome State Fault Refusal := meaning (.vsplat f) none (vsplatBody f) s

/-- VINS: one element replaced when it exists and is active. -/
def vinsBody (f : FmtR) (s : State) (e : Eff) : Res :=
  let t := s.tyOf f
  let x := (s.rs f.a).toNat % 2 ^ tyWidth t
  let n := (s.rs f.b).toNat
  let keep := s.keepV f.d
  let y := ofElems t ((List.range (lanes s.part.vw t)).map fun i => if i = n ∧ s.active f.pg t i then x else elem t keep i)
  doneV s e f.d (if t = 0x16 then l6Over s.part.vw keep y fun i => i == n && s.active f.pg t i else y)

/-- The meaning of VINS. -/
def execVins (f : FmtR) (s : State) : Host.Outcome State Fault Refusal := meaning (.vins f) none (vinsBody f) s

/-- VEXT: sign-extended for an i type; 0 for an index that does not exist or is inactive. -/
def vextBody (f : FmtR) (s : State) (e : Eff) : Res :=
  let t := s.tyOf f
  let a := s.rv t f.a
  let n := (s.rs f.b).toNat
  let x := if n < lanes s.part.vw t ∧ s.active f.pg t n then elem t a n else 0
  doneS s e f.d (if tyIsSigned t then BitVec.ofInt 64 (tyInt t x) else BitVec.ofNat 64 x)

/-- The meaning of VEXT. -/
def execVext (f : FmtR) (s : State) : Host.Outcome State Fault Refusal := meaning (.vext f) none (vextBody f) s

/-- VIOTA. -/
def viotaBody (f : FmtR) (s : State) (e : Eff) : Res :=
  let t := s.tyOf f
  let base := s.inTy t f.a
  doneElems s e f t fun i =>
    narrow t (f.mod.getLsbD 3) (base + (((List.range i).filter fun j => s.active f.pg t j).length : Int))

/-- The meaning of VIOTA. -/
def execViota (f : FmtR) (s : State) : Host.Outcome State Fault Refusal := meaning (.viota f) none (viotaBody f) s

/-- VPERM. -/
def vpermBody (f : FmtR) (s : State) (e : Eff) : Res :=
  let t := s.tyOf f
  let a := s.rv t f.a
  let b := s.rv t f.b
  doneElems s e f t fun i =>
    let j := elem t b i
    (if j < lanes s.part.vw t then elem t a j else 0, 0)

/-- The meaning of VPERM. -/
def execVperm (f : FmtR) (s : State) : Host.Outcome State Fault Refusal := meaning (.vperm f) none (vpermBody f) s

/-- VMOV. -/
def vmovBody (f : FmtR) (s : State) (e : Eff) : Res :=
  vec1 s e f fun _ x => (x, 0)

/-- The meaning of VMOV. -/
def execVmov (f : FmtR) (s : State) : Host.Outcome State Fault Refusal := meaning (.vmov f) none (vmovBody f) s

/-! ## Reductions (R58, R59, R175) -/

/-- The identity of an operation of R175 at a type (R58). -/
def redIdentity (op t : Nat) : Nat :=
  let w := tyWidth t
  match op with
  | 0 => if tyIsInt t then 0 else fpack t true 0 0
  | 1 => if tyIsInt t then wrapNat w (tyMax t) else finf t false
  | 2 => if tyIsInt t then wrapNat w (tyMin t) else finf t true
  | 3 => 2 ^ w - 1
  | _ => 0

/-- One node of a reduction. -/
def redOp (op : Nat) (sat : Bool) (r : Rnd) (t x y : Nat) : Nat × Word :=
  match op with
  | 0 => elAdd sat r t x y
  | 1 => elMin t x y
  | 2 => elMax t x y
  | 3 => (x &&& y, 0)
  | 4 => (x ||| y, 0)
  | _ => (x ^^^ y, 0)

/-- One level of the pairwise tree. -/
def redLevel (f : Nat → Nat → Nat × Word) : List Nat → List Nat × Word
  | x :: y :: xs =>
    let z := f x y
    let r := redLevel f xs
    (z.1 :: r.1, z.2 ||| r.2)
  | xs => (xs, 0)

/-- `k` levels of the tree. -/
def redTree (f : Nat → Nat → Nat × Word) : Nat → List Nat → List Nat × Word
  | 0, xs => (xs, 0)
  | k + 1, xs =>
    let l := redLevel f xs
    let r := redTree f k l.1
    (r.1, l.2 ||| r.2)

/-- The running values of VSCAN after the first (R59). -/
def scanFrom (f : Nat → Nat → Nat × Word) (acc : Nat) : List Nat → List (Nat × Word)
  | [] => []
  | x :: xs => let z := f acc x; z :: scanFrom f z.1 xs

/-- The elements of a reduction's source, an inactive one the identity. -/
def State.redSource (s : State) (f : FmtR) : List Nat :=
  let t := s.tyOf f
  let op := f.imm.toNat % 8
  let a := s.rv t f.a
  (List.range (lanes s.part.vw t)).map fun i => if s.active f.pg t i then elem t a i else redIdentity op t

/-- VRED: the pairwise tree of R58, padded with identities. -/
def vredBody (f : FmtR) (s : State) (e : Eff) : Res :=
  let t := s.tyOf f
  let op := f.imm.toNat % 8
  let xs := s.redSource f
  let n := xs.length
  let k := if n ≤ 1 then 0 else (n - 1).log2 + 1
  let ys := xs ++ List.replicate (2 ^ k - n) (redIdentity op t)
  let r := redTree (redOp op (f.mod.getLsbD 3) (s.rmo f) t) k ys
  let x := r.1.headD 0
  doneS s e f.d (if tyIsSigned t then BitVec.ofInt 64 (tyInt t x) else BitVec.ofNat 64 x) r.2

/-- The meaning of VRED. -/
def execVred (f : FmtR) (s : State) : Host.Outcome State Fault Refusal := meaning (.vred f) none (vredBody f) s

/-- VSCAN: element i is s_i of R59. The step at an inactive lane sets no flag (R44, R159). -/
def vscanBody (f : FmtR) (s : State) (e : Eff) : Res :=
  let t := s.tyOf f
  let op := f.imm.toNat % 8
  let rs := match s.redSource f with
    | [] => []
    | x :: xs => (x, (0 : Word)) :: scanFrom (redOp op (f.mod.getLsbD 3) (s.rmo f) t) x xs
  let r := s.writeElems f t 0 (lanes s.part.vw t) fun i => ((rs[i]?).map (·.1)).getD 0 |> fun v => (v, 0)
  doneV s e f.d r.1 (orFlags (rs.zipIdx.map fun x => if s.active f.pg t x.2 then x.1.2 else 0))

/-- The meaning of VSCAN. -/
def execVscan (f : FmtR) (s : State) : Host.Outcome State Fault Refusal := meaning (.vscan f) none (vscanBody f) s

/-! ## OP 0x36 (R176, R177) -/

/-- PLT: element i is set when i < B − A as i64, exact. -/
def pltBody (f : FmtR) (s : State) (e : Eff) : Res :=
  let t := s.tyOf f
  let n := (s.rs f.b).toInt - (s.rs f.a).toInt
  doneP s e f.d (s.predOf f.pg t fun i => decide ((i : Int) < n))

/-- The meaning of PLT. -/
def execPlt (f : FmtR) (s : State) : Host.Outcome State Fault Refusal := meaning (.plt f) none (pltBody f) s

/-- PSET. -/
def psetBody (f : FmtR) (s : State) (e : Eff) : Res :=
  let t := s.tyOf f
  doneP s e f.d (s.predOf f.pg t fun i => decide (i < f.imm.toNat))

/-- The meaning of PSET. -/
def execPset (f : FmtR) (s : State) : Host.Outcome State Fault Refusal := meaning (.pset f) none (psetBody f) s

/-- PAND on single bits. -/
def pandBody (f : FmtR) (s : State) (e : Eff) : Res :=
  let x := s.rp f.a &&& s.rp f.b
  doneP s e f.d (s.predOf f.pg 0 fun j => x.getLsbD j)

/-- The meaning of PAND. -/
def execPand (f : FmtR) (s : State) : Host.Outcome State Fault Refusal := meaning (.pand f) none (pandBody f) s

/-- POR on single bits. -/
def porBody (f : FmtR) (s : State) (e : Eff) : Res :=
  let x := s.rp f.a ||| s.rp f.b
  doneP s e f.d (s.predOf f.pg 0 fun j => x.getLsbD j)

/-- The meaning of POR. -/
def execPor (f : FmtR) (s : State) : Host.Outcome State Fault Refusal := meaning (.por f) none (porBody f) s

/-- PXOR on single bits. -/
def pxorBody (f : FmtR) (s : State) (e : Eff) : Res :=
  let x := s.rp f.a ^^^ s.rp f.b
  doneP s e f.d (s.predOf f.pg 0 fun j => x.getLsbD j)

/-- The meaning of PXOR. -/
def execPxor (f : FmtR) (s : State) : Host.Outcome State Fault Refusal := meaning (.pxor f) none (pxorBody f) s

/-- PNOT on single bits. -/
def pnotBody (f : FmtR) (s : State) (e : Eff) : Res :=
  let x := ~~~(s.rp f.a)
  doneP s e f.d (s.predOf f.pg 0 fun j => x.getLsbD j)

/-- The meaning of PNOT. -/
def execPnot (f : FmtR) (s : State) : Host.Outcome State Fault Refusal := meaning (.pnot f) none (pnotBody f) s

/-- The elements that are set in a predicate source and active. -/
def State.setElems (s : State) (f : FmtR) : List Nat :=
  let t := s.tyOf f
  let p := s.rp f.a
  (List.range (lanes s.part.vw t)).filter fun i => s.active f.pg t i && p.getLsbD (predBit t i)

/-- PCNT. -/
def pcntBody (f : FmtR) (s : State) (e : Eff) : Res :=
  doneS s e f.d (BitVec.ofNat 64 (s.setElems f).length)

/-- The meaning of PCNT. -/
def execPcnt (f : FmtR) (s : State) : Host.Outcome State Fault Refusal := meaning (.pcnt f) none (pcntBody f) s

/-- PFIRST: −1 when none. -/
def pfirstBody (f : FmtR) (s : State) (e : Eff) : Res :=
  doneS s e f.d (match s.setElems f with
    | i :: _ => BitVec.ofNat 64 i
    | [] => BitVec.allOnes 64)

/-- The meaning of PFIRST. -/
def execPfirst (f : FmtR) (s : State) : Host.Outcome State Fault Refusal := meaning (.pfirst f) none (pfirstBody f) s

end Sys2Proof.Machine
end

