-- ==== Sys2Proof/Machine/VecCvt.lean ====
section
/-! DEFINITION. OP 0x33 (R165-R172): conversion, the BF16 split, block quantization, l6 products and narrow dot
products. -/

namespace Sys2Proof.Machine

/-! ## VCVT (R166) -/

/-- One element converted from type `ts` to type `td` (R45, R49, R51). -/
def cvtElem (sat : Bool) (r : Rnd) (ts td x : Nat) : Nat × Word :=
  if td = 0x16 then toL6 (fval 0x12 x)
  else if ts = 0x16 then cvtFF 0x12 .rne (l6Val x)
  else if tyIsInt ts then (if tyIsInt td then narrow td sat (tyInt ts x) else cvtIF td r (tyInt ts x))
  else if tyIsInt td then cvtFI td r (fval ts x) else cvtFF td r (fval ts x)

/-- VCVT: element k goes from sOff + k to dOff + k. -/
def vcvtBody (f : FmtR) (s : State) (e : Eff) : Res :=
  let td := s.tyOf f
  let ts := resolveTy s.thread.ety (f.imm.toNat % 64)
  let part := f.imm.toNat / 256 % 8
  let ns := lanes s.part.vw ts
  let nd := lanes s.part.vw td
  let m := min ns nd
  let sOff := if nd < ns then part * m else 0
  let dOff := if ns < nd then part * m else 0
  let a := s.rv ts f.a
  let r := s.writeElems f td dOff m fun i =>
    cvtElem (f.mod.getLsbD 3) (s.rmo f) ts td (elem ts a (sOff + (i - dOff)))
  doneV s e f.d r.1 r.2

/-- The meaning of VCVT. -/
def execVcvt (f : FmtR) (s : State) : Host.Outcome State Fault Refusal := meaning (.vcvt f) none (vcvtBody f) s

/-! ## VSPLIT (R53, R167) -/

/-- x − y as an exact value, for finite x and y; a zero is +0. -/
def subExact (x y : FVal) : FVal :=
  match (faddExact x y.opp).1 with
  | .fin _ 0 _ => .fin false 0 0
  | z => z

/-- hi, mid and lo of an f32 element, with the flags. -/
def split3 (x : Nat) : (Nat × Nat × Nat) × Word :=
  match fval 0x12 x with
  | .nan sg => ((fnan 0x10, fnan 0x10, fnan 0x10), flagIf sg flagIV)
  | .inf n => ((finf 0x10 n, 0, 0), 0)
  | .fin n m e =>
    let h := (roundF 0x10 .rne n m e).1
    let hi := match fval 0x10 h with
      | .inf _ => fmax 0x10 n
      | _ => h
    let r1 := subExact (.fin n m e) (fval 0x10 hi)
    let mid := (froundV 0x10 .rne r1).1
    let r2 := subExact r1 (fval 0x10 mid)
    let lo := froundV 0x10 .rne r2
    ((hi, mid, lo.1), lo.2 &&& (flagNX ||| flagUF))

/-- One of VSPLIT's three registers, `p` picking its part: the b16 elements of HALF, the others keeping their bits. -/
def State.splitReg (s : State) (f : FmtR) (p : Nat × Nat × Nat → Nat) (i : Nat) : VReg :=
  let a := s.rv 0x12 f.a
  let na := lanes s.part.vw 0x12
  let lo := na * (f.imm.toNat % 2)
  let keep := s.keepV (f.d + BitVec.ofNat 8 i)
  ofElems 0x10 ((List.range (lanes s.part.vw 0x10)).map fun j =>
    if lo ≤ j ∧ j < lo + na then
      (if s.active f.pg 0x12 (j - lo) then p (split3 (elem 0x12 a (j - lo))).1
       else if zBit f then 0 else elem 0x10 keep j)
    else elem 0x10 keep j)

/-- VSPLIT. -/
def vsplitBody (f : FmtR) (s : State) (e : Eff) : Res :=
  let a := s.rv 0x12 f.a
  let fl := orFlags ((List.range (lanes s.part.vw 0x12)).map fun i =>
    if s.active f.pg 0x12 i then (split3 (elem 0x12 a i)).2 else 0)
  .done s { e with
    writes := e.writes ++ wrV f.d (s.splitReg f (·.1) 0) ++ wrV (f.d + 1) (s.splitReg f (·.2.1) 1)
      ++ wrV (f.d + 2) (s.splitReg f (·.2.2) 2)
    sticky := e.sticky ||| fl }

/-- The meaning of VSPLIT. -/
def execVsplit (f : FmtR) (s : State) : Host.Outcome State Fault Refusal := meaning (.vsplit f) none (vsplitBody f) s

/-! ## VQNT, VDQNT (R168, R169) -/

/-- The magnitude of a finite value. -/
def fmag : FVal → Option (Nat × Int)
  | .fin _ m e => some (m, e)
  | _ => none

/-- Whether m1·2^e1 < m2·2^e2. -/
def magLt (a b : Nat × Int) : Bool :=
  let c := min a.2 b.2
  decide (a.1 <<< (a.2 - c).toNat < b.1 <<< (b.2 - c).toNat)

/-- The greatest magnitude of the finite values of a list, 0 when there is none. -/
def maxMag : List FVal → Nat × Int
  | [] => (0, 0)
  | x :: xs =>
    let r := maxMag xs
    match fmag x with
    | some y => if magLt r y then y else r
    | none => r

/-- x / 2^(c−127) quantized into a type by the mode `r` (R168). -/
def quantElem (t : Nat) (r : Rnd) (c : Nat) (x : FVal) : Nat × Word :=
  if c = 255 ∨ x.isNan then (if tyIsInt t then 0 else fnan t, flagIV)
  else if tyIsInt t then
    match x.scale (127 - c) with
    | .fin n m e =>
      let k := roundToInt r n m e
      let q := sati t k.1
      (wrapNat (tyWidth t) q.1, q.2 ||| flagIf k.2 flagNX)
    | y => (wrapNat (tyWidth t) (if y.neg then tyMin t else tyMax t), flagSAT ||| flagIV)
  else cvtFF t r (x.scale (127 - c))

/-- Byte `b` of a vector value. -/
def vbyte (x : VReg) (b : Nat) : Nat := (x.toNat >>> (8 * b)) % 256

/-- VQNT. Under `.auto` the block scales are formed and written to C, else C is read. -/
def vqntBody (f : FmtR) (s : State) (e : Eff) : Res :=
  let t := s.tyOf f
  let n32 := s.part.vw / 32
  let part := f.imm.toNat % 8
  let auto := f.mod.getLsbD 4
  let a := s.rv 0x12 f.a
  let cIn := if auto then s.keepV f.c else s.rv 0x01 f.c
  let x (k : Nat) : FVal := fval 0x12 (elem 0x12 a k)
  let act (k : Nat) : Bool := s.active f.pg t (part * n32 + k)
  let scales := (List.range (n32 / 8)).map fun j =>
    let ks := (List.range' (8 * j) 8).filter act
    if auto && !ks.isEmpty then let m := maxMag (ks.map x); scaleFor m.1 m.2 (scaleF t)
    else vbyte cIn (part * (n32 / 8) + j)
  let r := s.writeElems f t (part * n32) n32 fun i =>
    let k := i - part * n32
    quantElem t (s.rmo f) (scales.getD (k / 8) 0) (x k)
  let cOut := BitVec.ofNat 2048 (packLanes 8 ((List.range (s.part.vw / 8)).map fun b =>
    if part * (n32 / 8) ≤ b ∧ b < part * (n32 / 8) + n32 / 8 then scales.getD (b - part * (n32 / 8)) 0 else vbyte cIn b))
  .done s { e with
    writes := e.writes ++ wrV f.d r.1 ++ (if auto then wrV f.c cOut else [])
    sticky := e.sticky ||| r.2 }

/-- The meaning of VQNT. -/
def execVqnt (f : FmtR) (s : State) : Host.Outcome State Fault Refusal := meaning (.vqnt f) none (vqntBody f) s

/-- VDQNT. -/
def vdqntBody (f : FmtR) (s : State) (e : Eff) : Res :=
  let t := s.tyOf f
  let n32 := s.part.vw / 32
  let part := f.imm.toNat % 8
  let a := s.rv t f.a
  let c := s.rv 0x01 f.c
  doneElems s e f 0x12 fun i =>
    let k := part * n32 + i
    let sc := vbyte c (k / 8)
    if sc = 255 then (fnan 0x12, flagIV)
    else froundV 0x12 (s.rmo f) ((val t (elem t a k)).scale ((sc : Int) - 127))

/-- The meaning of VDQNT. -/
def execVdqnt (f : FmtR) (s : State) : Host.Outcome State Fault Refusal := meaning (.vdqnt f) none (vdqntBody f) s

/-! ## VLMUL, VLACC (R170) -/

/-- VLMUL. -/
def vlmulBody (f : FmtR) (s : State) (e : Eff) : Res := vec2 s e f fun _ x y => l6Mul x y

/-- The meaning of VLMUL. -/
def execVlmul (f : FmtR) (s : State) : Host.Outcome State Fault Refusal := meaning (.vlmul f) none (vlmulBody f) s

/-- VLACC: a chunk of five for each active lane; an output end as D accumulates from 0 (log entry 83). -/
def vlaccBody (f : FmtR) (s : State) (e : Eff) : Res :=
  let a := s.rv 0x16 f.a
  let b := s.rv 0x16 f.b
  let keep := s.accV f.d
  let xs := (List.range (s.part.vw / 32)).map fun i =>
    if s.active f.pg 0x16 (5 * i) then
      let ps := (List.range' (5 * i) 5).map fun k => mulV 0x16 (elem 0x16 a k) 0x16 (elem 0x16 b k)
      chunkAcc (elem 0x12 keep i) (chunkSum ps (.fin false 0 0, 0)) 0
    else (elem 0x12 keep i, (0 : Word))
  doneV s e f.d (ofElems 0x12 (xs.map (·.1))) (orFlags (xs.map (·.2)))

/-- The meaning of VLACC. -/
def execVlacc (f : FmtR) (s : State) : Host.Outcome State Fault Refusal := meaning (.vlacc f) none (vlaccBody f) s

/-! ## VDOT (R171) -/

/-- The type of B of VDOT: the opposite signedness under `.bx`. -/
def bxTy (bx : Bool) (t : Nat) : Nat :=
  if !bx then t
  else match t with
    | 0x01 => 0x05 | 0x05 => 0x01 | 0x09 => 0x0A | 0x0A => 0x09 | _ => t

/-- VDOT; an output end as D accumulates from 0 (log entry 83). -/
def vdotBody (f : FmtR) (s : State) (e : Eff) : Res :=
  let t := s.tyOf f
  let tb := bxTy (f.mod.getLsbD 4) t
  let r := 32 / (if tyWidth t = 0 then 32 else tyWidth t)
  let a := s.rv t f.a
  let b := s.rv tb f.b
  let keep := s.accV f.d
  let xs := (List.range (s.part.vw / 32)).map fun i =>
    let d := elem 0x12 keep i
    let ks := (List.range' (i * r) r).filter (s.active f.pg t)
    if ks.isEmpty then (d, (0 : Word))
    else if tyIsInt t then
      chunkInt (f.mod.getLsbD 3) d (chunkSumInt (ks.map fun k => (tyInt t (elem t a k), tyInt tb (elem tb b k))))
    else chunkAcc d (chunkSum (ks.map fun k => mulV t (elem t a k) t (elem t b k)) (.fin false 0 0, 0)) 0
  doneV s e f.d (ofElems 0x12 (xs.map (·.1))) (orFlags (xs.map (·.2)))

/-- The meaning of VDOT. -/
def execVdot (f : FmtR) (s : State) : Host.Outcome State Fault Refusal := meaning (.vdot f) none (vdotBody f) s

/-! ## BADDQ (R172) -/

/-- Blocks and element bytes of a block of BADDQ. -/
def baddqShape (t vw : Nat) : Nat × Nat :=
  if t = 0x15 then (if vw = 2048 then 51 else 25, 4) else (if vw = 2048 then 28 else 14, 8)

/-- One block: its eight sums requantized; the elements, the scale and the flags. An exact sum of 0 has the sign +, that of two
zeros −0 too (log entry 64). -/
def baddqBlock (t : Nat) (xa xb : List Nat) (sa sb : Nat) : List Nat × Nat × Word :=
  let ss := (xa.zip xb).map fun p =>
    let a := val t p.1
    let b := val t p.2
    if sa = 255 || sb = 255 || a.isNan || b.isNan then (FVal.nan false, flagIV)
    else faddExact (a.scale ((sa : Int) - 127)) (b.scale ((sb : Int) - 127))
  let m := maxMag (ss.map (·.1))
  let e := scaleFor m.1 m.2 (scaleF t)
  let qs := ss.map fun x =>
    if tyIsInt t then quantElem t .rne e x.1 else cvtFF t .rne (x.1.scale (127 - (e : Int)))
  (qs.map (·.1), e, orFlags (ss.map (·.2)) ||| orFlags (qs.map (·.2)))

/-- BADDQ. -/
def baddqBody (f : FmtR) (s : State) (e : Eff) : Res :=
  let t := s.tyOf f
  let sh := baddqShape t s.part.vw
  let a := s.rv t f.a
  let b := s.rv t f.b
  let keep := s.keepV f.d
  let nb := sh.1
  let eb := sh.2
  let rs := (List.range nb).map fun j =>
    if s.active f.pg 0 (nb * eb + j) then
      let xs (v : VReg) : List Nat := (List.range' (8 * j) 8).map (elem t v)
      let r := baddqBlock t (xs a) (xs b) (vbyte a (nb * eb + j)) (vbyte b (nb * eb + j))
      (packLanes (tyWidth t) r.1, r.2.1, r.2.2)
    else if zBit f then (0, 0, (0 : Word))
    else ((keep.toNat >>> (8 * eb * j)) % 2 ^ (8 * eb), vbyte keep (nb * eb + j), 0)
  let x := packLanes (8 * eb) (rs.map (·.1)) + (packLanes 8 (rs.map (·.2.1)) <<< (8 * (nb * eb)))
  doneV s e f.d (BitVec.ofNat 2048 x) (orFlags (rs.map (·.2.2)))

/-- The meaning of BADDQ. -/
def execBaddq (f : FmtR) (s : State) : Host.Outcome State Fault Refusal := meaning (.baddq f) none (baddqBody f) s

end Sys2Proof.Machine
end

