-- ==== Sys2Proof/Machine/Stream.lean ====
section
/-! DEFINITION. Accesses of the paths other than the thread's (R206), page refill (R200), and the streams and sibling
queues of OP 0x67 (R215-R218). -/

namespace Sys2Proof.Machine

/-! ## Page refill (R200) -/

/-- The last kernel page of a list of pinned pages removed: the least recently used gives way. -/
def dropLastKernel (l : List Nat) : List Nat :=
  match l.reverse.find? (fun p => decide (p < 1016)) with
  | some q => l.filter (· != q)
  | none => l

/-- Page position `p` pinned, as the most recently used; at most 64 are, and of a pre-empted core none. -/
def Core.pin (c : Core) (p : Nat) : Core :=
  let l := p :: c.pinned.filter (· != p)
  if c.saved then c
  else { c with pinned := if l.length ≤ 64 then l else dropLastKernel l }

/-- PAGE_REFILL: an unpinned page of a core is refilled from its backing; no value or timestamp changes. -/
def execPageRefill (c p : Nat) (s : State) : Host.Outcome State Fault Refusal :=
  answer <|
    let x := s.core c
    if x.unpinned p && (decide (p < x.scrPages) || (decide (1016 ≤ p) && decide (p < 1024))) then s.setCore c (x.pin p) else s

/-! ## Accesses of a path (R206) -/

/-- Where an access of slot `k`'s work on core `c` is served: an unpinned page is refilled first and any page used becomes the most
recently used (R200); a translation enters the TLBs (R343). -/
def State.pathReach (s : State) (c k va n : Nat) (acc : Acc) : State × Chk Loc :=
  match s.reach (.slot c k) va n acc with
  | .wait (.page c' p) =>
    let s := s.setCore c' ((s.core c').pin p)
    (s, s.reach (.slot c k) va n acc)
  | .ok (.scr c' off) => (s.setCore c' ((s.core c').touch (off / 4096)), .ok (.scr c' off))
  | .ok (.mem pa) => (s.tlbEnter (.slot c k) va, .ok (.mem pa))
  | r => (s, r)

/-- A read by a path at clock `ts` with lease `lam`: the state, the value and the location's wts. -/
def State.pathRead (s : State) (c k va n ts : Nat) (alloc : Bool) (lam : Nat := 0) : Chk (State × Nat × Nat) :=
  let r := s.pathReach c k va n .pathRead
  r.2.bind fun l => let q := r.1.homeRead l ts lam alloc; .ok (q.1, r.1.peek l n, q.2)

/-- A write by a path under the store rule at clock `ts`: the state and the write timestamp. -/
def State.pathWrite (s : State) (c k va n v ts : Nat) (alloc : Bool) : Chk (State × Nat) :=
  let r := s.pathReach c k va n .pathWrite
  r.2.bind fun l => .ok (r.1.homeWrite l n v ts alloc)

/-! ## Stream elements (R215, R216) -/

/-- The address of element `i` of a stream. -/
def Port.elAddr (p : Port) (i : Nat) : Nat :=
  (p.base + BitVec.ofInt 64 ((i : Int) * p.stride.toInt * (esize p.ty : Nat))).toNat

/-- The elements of one pop or append that begins at element `i`, those at or beyond the count left out. -/
def Port.span (p : Port) (i n : Nat) : List Nat := (List.range' i n).filter fun j => decide (j < p.count)

/-- Elements read in order at clock `ts`: the state, the values and the greatest write timestamp. -/
def State.streamRead (s : State) (c k : Nat) (p : Port) (ts : Nat) : List Nat → Chk (State × List Nat × Nat)
  | [] => .ok (s, [], 0)
  | i :: is =>
    (s.pathRead c k (p.elAddr i) (esize p.ty) ts (p.hnt != 3)).bind fun r =>
      (State.streamRead r.1 c k p ts is).bind fun q => .ok (q.1, r.2.1 :: q.2.1, max r.2.2 q.2.2)

/-- Elements written in order at clock `ts`: the state and the greatest write timestamp. -/
def State.streamWrite (s : State) (c k : Nat) (p : Port) (ts : Nat) : List (Nat × Nat) → Chk (State × Nat)
  | [] => .ok (s, 0)
  | (i, v) :: is =>
    (s.pathWrite c k (p.elAddr i) (esize p.ty) v ts (p.hnt != 3)).bind fun r =>
      (State.streamWrite r.1 c k p ts is).bind fun q => .ok (q.1, max r.2 q.2)

/-- The register-sized element that values make: extended as LD extends, or lanes. -/
def portValue (r ty : Nat) (vs : List Nat) : VReg :=
  if r < 64 then (extTy ty (vs.headD 0)).setWidth 2048 else ofElems ty vs

/-- A port of a slot replaced. -/
def Slot.setPort (t : Slot) (r : Nat) (p : Port) : Slot := { t with ports := aset t.ports r p }

/-- The fences that hold back a port's next element, append or read number `m`. -/
def Port.held (p : Port) (m : Nat) : List Cond := (p.conds.filter fun x => decide (x.1 < m)).map (·.2)

/-- The clock at which work that waited on conditions is served (R226): above every write timestamp of that work. -/
def State.afterConds (s : State) (ts : Nat) (cs : List Cond) : Nat := if cs.isEmpty then ts else max ts (s.condsMark cs + 1)

/-- Stream trackers that a core's generators hold (R198: 128 a core). -/
def Core.asked (c : Core) : Nat := (c.slots.toList.map fun t => (t.ports.map fun p => p.2.asked).sum).sum

/-- The requests that an input port has on their way once it asks: for the pops that it may read ahead, as far as the core's stream
trackers reach (R216), one tracker for each register-sized element (DEDUCED, log entry 24). -/
def Port.ask (p : Port) (free n : Nat) : Nat :=
  min (min (8 - p.buf.length) ((p.count - p.done + n - 1) / n - p.buf.length)) (free + p.asked)

/-- The positions in its buffer of the appends still to be written. -/
def Port.unwritten (p : Port) : List Nat := (List.range p.buf.length).filter fun j => !p.wrote.contains (p.ahead + j)

/-- The requests that an output port has on their way once it asks, of its appends still to be written (R216). -/
def Port.askWrites (p : Port) (free : Nat) : Nat := min p.unwritten.length (free + p.asked)

/-- Appends at the head of the buffer that have been written leave it. -/
def Port.settle (p : Port) : Nat → Port
  | 0 => p
  | n + 1 =>
    if p.wrote.contains p.ahead then Port.settle { p with buf := p.buf.tail, ahead := p.ahead + 1, wrote := p.wrote.filter (· != p.ahead) } n else p

/-- The port with the append at position `j` written at timestamp `w`. -/
def Port.written (p : Port) (j w : Nat) : Port :=
  Port.settle { p with wrote := (p.ahead + j) :: p.wrote, mark := max p.mark w } p.buf.length

/-- STREAM_ELEMENT_ARRIVAL: the next register-sized element of an input stream is read ahead, or its fault is held. -/
def execStreamElementArrival (c k r : Nat) (s : State) : Host.Outcome State Fault Refusal :=
  answer <|
    let t := s.slot c k
    match t.port r with
    | none => s
    | some p =>
      let n := s.perPop r p
      let i := p.done + n * p.buf.length
      let cs := p.held (p.buf.length + 1)
      let asks := p.ask (128 - (s.core c).asked) n
      if p.kind != .input || p.fault.isSome || (s.core c).saved || 8 ≤ p.buf.length || p.count ≤ i || !s.condsDone cs || asks = 0 then s
      else
        match s.streamRead c k p (s.afterConds p.pts cs) (p.span i n) with
        | .ok (s, vs, w) =>
          let t := s.slot c k
          s.setSlot c k (t.setPort r { p with buf := p.buf ++ [⟨portValue r p.ty vs, w⟩], asked := asks - 1 })
        | .bad f => (s.noteFault (.slot c k) f).setSlot c k (t.setPort r { p with asked := 0, fault := some f })
        | .wait _ => s

/-- The elements of a buffered append, each with its index. -/
def Port.appendElems (p : Port) (r i n : Nat) (x : VReg) : List (Nat × Nat) :=
  (p.span i n).map fun j => (j, if r < 64 then x.toNat % 2 ^ (8 * esize p.ty) else elem p.ty x (j - i))

/-- One of the requested appends of an output stream written, the one in place `i` among them (R206: in any order), once its fences let
it be or in spite of them (`open_`): the state, or the held fault; all its elements are checked first. -/
def State.writeAppend (s : State) (c k r i : Nat) (open_ : Bool := false) : State :=
  let t := s.slot c k
  match t.port r with
  | none => s
  | some p =>
    let asks := p.askWrites (128 - (s.core c).asked)
    match (p.unwritten.take asks)[i % max 1 asks]? with
    | none => s
    | some j =>
      let x := (p.buf[j]?).getD ⟨0, 0⟩
      let n := s.perPop r p
      let cs := p.held (p.ahead + j + 1)
      if p.kind != .output || p.fault.isSome || !(open_ || s.condsDone cs) then s
      else
        match s.streamWrite c k p (s.afterConds p.pts cs) (p.appendElems r ((p.ahead + j) * n) n x.val) with
        | .ok (s, w) =>
          let y := (s.core c).noteFence (fun x => match x with
            | .stream c' k' r' b n => c' == c && k' == k && r' == r && b == p.num && decide (p.ahead + j < n)
            | _ => false) w
          let t := y.slot k
          s.setCore c (Core.setSlot { y with smark := max y.smark w } k (t.setPort r { p.written j w with asked := asks - 1 }))
        | .bad f => (s.noteFault (.slot c k) f).setSlot c k (t.setPort r { p with asked := 0, fault := some f })
        | .wait _ => s

/-- Every append of an output stream written, as far as faults let it be. -/
def State.writeAll (s : State) (c k r : Nat) : Nat → State
  | 0 => s
  | n + 1 => State.writeAll (s.writeAppend c k r 0 true) c k r n

/-- STREAM_WRITE_COMPLETION: a requested append of an output stream is performed at its home, the environment choosing which (log entry
5). -/
def execStreamWriteCompletion (c k r : Nat) (s : State) : Host.Outcome State Fault Refusal :=
  answer (s.popPick.writeAppend c k r (s.env.pick.headD 0))

/-! ## Binding (R215, R217) -/

/-- A register as a binding leaves it: empty; a fill held for it stays in its holder until it is unbound (log entry 71). -/
def Slot.bindReg (t : Slot) (r : Nat) (p : Port) : Slot :=
  { t with ports := aset t.ports r p, fe := setBit96 t.fe r false, fillTs := adel t.fillTs r }

/-- A wait for room in output registers, without register `r`. -/
def Wait.without (w : Wait) (r : Nat) : Wait :=
  match w with
  | .full rs => .full (rs.filter (· != r))
  | w => w

/-- A register unbound: it holds 0 and is full, and a thread that waits for its room waits no longer. -/
def Slot.unbind (t : Slot) (r : Nat) : Slot :=
  Slot.fill { t with ports := adel t.ports r, wait := t.wait.map fun w => w.without r } r 0

/-- Register `r` of slot `k` unbound, and the far end of its queue. -/
def State.unbind (s : State) (c k r : Nat) : State :=
  match (s.slot c k).port r with
  | none => s
  | some p =>
    let s := s.setSlot c k ((s.slot c k).unbind r)
    if p.kind = .qsend ∨ p.kind = .qrecv then s.setSlot c p.peerSlot ((s.slot c p.peerSlot).unbind p.peerReg) else s

/-- Stream generators in use on a core (R215: 32). -/
def Core.generators (c : Core) : Nat :=
  (c.slots.toList.map fun t => (t.ports.filter fun p => p.2.kind == .input || p.2.kind == .output).length).sum

/-- SBIND of a stream. -/
def sbindStream (kind : PortKind) (f : FmtR) (s : State) (e : Eff) : Res :=
  match s.cur with
  | .slot c _ =>
    let t := s.thread
    let r := opName f.d
    let ty := f.ty.toNat
    let acc : Acc := if kind == .input then .pathRead else .pathWrite
    let base := s.rs f.a
    let count := (s.rs f.c).toNat
    let p : Port := { kind := kind, base := base, stride := s.rs f.b, count := count, ty := ty, hnt := f.mod.toNat / 2 % 4, pts := t.pts,
                      num := (s.core c).bindNext, conds := (Core.fenced (s.core c) 2).map (Prod.mk 0) }
    if (t.port r).isSome then .fault (flt .port 1)
    else if count = 0 ∨ 2 ^ 48 < count then .fault (flt .illegalOperand 4)
    else if base.toNat % esize ty != 0 then .fault (flt .align 0 acc.code base.toNat)
    else if 32 ≤ (s.core c).generators then .fault (flt .port 1)
    else (s.reach s.cur base.toNat (esize ty) acc).res fun l =>
      let s := s.noteAccess base.toNat l
      let s := s.setCore c { s.core c with bindNext := (s.core c).bindNext + 1 }
      .done (s.setThread (s.thread.bindReg r p)) e
  | _ => .fault (flt .port 1)

/-- The meaning of SBIND.in. -/
def execSbindIn (f : FmtR) (s : State) : Host.Outcome State Fault Refusal :=
  meaning (.sbindIn f) (some .reply) (sbindStream .input f) s

/-- The meaning of SBIND.out. -/
def execSbindOut (f : FmtR) (s : State) : Host.Outcome State Fault Refusal :=
  meaning (.sbindOut f) (some .reply) (sbindStream .output f) s

/-- SBIND.q: D sends to a register of a sibling. -/
def sbindQBody (f : FmtR) (s : State) (e : Eff) : Res :=
  match s.cur with
  | .slot c k =>
    let r := opName f.d
    let a := (s.rs f.a).toNat
    let j := a % 16
    let q := a / 256 % 128
    let u := s.slot c j
    let portReg := (decide (48 ≤ q) && decide (q < 64)) || (decide (88 ≤ q) && decide (q < 96))
    let ok := (s.thread.port r).isNone && a == j + 256 * q && portReg && (decide (q < 64) == decide (r < 64))
      && j != k && decide (j < (s.core c).nslots) && u.st != .idle && (u.port q).isNone
    if !ok then .fault (flt .port 1)
    else
      let s := s.setSlot c j (u.bindReg q { kind := .qrecv, peerSlot := k, peerReg := r })
      .done (s.setThread (s.thread.bindReg r { kind := .qsend, peerSlot := j, peerReg := q })) e
  | _ => .fault (flt .port 1)

/-- The meaning of SBIND.q: it completes at once. -/
def execSbindQ (f : FmtR) (s : State) : Host.Outcome State Fault Refusal := meaning (.sbindQ f) none (sbindQBody f) s

/-- SUNBIND. -/
def sunbindBody (f : FmtR) (s : State) (e : Eff) : Res :=
  match s.cur with
  | .slot c k =>
    let r := opName f.d
    match s.thread.port r with
    | none => .done s e
    | some p =>
      if p.kind == .output && !p.buf.isEmpty then
        (match p.fault with
         | some x => .fault { x with port := some r }
         | none => .park (.drain r))
      else .done (s.unbind c k r) { e with pts := max e.pts (if p.kind == .output then p.mark else 0) }
  | _ => .done s e

/-- The meaning of SUNBIND. -/
def execSunbind (f : FmtR) (s : State) : Host.Outcome State Fault Refusal := meaning (.sunbind f) none (sunbindBody f) s

/-- The word of SSTAT (R218). -/
def State.sstat (s : State) (c : Nat) (t : Slot) (r : Nat) : Word :=
  match t.port r with
  | none => 0
  | some p =>
    let left := match p.kind with
      | .input | .output => p.count - p.done
      | _ => 0
    let held := match p.kind with
      | .qsend => (((s.slot c p.peerSlot).port p.peerReg).map (·.buf.length)).getD 0
      | _ => p.buf.length - p.wrote.length
    let code := match p.kind with
      | .input | .qrecv => 1
      | .output => 2
      | .qsend => 3
    BitVec.ofNat 64 (left * 65536 + held % 256 * 256 + (if p.fault.isSome then 4 else 0) + code)

/-- SSTAT: a sample. -/
def sstatBody (f : FmtR) (s : State) (e : Eff) : Res := doneS s e f.d (s.sstat s.myCore s.thread (opName f.a))

/-- The meaning of SSTAT. -/
def execSstat (f : FmtR) (s : State) : Host.Outcome State Fault Refusal := meaning (.sstat f) none (sstatBody f) s

end Sys2Proof.Machine
end

