-- ==== Sys2Proof/Machine/Map.lean ====
section
/-! DEFINITION. Key-addressed maps (R250-R270): hashing and placement, the operations at the agents, growth, and the
instructions of OP 0x78 and 0x79. A group is its entries in storage order; the bucket layout, which R253 calls
informative, is not kept. -/

namespace Sys2Proof.Machine

/-! ## Hashing and placement (R252, R253) -/

/-- MS values (R117). -/
def msHit : Nat := 0
def msMiss : Nat := 1
def msFull : Nat := 2
def msPresent : Nat := 3
def msBusy : Nat := 4

/-- h of a key (R252). -/
def MapDesc.hashOf (d : MapDesc) (k : BitVec 128) : Nat :=
  let lo : Word := k.extractLsb' 0 64
  let hi : Word := if d.keyw = 0x21 then k.extractLsb' 64 64 else 0
  if d.hash = 1 then (lo ^^^ hi).toNat
  else
    let x := lo ^^^ d.seed
    let x := if d.keyw = 0x21 then x ^^^ hi.rotateLeft 29 else x
    let x := (x ^^^ (x >>> 31)) * (0xC3A51D7B8E294F6B : Word)
    let x := (x ^^^ (x >>> 29)) * (0x5B8E97D13C6AF2E3 : Word)
    (x ^^^ (x >>> 32)).toNat

/-- The group of a hash for a level and split pointer. -/
def groupOf (level s h : Nat) : Nat :=
  let g := h % 2 ^ level
  if g < s then h % 2 ^ (level + 1) else g

/-- Groups in use. -/
def MapDesc.count (d : MapDesc) : Nat := 2 ^ d.level + d.s

/-- The physical address of a byte of a region. -/
def KMap.paAt (m : KMap) (off : Nat) : Nat := (m.pages[off / 65536]?).getD 0 + off % 65536

/-- The fold whose slice's agent keeps group `g` (R255). -/
def KMap.agent (m : KMap) (g : Nat) : Nat := homeFold (m.paAt (128 + 512 * g) / 64)

/-- The fold whose agent keeps the descriptor. -/
def KMap.descAgent (m : KMap) : Nat := homeFold (m.paAt 0 / 64)

/-- The timestamp of the groups at the agent of fold `a` that no operation has reached. -/
def KMap.baseAt (m : KMap) (a : Nat) : Nat := (aget m.base a).getD m.desc.wts

/-- A group of a map; one that no operation has reached is empty at the initial level. -/
def KMap.group (m : KMap) (g : Nat) : MapGroup :=
  (aget m.groups g).getD { level := m.desc.level0, wts := m.baseAt (m.agent g), rts := m.baseAt (m.agent g), entries := [], chain := [] }

/-- A group replaced. -/
def KMap.setGroup (m : KMap) (g : Nat) (x : MapGroup) : KMap := { m with groups := aset m.groups g x }

/-- Entries of a line (R253). -/
def MapDesc.cap (d : MapDesc) : Nat := if d.keyw = 0x21 then 2 else 3

/-- The entry of group `g` that a KITER's cursor leads to: from the cursor's position on in its own group, from the first on in a later
one (R269). -/
def KMap.iterAt (m : KMap) (g : Nat) (cursor : Word) : Nat × Option (BitVec 128 × Word) :=
  let pos := if g = cursor.toNat / 2 ^ 32 then cursor.toNat % 2 ^ 32 else 0
  (pos, (m.group g).entries[pos]?)

/-- The group that the agent of group `g` finds an operation to be for: another than `g` when a split has moved its key's place since
the request was sent (R259 step 4), and the next one for a KITER that finds no entry in `g` (R269). One that reached its agent during a
KCLR (`busy`) is answered there (R263). -/
def KMap.next (m : KMap) (g : Nat) (o : MapOp) (busy : Bool) : Nat :=
  if busy then g
  else if o.kind ≤ 3 then m.desc.hashOf o.key % 2 ^ (m.group g).level
  else if o.kind = 4 ∧ g + 1 < m.desc.count ∧ (m.iterAt g o.x).2.isNone then g + 1
  else g

/-- A map by the physical address of its region. -/
def State.kmap? (s : State) (region : Nat) : Option KMap := aget s.kmaps region

/-- A map replaced. -/
def State.setKmap (s : State) (region : Nat) (m : KMap) : State := { s with kmaps := aset s.kmaps region m }

/-- The lines of a group and its chain. -/
def KMap.lines (m : KMap) (g : Nat) : List Nat :=
  ((List.range 8).map fun j => m.paAt (128 + 512 * g + 64 * j) / 64) ++ (m.group g).chain.map fun l => m.paAt (64 * l) / 64

/-- The lines that an agent reads for an operation on group `g`: for KCLR those of the descriptor, and of group S when a split of it has
still to be made; else those of the group. -/
def KMap.linesOf (m : KMap) (g : Nat) (o : MapOp) : List Nat :=
  if o.kind = 5 then
    [m.paAt 0 / 64, m.paAt 64 / 64] ++ if m.desc.splitting && !(aget m.groups m.desc.count).isSome then m.lines m.desc.s else []
  else m.lines g

/-- The folds of the agents that keep a map's groups. -/
def KMap.agents (m : KMap) : List Nat := ((List.range m.desc.count).map m.agent).eraseDups

/-- The ways that a split takes: from the descriptor's agent to that of group S, on to that of the new group, and back (R259, R367). -/
def State.splitRouted (s : State) (m : KMap) : Bool :=
  let a := m.descAgent / 128
  let b := m.agent m.desc.s / 128
  s.routed a b && s.routed b (m.agent m.desc.count / 128) && s.routed b a

/-- The ways that a KCLR takes: of the split it waits for, and to every group's agent (R270, R367). -/
def State.clearRouted (s : State) (m : KMap) : Bool :=
  (!m.desc.splitting || s.splitRouted m) && m.agents.all fun a => s.routed (m.descAgent / 128) (a / 128)

/-- Whether an operation does not complete for now: one of those lines is poisoned (R403; log entry 90), or a KCLR lacks a way. -/
def State.mapHeld (s : State) (m : KMap) (g : Nat) (o : MapOp) : Bool :=
  (!s.dev.poisoned.isEmpty && (m.linesOf g o).any s.dev.poisoned.contains) || (o.kind == 5 && !s.clearRouted m)

/-! ## Overflow lines (R253, R254) -/

/-- The end of the groups in use in bytes, the group a split is about to open among them. -/
def MapDesc.groupsEnd (d : MapDesc) : Nat := 128 + 512 * (d.count + if d.splitting then 1 else 0)

/-- The index of the lowest overflow line taken, or of the region's end. -/
def KMap.lowest (m : KMap) : Nat := 1024 * m.pages.length - m.desc.pool

/-- An overflow line, from FREELIST or the region. -/
def KMap.takeLine (m : KMap) : Option (KMap × Nat) :=
  match m.desc.freelist with
  | l :: ls => some ({ m with desc := { m.desc with freelist := ls } }, l)
  | [] =>
    if m.lowest = 0 ∨ 64 * (m.lowest - 1) < m.desc.groupsEnd then none
    else some ({ m with desc := { m.desc with pool := m.desc.pool + 1 } }, m.lowest - 1)

/-- Room for one more entry in a group: the map and the group's overflow lines. -/
def KMap.room (m : KMap) (g : Nat) : Option (KMap × List Nat) :=
  let x := m.group g
  if x.entries.length < m.desc.cap * (8 + x.chain.length) then some (m, x.chain)
  else (m.takeLine).map fun r => (r.1, x.chain ++ [r.2])

/-- Overflow lines that `n` entries need. -/
def MapDesc.linesFor (d : MapDesc) (n : Nat) : Nat := (n - 8 * d.cap + d.cap - 1) / d.cap

/-! ## One operation on a key (R263) -/

/-- COMB (R263). -/
def comb (op : Nat) (signed : Bool) (old x : Word) : Word :=
  match op with
  | 0 => old + x
  | 1 => if signed then (if x.toInt < old.toInt then x else old) else (if x.toNat < old.toNat then x else old)
  | 2 => if signed then (if old.toInt < x.toInt then x else old) else (if old.toNat < x.toNat then x else old)
  | 3 => old ||| x
  | 4 => x
  | _ => old + 1

/-- The value of key `k` in a group, when present. -/
def MapGroup.find (x : MapGroup) (k : BitVec 128) : Option Word := (x.entries.find? fun e => e.1 == k).map (·.2)

/-- A key inserted, or none when there is no room. -/
def KMap.insertKey (m : KMap) (g : Nat) (k : BitVec 128) (v : Word) : Option KMap :=
  (m.room g).map fun r =>
    let x := r.1.group g
    let m := r.1.setGroup g { x with entries := x.entries ++ [(k, v)], chain := r.2 }
    { m with desc := { m.desc with entries := m.desc.entries + 1 } }

/-- A present key's value replaced. -/
def KMap.replaceKey (m : KMap) (g : Nat) (k : BitVec 128) (v : Word) : KMap :=
  let x := m.group g
  m.setGroup g { x with entries := x.entries.map fun e => if e.1 == k then (k, v) else e }

/-- A present key removed; an emptied overflow line goes onto FREELIST. -/
def KMap.removeKey (m : KMap) (g : Nat) (k : BitVec 128) : KMap :=
  let x := m.group g
  let es := x.entries.filter fun e => e.1 != k
  let need := m.desc.linesFor es.length
  let m := m.setGroup g { x with entries := es, chain := x.chain.take need }
  { m with desc := { m.desc with entries := m.desc.entries - 1, freelist := (x.chain.drop need).reverse ++ m.desc.freelist } }

/-- KINS with value `v`. -/
def KMap.kins (m : KMap) (g : Nat) (k : BitVec 128) (v : Word) : KMap × MapAns :=
  match (m.group g).find k with
  | some old => (m, { val := old, ms := msPresent })
  | none =>
    match m.insertKey g k v with
    | some m => (m, { val := m.desc.dflt, ms := msMiss })
    | none => (m, { val := m.desc.dflt, ms := msFull })

/-- One operation at the agent of group `g`, which keeps the key's group. -/
def KMap.apply (m : KMap) (g : Nat) (o : MapOp) : KMap × MapAns :=
  let d := m.desc
  let keep (v : Word) : Word := if d.valw = 0 then 0 else v
  let present := (m.group g).find o.key
  let old := present.getD d.dflt
  match o.kind with
  | 0 => (m, { val := old, ms := if present.isSome then msHit else msMiss })
  | 1 => m.kins g o.key (keep o.x)
  | 2 =>
    if d.valw = 0 then m.kins g o.key 0
    else
      let new := comb o.comb o.signed old o.x
      if present.isSome then (m.replaceKey g o.key new, { val := old, ms := msHit })
      else
        match m.insertKey g o.key new with
        | some m => (m, { val := old, ms := msMiss })
        | none => (m, { val := d.dflt, ms := msFull })
  | _ => (if present.isSome then m.removeKey g o.key else m, { val := old, ms := if present.isSome then msHit else msMiss })

/-! ## Timestamps and growth at an agent (R257, R259) -/

/-- Event `ev` counted `n` times in the cores of a fold, for an event of its agents (R363). -/
def State.countFold (s : State) (ev f n : Nat) : State :=
  (coresOf f).foldl (fun s c => s.setCore c ((List.range n).foldl (fun x _ => x.count ev 0) (s.core c))) s

/-- A timestamp clamped at the slice of fold `f`, the event counted (R204). -/
def State.clampFold (s : State) (f own ts : Nat) : State × Nat :=
  let c := clampTs (max (s.fold f).greatest own) ts
  (if c = ts then s else s.skewFold f, c)

/-- The greatest timestamp of a slice raised. -/
def State.noteTs (s : State) (f ts : Nat) : State := s.setFold f { s.fold f with greatest := max (s.fold f).greatest ts }

/-- A group read under the load rule with λ = 0 by a thread of PTS `pts`: the thread's new PTS. -/
def State.groupLoad (s : State) (region g pts : Nat) : State × Nat :=
  match s.kmap? region with
  | none => (s, pts)
  | some m =>
    let x := m.group g
    let p := pts + 1
    let c := s.clampFold (m.agent g) x.rts p
    let rts := max x.rts c.2
    ((c.1.setKmap region (m.setGroup g { x with rts := rts })).noteTs (m.agent g) rts, max p x.wts)

/-- A group written under the store rule: the write timestamp. -/
def State.groupStore (s : State) (region g pts : Nat) : State × Nat :=
  match s.kmap? region with
  | none => (s, pts)
  | some m =>
    let x := m.group g
    let c := s.clampFold (m.agent g) x.rts pts
    let w := max c.2 (x.rts + 1)
    ((c.1.setKmap region (m.setGroup g { x with wts := w, rts := w })).noteTs (m.agent g) w, w)

/-- A split request sent when an insertion leaves a group above THRESHOLD (R259 step 1). -/
def State.askSplit (s : State) (region g before : Nat) : State :=
  match s.kmap? region with
  | none => s
  | some m =>
    let n := (m.group g).entries.length
    if before < n ∧ m.desc.threshold < n ∧ m.desc.threshold ≠ 0 then { s with splitReqs := s.splitReqs ++ [(region, g)] } else s

/-- An answer counted: of a blocking operation a FULL in FULLS, of a posted upsert FULL and BUSY in REFUSED (R251). -/
def KMap.countBad (m : KMap) (ms : Nat) (blocking : Bool) : KMap :=
  let d := m.desc
  { m with desc := if blocking then (if ms == msFull then { d with fulls := d.fulls + 1 } else d)
                   else (if ms == msFull || ms == msBusy then { d with refused := d.refused + 1 } else d) }

/-- One keyed operation served at the agent of its group for a clock `pts`: the answer and the timestamp the thread takes. -/
def State.serveKey (s : State) (region g pts : Nat) (o : MapOp) (blocking : Bool) : State × MapAns × Nat :=
  match s.kmap? region with
  | none => (s, { val := 0, ms := msMiss }, pts)
  | some m =>
    let n := (m.group g).entries.length
    let r := m.apply g o
    let s := s.setKmap region (r.1.countBad r.2.ms blocking)
    let q := if o.kind = 0 then s.groupLoad region g pts else s.groupStore region g pts
    (q.1.askSplit region g n, r.2, q.2)

/-- The answer of KITER at the end of the walk (R269). -/
def iterEnd : MapAns := { val := 0, cursor := BitVec.allOnes 64, ms := msMiss }

/-- A step of KITER at group `g` (R269): the group, when in use, read under the load rule, and the entry that the cursor leads to there, or
the end. -/
def State.serveIter (s : State) (region g pts : Nat) (cursor : Word) : State × MapAns × Nat :=
  match s.kmap? region with
  | none => (s, iterEnd, pts)
  | some m =>
    if m.desc.count ≤ g then (s, iterEnd, pts)
    else
      let r := s.groupLoad region g pts
      let x := m.iterAt g cursor
      match x.2 with
      | some e => (r.1, { val := e.2, key := e.1, cursor := BitVec.ofNat 64 (g * 2 ^ 32 + x.1 + 1), ms := msHit }, r.2)
      | none => (r.1, iterEnd, r.2)

/-! ## Splits (R259) -/

/-- SPLIT_REQUEST: the descriptor's agent ignores a request or orders the split; it waits for a way to that agent (R367). -/
def execSplitRequest (i : Nat) (s : State) : Host.Outcome State Fault Refusal :=
  answer <|
    match s.splitReqs[i]? with
    | none => s
    | some (region, asker) =>
      let s1 := { s with splitReqs := dropAt s.splitReqs i }
      match s.kmap? region with
      | none => s1
      | some m =>
        let d := m.desc
        let g := d.count
        if !s.routed (m.agent asker / 128) (m.descAgent / 128) then s
        else if d.splitting || d.clearing || d.threshold == 0 || decide (d.maxgroups ≤ g) || decide (64 * m.lowest < 128 + 512 * (g + 1))
        then s1 else s1.setKmap region { m with desc := { d with splitting := true } }

/-- The split of group S into S and G, at one timestamp. -/
def KMap.split (m : KMap) : KMap :=
  let d := m.desc
  let gNew := d.count
  let x := m.group d.s
  let p := x.entries.partition fun e => (m.desc.hashOf e.1).testBit d.level
  let t := x.rts + 1
  let nNew := d.linesFor p.1.length
  let nOld := d.linesFor p.2.length
  let lines := x.chain
  let m := m.setGroup d.s { level := d.level + 1, wts := t, rts := t, entries := p.2, chain := lines.take nOld }
  let m := m.setGroup gNew { level := d.level + 1, wts := t, rts := t, entries := p.1, chain := (lines.drop nOld).take nNew }
  { m with desc := { m.desc with splits := d.splits + 1, freelist := (lines.drop (nOld + nNew)).reverse ++ d.freelist } }

/-- Whether the ordered split has been made and awaits its publication. -/
def KMap.splitMade (m : KMap) : Bool := (aget m.groups m.desc.count).isSome

/-- SPLIT, once no line of group S is poisoned and its ways are open. -/
def State.doSplit (s : State) (region : Nat) : State :=
  match s.kmap? region with
  | none => s
  | some m =>
    if m.desc.splitting && !m.splitMade && !(m.lines m.desc.s).any s.dev.poisoned.contains && s.splitRouted m then
      let m' := m.split
      ((s.setKmap region m').noteTs (m.agent m.desc.s) (m'.group m.desc.s).rts).noteTs (m'.agent m.desc.count) (m'.group m.desc.s).rts
    else s

/-- The meaning of SPLIT. -/
def execSplit (m : Nat) (s : State) : Host.Outcome State Fault Refusal := answer (s.doSplit m)

/-- The updates of every map-table copy that is bound to a region (R259 step 3). -/
def State.copiesOf (s : State) (region level sp : Nat) : List (Nat × Nat × Nat × Nat × Nat) :=
  s.folds.flatMap fun f =>
    match f.2.launch with
    | none => []
    | some l => (f.2.maps.filter fun e => e.2.region == region).map fun e => (f.1, l, e.1, level, sp)

/-- L and S published. -/
def State.publish (s : State) (region : Nat) : State :=
  match s.kmap? region with
  | none => s
  | some m => s.setKmap region { m with stale := m.stale ++ s.copiesOf region m.desc.level m.desc.s }

/-- The descriptor after a split: S advanced, L when it wraps. -/
def MapDesc.advance (d : MapDesc) : MapDesc :=
  if d.s + 1 = 2 ^ d.level then { d with level := d.level + 1, s := 0, splitting := false }
  else { d with s := d.s + 1, splitting := false }

/-- Publication of a split that has been made. -/
def State.publishSplit (s : State) (region : Nat) : State :=
  match s.kmap? region with
  | none => s
  | some m =>
    if m.desc.splitting && m.splitMade && s.splitRouted m then (s.setKmap region { m with desc := m.desc.advance }).publish region else s

/-- SPLIT_PUBLICATION. -/
def execSplitPublication (m : Nat) (s : State) : Host.Outcome State Fault Refusal := answer (s.publishSplit m)

/-- The first update in flight to a copy, and the others. -/
def takeStale (f l n : Nat) : List (Nat × Nat × Nat × Nat × Nat) → Option ((Nat × Nat) × List (Nat × Nat × Nat × Nat × Nat))
  | [] => none
  | (a, b, c, lv, sp) :: xs =>
    if a = f ∧ b = l ∧ c = n then some ((lv, sp), xs) else (takeStale f l n xs).map fun r => (r.1, (a, b, c, lv, sp) :: r.2)

/-- MAP_COPY_UPDATE: the published L and S reach a fold's copy. -/
def execMapCopyUpdate (f l n : Nat) (s : State) : Host.Outcome State Fault Refusal :=
  answer <|
    let x := s.fold f
    if x.launch != some l then s
    else
      match aget x.maps n with
      | none => s
      | some e =>
        match (s.kmap? e.region).bind fun m => (takeStale f l n m.stale).map fun r => (m, r) with
        | none => s
        | some (m, u, rest) =>
          if !s.routed (m.descAgent / 128) (f / 128) then s
          else (s.setKmap e.region { m with stale := rest }).setFold f
            { x with maps := aset x.maps n { e with level := u.1, s := u.2 } }

/-! ## KCLR (R270) -/

/-- The greatest timestamp of the groups at the agent of fold `a`. -/
def KMap.topAt (m : KMap) (a : Nat) : Nat := m.groups.foldl (fun t g => if m.agent g.1 = a then max t g.2.rts else t) (m.baseAt a)

/-- The groups at each of these agents written under the store rule at clock `pts`, `own` the greatest timestamp they had there: each
agent's write timestamp, clamped as its own home's, and the greatest (R204, R257). -/
def State.storeGroups (s : State) (own : Nat → Nat) (pts : Nat) : List Nat → State × List (Nat × Nat) × Nat
  | [] => (s, [], pts)
  | a :: as =>
    let c := s.clampFold a (own a) pts
    let w := max c.2 (own a + 1)
    let r := State.storeGroups (c.1.noteTs a w) own pts as
    (r.1, (a, w) :: r.2.1, max w r.2.2)

/-- A KCLR begun at the descriptor's agent: DFLAGS bit 1 set and the counters 0 (R270). -/
def State.beginClear (s : State) (region : Nat) : State :=
  match s.kmap? region with
  | none => s
  | some m =>
    s.setKmap region { m with desc := { m.desc with clearing := true, splits := 0, forwards := 0, combined := 0, refused := 0, fulls := 0 } }

/-- A KCLR's work once begun: every group made empty under the store rule at clock `pts`, L, S, POOL and FREELIST as at the start, bit 1
clear and L and S published; the entries removed and the greatest timestamp. -/
def State.clearMap (s : State) (region pts : Nat) : State × Nat × Nat :=
  match s.kmap? region with
  | none => (s, 0, pts)
  | some m =>
    let d := m.desc
    let r := s.storeGroups m.topAt pts m.agents
    let d' := { d with level := d.level0, s := 0, pool := 0, freelist := [], entries := 0, clearing := false, splitting := false, wts := r.2.2 }
    ((r.1.setKmap region { m with desc := d', groups := [], base := r.2.1 }).publish region, d.entries, r.2.2)

/-- The descriptor's agent begins a KCLR, a split in progress ended first. -/
def State.startClear (s : State) (region : Nat) : State := ((s.doSplit region).publishSplit region).beginClear region

/-- Whether a KCLR of a map is in progress. -/
def State.mapBusy (s : State) (region : Nat) : Bool := ((s.kmap? region).map (·.desc.clearing)).getD false

/-- KCLR served: begun, unless it has been, and done. -/
def State.serveClear (s : State) (region pts : Nat) : State × MapAns × Nat :=
  let r := (if s.mapBusy region then s else s.startClear region).clearMap region pts
  (r.1, { val := BitVec.ofNat 64 r.2.1, ms := msHit }, r.2.2)

/-! ## Requests (R255) -/

/-- The agent's fold for an operation sent to group `g`. -/
def KMap.agentOf (m : KMap) (g : Nat) (o : MapOp) : Nat := if o.kind = 5 then m.descAgent else m.agent g

/-- Whether the agent of group `g` has a way to that of group `g'`. -/
def State.agentRouted (s : State) (m : KMap) (g g' : Nat) : Bool := s.routed (m.agent g / 128) (m.agent g' / 128)

/-- An operation of clock `pts` sent on from group `g` to the agent of group `g'`, and its clock there: a keyed one forwarded, which
counts as event 8 at that agent (R259 step 4, R363); a KITER once it has read group `g` under the load rule (R269). -/
def State.forward (s : State) (region g g' pts : Nat) (o : MapOp) : State × Nat :=
  match s.kmap? region with
  | none => (s, pts)
  | some m =>
    if o.kind = 4 then s.groupLoad region g pts
    else ((s.setKmap region { m with desc := { m.desc with forwards := m.desc.forwards + 1 } }).countFold 8 (m.agent g') 1, pts)

/-- An operation sent on from agent to agent as long as no other request stands in the queue of the one it reaches, nothing holds it there
and the way on is open (R255, R259 step 4, R367, R403): the group it is for there, its clock, and whether it is that agent's turn to serve
it. -/
def State.carry (s : State) (region : Nat) (o : MapOp) : Nat → Nat → Nat → State × Nat × Nat × Bool
  | 0, g, pts => (s, g, pts, false)
  | n + 1, g, pts =>
    match s.kmap? region with
    | none => (s, g, pts, false)
    | some m =>
      let g' := m.next g o m.desc.clearing
      if !(s.fold (m.agentOf g o)).agentQ.isEmpty || (!m.desc.clearing && s.mapHeld m g o) then (s, g, pts, false)
      else if g' = g then (s, g, pts, true)
      else if !s.agentRouted m g g' then (s, g, pts, false)
      else
        let x := s.forward region g g' pts o
        State.carry x.1 region o n g' x.2

/-- The most forwards of a request: levels rise with each, to 31 and one more (R251). -/
def mostForwards : Nat := 64

/-- One operation of a request served by the agent of the group `g` that it is for. One that reached its agent during a KCLR (`busy`) is
answered BUSY (R263), without a timestamp, and a KITER's cursor is then the end's (log entry 89). -/
def State.serveOp (s : State) (region g pts : Nat) (o : MapOp) (blocking busy : Bool) : State × MapAns × Nat :=
  match s.kmap? region with
  | none => (s, { val := 0, ms := msMiss }, pts)
  | some m =>
    if busy then (s.setKmap region (m.countBad msBusy blocking), { val := m.desc.dflt, cursor := BitVec.allOnes 64, ms := msBusy }, pts)
    else
      match o.kind with
      | 5 => s.serveClear region pts
      | 4 => s.serveIter region g pts o.x
      | _ => s.serveKey region g pts o blocking

/-- The combined status of the lanes (R264). -/
def lanesMs (xs : List MapAns) : Nat :=
  if xs.any (·.ms == msBusy) then msBusy
  else if xs.any (·.ms == msFull) then msFull
  else if xs.any (·.ms == msMiss) then msMiss else msHit

/-- The bits of a predicate that lanes set, eight a lane, the rest as they were. -/
def lanesPred (keep : PReg) (xs : List MapAns) : PReg :=
  let n := xs.length
  BitVec.ofNat 256 (packLanes 8 (xs.map fun x => if x.ms == msHit then 255 else 0) + ((keep.toNat >>> (8 * n)) <<< (8 * n)))

/-- The register effects of a completed map instruction. -/
def State.mapEff (s : State) (sh : MapShape) (e : Eff) (xs : List MapAns) (ts : Nat) : Eff :=
  let e := { e with pts := max e.pts ts }
  match sh with
  | .scalar d =>
    let x := xs.headD { val := 0, ms := 0 }
    { e with writes := e.writes ++ wrS d x.val, ms := some x.ms }
  | .count d =>
    let x := xs.headD { val := 0, ms := 0 }
    { e with writes := e.writes ++ wrS d x.val, ms := if x.ms == msBusy then some msBusy else e.ms }
  | .vector d b n =>
    let keep := s.keepV d
    let vs := (List.range (s.part.vw / 64)).map fun i => if i < n then ((xs[i]?).map (·.val.toNat)).getD 0 else elem 0x08 keep i
    { e with writes := e.writes ++ wrV d (ofElems 0x08 vs) ++ wrP b (lanesPred (s.thread.pr (opName b - 96)) xs), ms := some (lanesMs xs) }
  | .posted .. => e
  | .iter d keyw =>
    let x := xs.headD { val := 0, ms := 0 }
    let ks := if keyw = 0x21 then wrS (d + 1) (x.key.extractLsb' 0 64) ++ wrS (d + 2) (x.key.extractLsb' 64 64) ++ wrS (d + 3) x.val
              else wrS (d + 1) (x.key.extractLsb' 0 64) ++ wrS (d + 2) x.val
    { e with writes := e.writes ++ wrS d x.cursor ++ ks, ms := some x.ms }

/-- The device of the agent of group `g`. -/
def State.agentDev (s : State) (region g : Nat) (o : MapOp) : Nat := ((s.kmap? region).map fun m => m.agentOf g o / 128).getD 0

/-- The operations of the current thread's request served in order from now on, as long as no agent's queue holds another request: the state
and the request with what is left. -/
def State.serveOps (s : State) (r : MapReq) : List (Nat × MapOp) → State × MapReq
  | [] => (s, { r with ops := [] })
  | (g, o) :: os =>
    let y := s.carry r.region o mostForwards g r.pts
    if y.2.2.2 then
      let x := y.1.serveOp r.region y.2.1 y.2.2.1 o true (y.1.mapBusy r.region)
      State.serveOps (x.1.setFrom (y.1.agentDev r.region y.2.1 o)) { r with done := r.done ++ [x.2.1], ts := max r.ts x.2.2 } os
    else (y.1, { r with pts := y.2.2.1, ops := (y.2.1, o) :: os })

/-- A request as it reaches its agent's queue, where it is known whether a KCLR is in progress (R263). -/
def State.reached (s : State) (r : MapReq) : MapReq := { r with busy := s.mapBusy r.region }

/-- A request put in the queue of the agent of its first operation; one that holds 64 accepts no more, and the request waits in
the routers (R255). -/
def State.enqueueMap (s : State) (r : MapReq) : State :=
  match r.ops, s.kmap? r.region with
  | (g, o) :: _, some m =>
    let f := m.agentOf g o
    let x := s.fold f
    s.setFold f (if x.agentQ.length < 64 then { x with agentQ := x.agentQ ++ [s.reached r] } else { x with agentWait := x.agentWait ++ [r] })
  | _, _ => s

/-- A map agent's queue replaced, the oldest requests that wait for it entering as there is room. -/
def State.setAgentQ (s : State) (f : Nat) (q : List MapReq) : State :=
  let x := s.fold f
  s.setFold f { x with agentQ := q ++ (x.agentWait.take (64 - q.length)).map s.reached, agentWait := x.agentWait.drop (64 - q.length) }

/-- Whether a thread still waits for an agent's answer. -/
def State.awaits (s : State) (w : Who) : Bool := (s.as w).thread.wait == some .served

/-- A finished request answered from device `d`; of a posted upsert, the mark of its thread rises (R258), and a FENCEX that waits for it learns its
timestamp (R226). -/
def State.answerMap (s : State) (r : MapReq) (d : Nat) : State :=
  match r.shape, r.who with
  | .posted num n, .slot c k =>
    let s := { s with posted := s.posted.filter fun p => !(p.core == c && p.num == num) }
    let t := s.slot c k
    let s := s.setSlot c k { t with posted := aset t.posted n (max ((aget t.posted n).getD 0) r.ts) }
    s.setCore c ((s.core c).noteFence (fun x => match x with
      | .key c' n => c' == c && decide (num ≤ n)
      | _ => false) r.ts)
  | _, _ =>
    if s.awaits r.who then
      let s := (s.as r.who).count 7
      s.deliverReply d (s.mapEff r.shape r.eff r.done r.ts)
    else s

/-- Whether a request of the map of `region` is an upsert to key `k`. -/
def MapReq.upserts (r : MapReq) (region : Nat) (k : BitVec 128) : Bool :=
  r.region == region && !r.busy && match r.ops with
    | (_, o) :: _ => o.kind == 2 && o.key == k
    | [] => false

/-- Whether a request of the map of `region` may see or change key `k` otherwise. -/
def MapReq.meets (r : MapReq) (region : Nat) (k : BitVec 128) : Bool :=
  r.region == region && !r.busy && match r.ops with
    | (_, o) :: _ => decide (4 ≤ o.kind) || o.key == k
    | [] => false

/-- The upserts to a key, at most `n`, that an agent may combine with the one it serves (R256): those of its queue that no other
operation on the key precedes; and the queue without them. -/
def combinable (region : Nat) (k : BitVec 128) : List MapReq → Nat → List MapReq × List MapReq
  | [], _ => ([], [])
  | q :: qs, 0 => ([], q :: qs)
  | q :: qs, n + 1 =>
    if q.upserts region k then let r := combinable region k qs n; (q :: r.1, r.2)
    else if q.meets region k then ([], q :: qs)
    else let r := combinable region k qs (n + 1); (r.1, q :: r.2)

/-- Whether a request's thread waits for its answer. -/
def MapReq.blocking (r : MapReq) : Bool :=
  match r.shape with
  | .posted .. => false
  | _ => true

/-- What is left of a request whose next operation is served on device `d`: an answer, or a request for its next agent. -/
def State.passOn (s : State) (d : Nat) (r : MapReq) (a : MapAns) (ts : Nat) : State :=
  let r := { r with done := r.done ++ [a], ts := max r.ts ts, ops := r.ops.tail }
  if r.ops.isEmpty then s.answerMap r d else s.enqueueMap r

/-- Upserts to one key combined into one write of the entry: applied one by one in order of arrival, under one write timestamp
(R256, R257). -/
def State.serveCombined (s : State) (g pts : Nat) : List MapReq → State
  | [] => s
  | r :: rs =>
    match r.ops, s.kmap? r.region with
    | (_, o) :: _, some m =>
      let n := (m.group g).entries.length
      -- each is applied to the entry as the one before it left it
      let go := (r :: rs).foldl (fun (y : KMap × List (MapReq × MapAns)) q =>
        let z := y.1.apply g (match q.ops with
          | p :: _ => p.2
          | [] => o)
        (z.1.countBad z.2.ms q.blocking, y.2 ++ [(q, z.2)])) (m, [])
      let m' := go.1
      let s := s.setKmap r.region { m' with desc := { m'.desc with combined := m'.desc.combined + rs.length } }
      let w := s.groupStore r.region g (rs.foldl (fun p q => max p q.pts) pts)
      go.2.foldl (fun s q => s.passOn (m.agent g / 128) q.1 q.2 w.2) (w.1.askSplit r.region g n)
    | _, _ => s

/-- The upserts of an agent's queue that it combines with the one at its head, the environment choosing, and the queue without them. -/
def State.combineNow (s : State) (r : MapReq) (rs : List MapReq) : State × List MapReq × List MapReq :=
  match r.ops with
  | (_, o) :: _ =>
    let all := (combinable r.region o.key rs 64).1.length
    let n := min all (s.env.combine.takeWhile (· == 1)).length
    let c := if o.kind = 2 ∧ !r.busy then combinable r.region o.key rs n else ([], rs)
    (if o.kind = 2 ∧ !r.busy then { s with env := { s.env with combine := s.env.combine.drop (if n < all then n + 1 else n) } } else s, c.1, c.2)
  | [] => (s, [], rs)

/-- The head of an agent's queue served or sent on, once nothing holds it. A queued KCLR first sets DFLAGS bit 1 and stays at the head
(R255, R270). -/
def State.serveHead (s : State) (f : Nat) : State :=
  match (s.fold f).agentQ with
  | [] => s
  | r :: rs =>
    let s0 := s.setAgentQ f rs
    match r.ops, s0.kmap? r.region with
    | [], _ | _, none => s0.answerMap r (f / 128)
    | (g, o) :: os, some m =>
      let g' := m.next g o r.busy
      if !r.busy && s0.mapHeld m g o then s
      else if o.kind = 5 ∧ !r.busy ∧ !m.desc.clearing then s.startClear r.region
      else if g' ≠ g then
        if !s.agentRouted m g g' then s
        else
          let x := s0.forward r.region g g' r.pts o
          x.1.enqueueMap { r with pts := x.2, ops := (g', o) :: os }
      else
        let c := s.combineNow r rs
        if c.2.1.isEmpty then
          let x := { s0 with env := c.1.env }.serveOp r.region g r.pts o r.blocking r.busy
          x.1.passOn (f / 128) r x.2.1 x.2.2
        else (c.1.setAgentQ f c.2.2).serveCombined g r.pts (r :: c.2.1)

/-- MAP_REQUEST_SERVICE. -/
def execMapRequestService (f : Nat) (s : State) : Host.Outcome State Fault Refusal := answer (s.serveHead f)

/-- A posted upsert as its agent's queue holds it. -/
def Posted.req (p : Posted) (pts : Nat) : MapReq :=
  { who := .slot p.core p.slot, pts := pts, region := p.region, ops := [(p.grp, p.op)], done := [], ts := 0, shape := .posted p.num p.mapNo, eff := {} }

/-- Whether a posted upsert stands in the queue of the agent of fold `f`. -/
def State.standsAt (s : State) (f : Nat) (q : Posted) : Bool :=
  q.queued && ((s.fold f).agentQ ++ (s.fold f).agentWait).any fun r =>
    r.who == .slot q.core q.slot && match r.shape with
      | .posted num _ => num == q.num
      | _ => false

/-- POSTED_UPSERT_APPLY: a posted upsert reaches its agent, and is applied there, in its turn when the agent's queue holds others or
the environment leaves it there for now (R255, R258); those of one thread to one key in issue order. -/
def execPostedUpsertApply (i : Nat) (s : State) : Host.Outcome State Fault Refusal :=
  answer <|
    match s.posted[i]? with
    | none => s
    | some p =>
      match s.kmap? p.region with
      | none => { s with posted := dropAt s.posted i }
      | some m =>
        let f := m.agentOf p.grp p.op
        let older := (s.posted.take i).any fun q =>
          q.core == p.core && q.slot == p.slot && q.region == p.region && q.op.key == p.op.key && !s.standsAt f q
        if older || p.queued || !s.condsDone p.conds || !s.routed (devOf p.core) (f / 128) then s
        else
          let r := p.req (s.afterConds p.pts p.conds)
          let later (s : State) (r : MapReq) : State := { s.enqueueMap r with posted := s.posted.set i { p with queued := true } }
          if s.deferNow = 2 then later s.popDefer r
          else
            let y := s.carry r.region p.op mostForwards p.grp r.pts
            if y.2.2.2 then
              let x := y.1.serveOp r.region y.2.1 r.pts p.op false (y.1.mapBusy r.region)
              x.1.popDefer.passOn (f / 128) r x.2.1 x.2.2
            else later y.1.popDefer { r with ops := [(y.2.1, p.op)] }

/-! ## Issue (R258, R261, R262) -/

/-- The fold's copy of a map-table entry. -/
def State.mapCopy (s : State) (n : Nat) : Option MapCopy := aget (s.fold (foldOf s.myCore)).maps n

/-- The map number of an instruction. -/
def mapNo (f : FmtR) : Nat := f.imm.toNat % 256

/-- A key operand (R261). -/
def State.rk (s : State) (ty : Nat) (b : BitVec 8) : BitVec 128 :=
  if ty = 0x21 then
    (if opName b < 64 then (s.rs (b + 1)).setWidth 128 <<< 64 ||| (s.rs b).setWidth 128 else 0)
  else (s.rs b).setWidth 128

/-- The copy an instruction acts on, its key type checked when it has one (R262). -/
def State.boundMap (s : State) (f : FmtR) (keyed : Bool) : Chk MapCopy :=
  match s.mapCopy (mapNo f) with
  | none => .bad (flt .illegalOperand 7)
  | some m => if keyed && m.keyw != f.ty.toNat then .bad (flt .illegalOperand 9) else .ok m

/-- The wait of a blocking operation for the thread's earlier posted upserts to the map number, and then the effects with
PTS at least the posted mark (R258). -/
def State.afterPosted (s : State) (n : Nat) (e : Eff) : Chk Eff :=
  let mine := s.posted.any fun p => p.core == s.myCore && p.slot == s.mySlot && p.mapNo == n
  if mine then .wait (.posted n)
  else .ok { e with pts := max (max e.pts s.thread.pts) ((aget s.thread.posted n).getD 0) }

/-- A blocking request sent: served at once, or queued at its agent. -/
def sendMap (s : State) (r : MapReq) : Res :=
  if s.deferNow = 2 then .sent (s.popDefer.enqueueMap r) .served
  else
    let x := s.serveOps r r.ops
    if x.2.ops.isEmpty then .done (x.1.count 7) (x.1.mapEff x.2.shape x.2.eff x.2.done x.2.ts)
    else .sent (x.1.popDefer.enqueueMap x.2) .served

/-- A keyed operation of format R on a key. -/
def opOf (f : FmtR) (kind : Nat) (key : BitVec 128) (x : Word) : MapOp :=
  { kind := kind, comb := f.mod.toNat % 8, signed := f.mod.getLsbD 3, key := key, x := x }

/-- The group an operation is sent to: by the fold's copy (R259 step 4). -/
def State.sentTo (s : State) (c : MapCopy) (o : MapOp) : Nat × MapOp :=
  (if o.kind = 4 then o.x.toNat / 2 ^ 32 else groupOf c.level c.s (((s.kmap? c.region).map fun m => m.desc.hashOf o.key).getD 0), o)

/-- The ways to the agents of the operations of a request (R367, R401). -/
def State.mapWay (s : State) (region : Nat) (ops : List (Nat × MapOp)) : Chk Unit :=
  match s.kmap? region with
  | some m => s.waysTo (devOf s.myCore) (flt .prot 0 7) (ops.map fun x => m.agentOf x.1 x.2 / 128)
  | none => .ok ()

/-- The way to the agent of a map's descriptor. -/
def State.descWay (s : State) (region : Nat) : Chk Unit :=
  (s.wayTo (devOf s.myCore) (homeFold (region / 64) / 128) (flt .prot 0 7)).bind fun _ =>
  if s.dev.poisoned.contains (region / 64) then .wait (.poisoned (region / 64)) else .ok ()

/-- A blocking map instruction with these operations. -/
def mapIssue (f : FmtR) (keyed : Bool) (sh : MapShape) (ops : State → List MapOp) (s : State) (e : Eff) : Res :=
  (s.boundMap f keyed).res fun c =>
    (s.afterPosted (mapNo f) e).res fun e =>
      (s.mapWay c.region ((ops s).map (s.sentTo c))).res fun _ =>
      sendMap s { who := s.cur, pts := e.pts, region := c.region, ops := (ops s).map (s.sentTo c), done := [], ts := 0, shape := sh, eff := e }

/-- The operations of the scalar forms. -/
def scalarOps (f : FmtR) (kind : Nat) (s : State) : List MapOp := [opOf f kind (s.rk f.ty.toNat f.a) (s.rs f.c)]

/-- Lanes of a vector form (R264). -/
def State.mapLanes (s : State) (f : FmtR) : Nat :=
  let n := f.imm.toNat / 256 % 256
  if n = 0 then s.part.vw / 64 else n

/-- The operations of the vector forms, in ascending lane order. -/
def vectorOps (f : FmtR) (kind : Nat) (s : State) : List MapOp :=
  let a := s.rv 0x08 f.a
  let c := s.rv 0x08 f.c
  (List.range (s.mapLanes f)).map fun i => opOf f kind (BitVec.ofNat 128 (elem 0x08 a i)) (BitVec.ofNat 64 (elem 0x08 c i))

/-- KPRB. -/
def kprbBody (f : FmtR) : State → Eff → Res := mapIssue f true (.scalar f.d) (scalarOps f 0)

/-- The meaning of KPRB. -/
def execKprb (f : FmtR) (s : State) : Host.Outcome State Fault Refusal := meaning (.kprb f) (some .reply) (kprbBody f) s

/-- KINS. -/
def kinsBody (f : FmtR) : State → Eff → Res := mapIssue f true (.scalar f.d) (scalarOps f 1)

/-- The meaning of KINS. -/
def execKins (f : FmtR) (s : State) : Host.Outcome State Fault Refusal := meaning (.kins f) (some .reply) (kinsBody f) s

/-- KUPS. -/
def kupsBody (f : FmtR) : State → Eff → Res := mapIssue f true (.scalar f.d) (scalarOps f 2)

/-- The meaning of KUPS. -/
def execKups (f : FmtR) (s : State) : Host.Outcome State Fault Refusal := meaning (.kups f) (some .reply) (kupsBody f) s

/-- KDEL. -/
def kdelBody (f : FmtR) : State → Eff → Res := mapIssue f true (.scalar f.d) (scalarOps f 3)

/-- The meaning of KDEL. -/
def execKdel (f : FmtR) (s : State) : Host.Outcome State Fault Refusal := meaning (.kdel f) (some .reply) (kdelBody f) s

/-- KPRBV. -/
def kprbvBody (f : FmtR) (s : State) (e : Eff) : Res :=
  mapIssue f true (.vector f.d f.b (s.mapLanes f)) (vectorOps f 0) s e

/-- The meaning of KPRBV. -/
def execKprbv (f : FmtR) (s : State) : Host.Outcome State Fault Refusal := meaning (.kprbv f) (some .reply) (kprbvBody f) s

/-- KUPSV. -/
def kupsvBody (f : FmtR) (s : State) (e : Eff) : Res :=
  mapIssue f true (.vector f.d f.b (s.mapLanes f)) (vectorOps f 2) s e

/-- The meaning of KUPSV. -/
def execKupsv (f : FmtR) (s : State) : Host.Outcome State Fault Refusal := meaning (.kupsv f) (some .reply) (kupsvBody f) s

/-- Upserts posted (R258): each carries the PTS of the issue, and the group that the fold's copy gives its key (R259). -/
def State.post (s : State) (n region : Nat) : List (Nat × MapOp) → State
  | [] => s
  | (g, o) :: os =>
    let c := s.myCore
    let x := s.core c
    let p : Posted := { core := c, slot := s.mySlot, num := x.keyNext + 1, mapNo := n, pts := s.thread.pts, region := region, op := o,
                        conds := x.fenced 5, grp := g, queued := false }
    State.post { s.setCore c { x with keyNext := x.keyNext + 1 } with posted := s.posted ++ [p] } n region os

/-- A posted form. -/
def postIssue (f : FmtR) (ops : State → List MapOp) (s : State) (e : Eff) : Res :=
  (s.boundMap f true).res fun c =>
    let os := (ops s).map (s.sentTo c)
    match s.mapWay c.region os with
    | .bad x => .fault x
    | _ => .done (s.post (mapNo f) c.region os) e

/-- KUPS.post. -/
def kupsPostBody (f : FmtR) : State → Eff → Res := postIssue f (scalarOps f 2)

/-- The meaning of KUPS.post: it does not park. -/
def execKupsPost (f : FmtR) (s : State) : Host.Outcome State Fault Refusal := meaning (.kupsPost f) none (kupsPostBody f) s

/-- KUPSV.post. -/
def kupsvPostBody (f : FmtR) : State → Eff → Res := postIssue f (vectorOps f 2)

/-- The meaning of KUPSV.post. -/
def execKupsvPost (f : FmtR) (s : State) : Host.Outcome State Fault Refusal := meaning (.kupsvPost f) none (kupsvPostBody f) s

/-! ## Creating, binding and inspecting (R265-R270) -/

/-- The physical address of a page of map memory at a virtual address. -/
def State.mapPage (s : State) (va : Nat) : Option Nat :=
  if !canonical va then none
  else
    match s.lookup s.cur va with
    | some l => if l.pte.getLsbD 5 then some (l.pa va) else none
    | none => none

/-- What a region's address waits for, its translation (R343). -/
def State.mapReady (s : State) (va : Nat) : Chk Unit :=
  if canonical va then (s.translate s.cur va true).bind fun _ => .ok () else .ok ()

/-- The pages of map memory from a virtual address on, `n` at most, each translated in turn (R343). -/
def State.mapPages (s : State) : Nat → Nat → Chk (List Nat)
  | 0, _ => .ok []
  | n + 1, a =>
    (s.mapReady a).bind fun _ =>
    match s.mapPage a with
    | none => .ok []
    | some p => (State.mapPages s n (a + 65536)).bind fun ps => .ok (p :: ps)

/-- What the translations of those pages, and of the one that ends them, leave in the TLBs and at the homes. -/
def State.enterPages (s : State) (n a : Nat) : State :=
  (List.range n).foldl (fun s i => if canonical (a + 65536 * i) then s.tlbEnter s.cur (a + 65536 * i) else s) s

/-- 64 KiB pages that a region of `n` groups takes (R101). -/
def regionPages (n : Nat) : Nat := (128 + 512 * n + 65535) / 65536

/-- A creation record's fields (R111), from its 64 bytes as a number. -/
def recField (r off len : Nat) : Nat := (r >>> (8 * off)) % 2 ^ (8 * len)

/-- Whether a creation record is valid (R266). -/
def recValid (r : Nat) : Bool :=
  (recField r 1 1 == 0x20 || recField r 1 1 == 0x21) && (recField r 2 1 == 64 || recField r 2 1 == 0)
    && decide (recField r 3 1 ≤ 1) && decide (recField r 4 1 ≤ 31) && decide (2 ^ recField r 4 1 ≤ recField r 8 4)

/-- The map a record creates, with its groups empty at timestamp `w`. -/
def kmapOf (r : Nat) (pages : List Nat) (w : Nat) : KMap :=
  { desc := { keyw := recField r 1 1, valw := recField r 2 1, hash := recField r 3 1, level := recField r 4 1, level0 := recField r 4 1,
              splitting := false, clearing := false, valid := true, s := 0, maxgroups := recField r 8 4, threshold := recField r 12 4,
              pool := 0, dflt := BitVec.ofNat 64 (recField r 16 8), seed := BitVec.ofNat 64 (recField r 24 8), freelist := [],
              entries := 0, splits := 0, forwards := 0, combined := 0, refused := 0, fulls := 0, wts := w },
    pages := pages, groups := [], base := [], stale := [] }

/-- The greatest timestamp that the lines of a region had at the agent of fold `a`: its slice's eviction mark for lines it does not
hold, and a map made there before at its groups' timestamps. -/
def State.createTs (s : State) (region a : Nat) : Nat :=
  max (s.fold a).evict (((s.kmap? region).map fun m => m.topAt a).getD 0)

/-- A map created at a region whose pages are known, its groups empty under the store rule at clock `pts`, and the greatest
timestamp. -/
def State.createMap (s : State) (r region pts : Nat) (pages : List Nat) : State × Nat :=
  let q := s.storeGroups (s.createTs region) pts (kmapOf r pages 0).agents
  (q.1.setKmap region { kmapOf r pages q.2.2 with base := q.2.1 }, q.2.2)

/-- KNEW. -/
def knewBody (f : FmtR) (s : State) (e : Eff) : Res :=
  let a := (s.rs f.a).toNat
  let b := (s.rs f.b).toNat
  if a % 65536 != 0 then .fault (flt .align 2 7 a)
  else
    (s.mapReady a).res fun _ =>
    match s.mapPage a with
    | none => .fault (flt .prot 2 7 a)
    | some region =>
      if b % 64 != 0 then .fault (flt .align 3 2 b)
      else (s.reachSpan b 64 .load).res fun ls =>
        let r := (s.tlbEnter s.cur a).loadSpan b ls
        let n := if recValid r.2 then regionPages (recField r.2 8 4) else 1
        (r.1.mapPages n a).res fun pages =>
        let s := r.1.enterPages (min n (pages.length + 1)) a
        let bound := match s.myLaunch.bind s.launch? with
          | some l => l.maps.any fun x => x.2.region == region
          | none => false
        (s.waysTo (devOf s.myCore) (flt .prot 0 7) ((region :: pages).map fun p => homeFold (p / 64) / 128)).res fun _ =>
        if !recValid r.2 then doneS (s.count 7) e f.d 2
        else if pages.length < n then doneS (s.count 7) e f.d 1
        else if bound then doneS (s.count 7) e f.d 3
        else
          let q := s.createMap r.2 region s.thread.pts pages
          doneS (q.1.count 7) { e with pts := max e.pts q.2 } f.d 0

/-- The meaning of KNEW. -/
def execKnew (f : FmtR) (s : State) : Host.Outcome State Fault Refusal := meaning (.knew f) (some .reply) (knewBody f) s

/-- A map-table entry of a launch set or cleared, in the table and in every fold's copy, all in one step (log entry 58). -/
def State.bindMap (s : State) (l n : Nat) (c : Option MapCopy) : State :=
  let put (xs : List (Nat × MapCopy)) : List (Nat × MapCopy) := match c with
    | some x => aset xs n x
    | none => adel xs n
  match s.launch? l with
  | none => s
  | some x =>
    let s := s.setLaunch l { x with maps := put x.maps }
    { s with folds := s.folds.map fun f => if f.2.launch == some l then (f.1, { f.2 with maps := put f.2.maps }) else f }

/-- The copy that a binding makes of a map's descriptor. -/
def KMap.copy (m : KMap) (region : Nat) : MapCopy :=
  { region := region, keyw := m.desc.keyw, valw := m.desc.valw, level := m.desc.level, s := m.desc.s }

/-- The ways of a KBIND: to the agent of the descriptor it reads, and to the folds whose copies take the entry. -/
def State.bindWay (s : State) (l a : Nat) : Chk Unit :=
  let at? := if a ≠ 0 ∧ a % 65536 = 0 then s.mapPage a else none
  let folds := (s.folds.filter fun x => x.2.launch == some l).map (·.1)
  (s.waysTo (devOf s.myCore) (flt .prot 0 7) ((at?.toList.map fun r => homeFold (r / 64)) ++ folds |>.map (· / 128))).bind fun _ =>
  match at? with
  | some r => if s.dev.poisoned.contains (r / 64) then .wait (.poisoned (r / 64)) else .ok ()
  | none => .ok ()

/-- KBIND. -/
def kbindBody (f : FmtR) (s : State) (e : Eff) : Res :=
  let a := (s.rs f.a).toNat
  match s.myLaunch with
  | none => .fault (flt .illegalOperand 7)
  | some l =>
    (s.afterPosted (mapNo f) e).res fun e =>
      (if a ≠ 0 ∧ a % 65536 = 0 then s.mapReady a else .ok ()).res fun _ =>
      (s.bindWay l a).res fun _ =>
      let s := (if a ≠ 0 ∧ a % 65536 = 0 ∧ canonical a then s.tlbEnter s.cur a else s).count 7
      if a = 0 then doneS (s.bindMap l (mapNo f) none) e f.d 0
      else
        match (if a % 65536 = 0 then s.mapPage a else none).bind fun r => (s.kmap? r).map fun m => (r, m) with
        | some (r, m) => if m.desc.valid then doneS (s.bindMap l (mapNo f) (some (m.copy r))) e f.d 0 else doneS s e f.d 1
        | none => doneS s e f.d 1

/-- The meaning of KBIND. -/
def execKbind (f : FmtR) (s : State) : Host.Outcome State Fault Refusal := meaning (.kbind f) (some .reply) (kbindBody f) s

/-- Word `i` of a descriptor (R251). FREELIST is the byte offset of the line in the region. -/
def MapDesc.word (d : MapDesc) (i : Nat) : Nat :=
  match i with
  | 0 => d.keyw + d.valw * 2 ^ 8 + d.hash * 2 ^ 16 + d.level * 2 ^ 24 + d.level0 * 2 ^ 32
      + ((if d.splitting then 1 else 0) + (if d.clearing then 2 else 0) + (if d.valid then 128 else 0)) * 2 ^ 40
  | 1 => d.s + d.maxgroups * 2 ^ 32
  | 2 => d.threshold + d.pool * 2 ^ 32
  | 3 => d.dflt.toNat
  | 4 => d.seed.toNat
  | 5 => (d.freelist.head?.map (64 * ·)).getD 0
  | 6 => d.entries
  | 7 => d.splits
  | 8 => d.forwards
  | 9 => d.combined
  | 10 => d.refused
  | 11 => d.fulls
  | _ => 0

/-- KSTAT: a sample of the descriptor. -/
def kstatBody (f : FmtR) (s : State) (e : Eff) : Res :=
  (s.boundMap f false).res fun c =>
    let i := (s.rs f.a).toNat
    if 16 ≤ i then .fault (flt .illegalOperand 2)
    else (s.afterPosted (mapNo f) e).res fun e =>
      (s.descWay c.region).res fun _ =>
      let s := s.setFrom (homeFold (c.region / 64) / 128)
      doneS (s.count 7) e f.d (BitVec.ofNat 64 (((s.kmap? c.region).map fun m => m.desc.word i).getD 0))

/-- The meaning of KSTAT. -/
def execKstat (f : FmtR) (s : State) : Host.Outcome State Fault Refusal := meaning (.kstat f) (some .reply) (kstatBody f) s

/-- KHASH's word: h, or g, Lg and b as the descriptor stands (R253). -/
def KMap.placement (m : KMap) (k : BitVec 128) (raw : Bool) : Nat :=
  let h := m.desc.hashOf k
  let g := groupOf m.desc.level m.desc.s h
  let lg := if g < m.desc.s ∨ 2 ^ m.desc.level ≤ g then m.desc.level + 1 else m.desc.level
  if raw then h else g * 2 ^ 32 + lg * 2 ^ 8 + (h >>> lg) % 8

/-- KHASH. -/
def khashBody (f : FmtR) (s : State) (e : Eff) : Res :=
  (s.boundMap f true).res fun c =>
    (s.afterPosted (mapNo f) e).res fun e =>
      (s.descWay c.region).res fun _ =>
      let s := s.setFrom (homeFold (c.region / 64) / 128)
      let k := s.rk f.ty.toNat f.a
      doneS (s.count 7) e f.d (BitVec.ofNat 64 (((s.kmap? c.region).map fun m => m.placement k (f.imm.getLsbD 8)).getD 0))

/-- The meaning of KHASH. -/
def execKhash (f : FmtR) (s : State) : Host.Outcome State Fault Refusal := meaning (.khash f) (some .reply) (khashBody f) s

/-- KITER. A cursor that names no group in use, as the end's does, ends at once: no agent reads a group (R269). -/
def kiterBody (f : FmtR) (s : State) (e : Eff) : Res :=
  (s.boundMap f true).res fun c =>
    if (s.kmap? c.region).all fun m => decide (m.desc.count ≤ (s.rs f.a).toNat / 2 ^ 32) then
      (s.afterPosted (mapNo f) e).res fun e => .done (s.count 7) (s.mapEff (.iter f.d f.ty.toNat) e [iterEnd] e.pts)
    else mapIssue f true (.iter f.d f.ty.toNat) (fun s => [opOf f 4 0 (s.rs f.a)]) s e

/-- The meaning of KITER. -/
def execKiter (f : FmtR) (s : State) : Host.Outcome State Fault Refusal := meaning (.kiter f) (some .reply) (kiterBody f) s

/-- KCLR. -/
def kclrBody (f : FmtR) : State → Eff → Res := mapIssue f false (.count f.d) fun _ => [opOf f 5 0 0]

/-- The meaning of KCLR. -/
def execKclr (f : FmtR) (s : State) : Host.Outcome State Fault Refusal := meaning (.kclr f) (some .reply) (kclrBody f) s

end Sys2Proof.Machine
end

