-- ==== Sys2Proof/Machine/Capsule.lean ====
section
/-! DEFINITION. Capsules (R314-R330): the bays, routing and delivery, the park queue, the instructions of OP 0x90, and
what reaping, pre-emption, abort and retirement do with a capsule. -/

namespace Sys2Proof.Machine

/-! ## A bay's bytes (R315-R317) -/

/-- `n` bytes at `off` of bay `b`. -/
def Core.bayGet (c : Core) (b off n : Nat) : Nat := c.scr.readNat (bayOff b + off) n

/-- Those bytes set; header and traverse carry no timestamp of their own. -/
def Core.bayPut (c : Core) (b off n v : Nat) : Core := { c with scr := c.scr.writeNat (bayOff b + off) n v }

/-- Bay `b`. -/
def Core.bay (c : Core) (b : Nat) : Bay := (c.bays[b]?).getD {}

/-- Bay `b` replaced. -/
def Core.setBay (c : Core) (b : Nat) (x : Bay) : Core := { c with bays := c.bays.setIfInBounds b x }

/-- `n` bytes at `off` of an image held as a number. -/
def imgGet (d off n : Nat) : Nat := (d >>> (8 * off)) % 2 ^ (8 * n)

/-- Those bytes set. -/
def imgPut (d off n v : Nat) : Nat := d - (imgGet d off n <<< (8 * off)) + ((v % 2 ^ (8 * n)) <<< (8 * off))

/-- The image of a bay's capsule: header, traverse, carry and TILELEN tile bytes, then zeros. -/
def Core.bayImage (c : Core) (b : Nat) : Nat := c.bayGet b 0 (256 + min 8192 (c.bayGet b 14 2))

/-- Station `i` of an image. -/
def imgStation (d i : Nat) : Nat := imgGet d (64 + 8 * i) 8

/-- A malformed station word (R317). -/
def stationBad (w : Nat) : Bool :=
  let kind := w / 2 ^ 20 % 16
  let v := w % 2 ^ 20
  w / 2 ^ 60 % 8 != 0 || match kind with
    | 0 => false
    | 1 => v / 2 ^ 7 % 32 != 0
    | 2 => v / 2 ^ 3 % 512 != 0
    | 3 => v / 2 ^ 8 != 0
    | 4 => v / 2 ^ 8 % 16 != 0
    | 5 => v != 0
    | _ => true

/-! ## Routing (R318) -/

/-- Whether a launch holds a fold of a pasture. -/
def Launch.holdsPasture (l : Launch) (p : Nat) : Bool := l.folds.any fun f => f / 16 == p

/-- The place of PASTURE_ANY, when the launch holds a fold there. -/
def Launch.pasturePlace (l : Launch) (p : Nat) : Option Place := if l.holdsPasture p then some (.pasture p) else none

/-- A fold if the launch holds it, else its pasture. -/
def Launch.foldPlace (l : Launch) (f : Nat) : Option Place := if l.folds.contains f then some (.fold f) else l.pasturePlace (f / 16)

/-- A core placed in a launch. -/
def State.corePlace (s : State) (ln c : Nat) : Option Place :=
  if s.isCompute c && (s.core c).launch == some ln then some (.core c) else none

/-- The place of a station of an image, or none when it is not routable, for a routing made on core `c` of launch `ln`. -/
def State.route (s : State) (ln c d i : Nat) : Option Place :=
  match s.launch? ln with
  | none => none
  | some l =>
    let w := imgStation d i
    let h := w / 2 ^ 48 % 4096
    let v := w % 2 ^ 20
    let dev := v / 2 ^ 12
    if l.hcount ≤ h ∨ ((aget l.handlers h).getD 0) = 0 then none
    else
      match w / 2 ^ 20 % 16 with
      | 0 => s.corePlace ln v
      | 1 => let f := 128 * dev + v % 128; if l.folds.contains f then some (.fold f) else none
      | 2 => l.pasturePlace (8 * dev + v % 8)
      | 3 =>
        match aget (s.fold (foldOf c)).maps (v % 256) with
        | none => none
        | some m =>
          match s.kmap? m.region with
          | none => none
          | some k =>
            let key := BitVec.ofNat 128 (imgGet d 192 (if m.keyw = 0x21 then 16 else 8))
            l.foldPlace (k.agent (groupOf m.level m.s (k.desc.hashOf key)))
      | 4 => if s.part.full then l.pasturePlace (8 * dev + v % 256 / 32) else none
      | 5 => s.corePlace ln (imgGet d 8 4 % 2 ^ 20)
      | _ => none

/-- A capsule entered in a launch's transit store (R319). -/
def State.enterTransit (s : State) (ln : Nat) (x : Capsule) : State :=
  match s.launch? ln with
  | some l => s.setLaunch ln { l with transit := l.transit ++ [x] }
  | none => s

/-- Whether the launch's transit store on the device of a place takes another capsule (R314; log entry 68). -/
def State.transitRoom (s : State) (ln : Nat) (p : Place) : Bool :=
  match s.launch? ln with
  | some l => l.transitRoom p.dev
  | none => false

/-- A bay emptied, and its holder's mark. -/
def Core.dropBay (c : Core) (b : Nat) : Core :=
  let x := c.bay b
  let c := c.setBay b {}
  if x.st = .held then c.setSlot x.holder { c.slot x.holder with hold := none } else c

/-- A CAPNEW or CAPNEXT of the current thread that the transit store takes: the capsule, with the thread's PTS as its timestamp (R320),
enters it, and of a CAPNEXT the bay `b` is emptied. -/
def State.commitCapsule (s : State) (x : Capsule) (b : Option Nat) : State :=
  match s.cur with
  | .slot c _ =>
    let s := s.enterTransit (((s.core c).launch).getD 0) { x with ts := s.thread.pts }
    match b with
    | some b => s.setCore c ((s.core c).dropBay b)
    | none => s
  | _ => s

/-- The capsule that the current thread's instruction had waiting for the transit store, when it had one, enters it. -/
def State.sendOff (s : State) : State :=
  match s.thread.outgoing with
  | some (x, b) => (s.setThread { s.thread with outgoing := none }).commitCapsule x b
  | none => s

/-- What a routed capsule of core `c` waits for: a way to the device of its place (R367), and room in the transit store there. -/
def State.transitWay (s : State) (ln c : Nat) (p : Place) : Chk Unit :=
  (s.wayTo (devOf c) p.dev (flt .prot)).bind fun _ => if s.transitRoom ln p then .ok () else .wait (.transit p.dev)

/-! ## Delivery (R319, R320) -/

/-- The lower-numbered FREE bay. -/
def Core.freeBay (c : Core) : Option Nat := (List.range 2).find? fun b => (c.bay b).st == .free

/-- Bytes stored page by page in a bay under the store rule at clock `ts`: the core and the greatest write timestamp. -/
def Core.bayFill (c : Core) (b d ts : Nat) : Core × Nat :=
  (List.range 3).foldl (fun r i =>
    let x := Core.scrStore r.1 (bayOff b + 4096 * i) 4096 (imgGet d (4096 * i) 4096) ts
    (x.1, max r.2 x.2)) (c, 0)

/-- The handler table entry of the station a bay's capsule stands at (R323). -/
def Core.bayHandler (c : Core) (b : Nat) (hs : List (Nat × Word)) : Word :=
  (aget hs (c.bayGet b (64 + 8 * c.bayGet b 17 1) 8 / 2 ^ 48 % 4096)).getD 0

/-- The oldest waiter assigned a WAITING bay that no thread has been assigned, with the handler table as it then stands (R337). -/
def Core.assign (c : Core) (hs : List (Nat × Word)) : Core :=
  match c.capWaiters, (List.range 2).filter (fun b => (c.bay b).st == .waiting && (c.bay b).assigned.isNone) with
  | k :: ks, b :: bs =>
    let b := bs.foldl (fun m x => if (c.bay x).order < (c.bay m).order then x else m) b
    { c.setBay b { c.bay b with assigned := some k, handler := c.bayHandler b hs } with capWaiters := ks }
  | _, _ => c

/-- A capsule written into a bay, WAITING, SEQ one higher; the bay keeps the capsule's own timestamp beside the greatest write
timestamp of the delivery (R320). -/
def Core.deliver (c : Core) (b : Nat) (x : Capsule) (hs : List (Nat × Word)) : Core :=
  let d := imgPut x.data.toNat 24 8 (imgGet x.data.toNat 24 8 + 1)
  let r := c.bayFill b d x.ts
  Core.assign (Core.count
    { r.1.setBay b { st := .waiting, ts := r.2, order := c.capOrder + 1, capTs := x.ts } with capOrder := c.capOrder + 1 } 12 0) hs

/-- The cores of a place, in ascending order. -/
def placeCores (l : Launch) (p : Place) : List Nat :=
  match p with
  | .core c => [c]
  | .fold f => coresOf f
  | .pasture q => (l.folds.filter fun f => f / 16 == q).mergeSort.flatMap coresOf

/-- The cursor's number for a place. -/
def placeKey (p : Place) : Nat :=
  match p with
  | .core c => 3 * c
  | .fold f => 3 * f + 1
  | .pasture q => 3 * q + 2

/-- The first of a list after a cursor, wrapping. -/
def afterCursor (xs : List Nat) (cur : Nat) : Option Nat :=
  match xs.find? (fun x => decide (cur < x)) with
  | some x => some x
  | none => xs.head?

/-- The lowest placed core of a place in a launch. -/
def State.lowestCore (s : State) (ln : Nat) (l : Launch) (p : Place) : Nat :=
  ((placeCores l p).find? fun c => (s.core c).launch == some ln).getD 0

/-- A place's cursor, one for every launch there (R314): at launch the lowest placed core of the place. -/
def State.placeCursor (s : State) (ln : Nat) (l : Launch) (p : Place) : Nat :=
  (aget s.dev.placeCursors (placeKey p)).getD (s.lowestCore ln l p)

/-- The cursors of a launch's folds and pastures as its placement leaves them (R314; DEDUCED, log entry 27). -/
def State.startCursors (s : State) (ln : Nat) : State :=
  match s.launch? ln with
  | none => s
  | some l =>
    let ps := l.folds.map Place.fold ++ ((l.folds.map (· / 16)).eraseDups.map Place.pasture)
    { s with dev := { s.dev with placeCursors := ps.foldl (fun xs p => aset xs (placeKey p) (s.lowestCore ln l p)) s.dev.placeCursors } }

/-- The core that takes a capsule now, and whether a cursor moves to it. -/
def State.taker (s : State) (ln : Nat) (l : Launch) (x : Capsule) : Option Nat :=
  let ok (c : Nat) : Bool := (s.core c).launch == some ln && !(s.core c).saved && (s.core c).freeBay.isSome && x.exclude != some c
  match x.place with
  | .core c => if ok c then some c else none
  | p =>
    let cs := (placeCores l p).filter fun c => ok c && !(s.core c).capWaiters.isEmpty
    afterCursor cs (s.placeCursor ln l p)

/-- Whether a capsule has reached the transit store of its place's device: at once but for one that was ejected where no route led there. -/
def State.inStore (s : State) (x : Capsule) : Bool := x.src.all fun d => s.routed d x.place.dev

/-- The poisoned line that holds back a delivery to core `c` (R403). -/
def State.bayBad (s : State) (c : Nat) : Option Nat := (s.core c).freeBay.bind fun b => s.spanBad c (bayOff b) 12288

/-- Capsule `j` of a launch's transit store delivered, when it is the oldest there for its place and a core takes it, in whose bay no
line is poisoned. -/
def State.deliverFrom (s : State) (ln j : Nat) : State :=
  match s.launch? ln with
  | none => s
  | some l =>
    match l.transit[j]? with
    | none => s
    | some x =>
      if !s.inStore x || (l.transit.take j).any fun y => y.place == x.place && s.inStore y then s
      else
        match s.taker ln l x with
        | none => s
        | some c =>
          if (s.bayBad c).isSome then s
          else
          let cursors := match x.place with
            | .core _ => s.dev.placeCursors
            | p => aset s.dev.placeCursors (placeKey p) c
          let s := s.setLaunch ln { l with transit := dropAt l.transit j }
          let s := { s with dev := { s.dev with placeCursors := cursors } }
          match (s.core c).freeBay with
          | some b => s.setCore c ((s.core c).deliver b x l.handlers)
          | none => s

/-- The launch and index of the `i`-th capsule in transit. -/
def transitAt : List (Nat × Launch) → Nat → Option (Nat × Nat)
  | [], _ => none
  | (n, l) :: ls, i => if i < l.transit.length then some (n, i) else transitAt ls (i - l.transit.length)

/-- CAPSULE_DELIVERY. -/
def execCapsuleDelivery (i : Nat) (s : State) : Host.Outcome State Fault Refusal :=
  answer <|
    match transitAt s.dev.launches i with
    | some p => s.deliverFrom p.1 p.2
    | none => s

/-! ## The park queue (R327) -/

/-- Bytes written line by line in memory under the store rule at clock `ts`. -/
def State.writeLines (s : State) (pa v ts : Nat) : Nat → State × Nat
  | 0 => (s, 0)
  | n + 1 =>
    let r := s.homeWrite (.mem pa) 64 (v % 2 ^ 512) ts true
    let q := State.writeLines r.1 (pa + 64) (v >>> 512) ts n
    (q.1, max r.2 q.2)

/-- An entry of the park queue: record, reason, image with PARKED set. -/
def parkEntry (d reason : Nat) (r : Option FaultRec) : Nat :=
  (r.map FaultRec.toNat).getD 0 + (reason <<< 256) + (imgPut d 19 1 (imgGet d 19 1 ||| 4) <<< 512)

/-- The greatest write timestamp of a launch's park queue raised (R21). -/
def State.markPark (s : State) (ln w : Nat) : State :=
  match s.launch? ln with
  | some l => s.setLaunch ln { l with parkMark := max l.parkMark w }
  | none => s

/-- A capsule's image written to its launch's park queue at clock `ts`, and TAIL raised: the state and the TAIL used; when
the queue is full, the capsule is discarded and LOST raised. -/
def State.parkCapsule (s : State) (ln d reason ts : Nat) (r : Option FaultRec) : State × Nat :=
  match s.launch? ln with
  | none => (s, 0)
  | some l =>
    let size := s.mem.readNat (l.park + 16) 4
    let tail := s.mem.readNat (l.park + 8) 8
    if s.parkRoom l then
      let a := l.park + 64 + 8512 * (if size = 0 then 0 else tail % size)
      let q := s.writeLines a (parkEntry d reason r) ts 133
      let z := q.1.homeWrite (.mem (l.park + 8)) 8 (tail + 1) (max ts q.2) true
      (z.1.markPark ln (max q.2 z.2), tail)
    else
      let z := s.homeWrite (.mem (l.park + 20)) 4 (s.mem.readNat (l.park + 20) 4 + 1) ts true
      (z.1.markPark ln z.2, 0)

/-- A capsule of launch `ln` whose holder on core `c` is reaped, as it goes on with RETFAULT = 1: its image and its place (R328). -/
def State.returnPlace (s : State) (ln c d : Nat) : Option (Nat × Place) :=
  let nstat := imgGet d 16 1
  let cur := imgGet d 17 1
  let hops := imgGet d 18 1
  let fl := imgGet d 19 1
  if fl / 8 % 2 = 0 ∨ hops = 255 then none
  else
    ((List.range' (cur + 1) (nstat - (cur + 1))).find? fun i => imgStation d i / 2 ^ 20 % 16 == 5).bind fun i =>
      let d' := imgPut (imgPut (imgPut d 17 1 i) 18 1 (hops + 1)) 19 1 (fl ||| 2)
      ((s.route ln c d' i).filter (s.transitRoom ln)).map fun p => (d', p)

/-- A park queue into which an entry can be written: no line of its header, or of the entry at TAIL, is poisoned (R403). -/
def State.parkClean (s : State) (l : Launch) : Chk Unit :=
  if s.dev.poisoned.isEmpty then .ok ()
  else
    let size := s.mem.readNat (l.park + 16) 4
    let a := l.park + 64 + 8512 * (if size = 0 then 0 else s.mem.readNat (l.park + 8) 8 % size)
    match (l.park / 64 :: (List.range 133).map (a / 64 + ·)).find? s.dev.poisoned.contains with
    | some ln => .wait (.poisoned ln)
    | none => .ok ()

/-- What TREAP does with a capsule the slot holds (R328): it is sent back, or parked with reason 2. -/
def State.reapCapsule (s : State) (c k : Nat) : State :=
  match (s.slot c k).hold, (s.core c).launch with
  | some b, some ln =>
    let x := s.core c
    let d := x.bayImage b
    let ts := max (s.slot c k).pts (x.bay b).ts
    let s := s.setCore c (x.dropBay b)
    match s.returnPlace ln c d with
    | some (d', p) => s.enterTransit ln { data := BitVec.ofNat 67584 d', ts := ts, place := p }
    | none => (s.parkCapsule ln d 2 ts (x.bay b).record).1
  | _, _ => s

/-- The device of a launch's park queue. -/
def State.parkDev (s : State) (ln : Nat) : Nat := ((s.launch? ln).map fun l => l.park / 2 ^ 39).getD 0

/-- The way that the capsule of a reaped holder takes: back to its place, or to the park queue (R367); no poisoned line on it (R403). -/
def State.reapWay (s : State) (c k : Nat) : Chk Unit :=
  match (s.slot c k).hold, (s.core c).launch with
  | some b, some ln =>
    (s.spanClean c (bayOff b) 8448).bind fun _ =>
    match s.returnPlace ln c ((s.core c).bayImage b), s.launch? ln with
    | none, some l => (s.wayTo (devOf c) (s.parkDev ln) (flt .prot)).bind fun _ => s.parkClean l
    | some (_, p), _ => s.wayTo (devOf c) p.dev (flt .prot)
    | none, none => .ok ()
  | _, _ => .ok ()

/-! ## Pre-emption, resumption, abort, retirement (R329, R330) -/

/-- An assigned capsule withdrawn from a CAPWAIT that has not completed. -/
def Core.withdraw (c : Core) : Core :=
  (List.range 2).foldl (fun c b =>
    if (c.bay b).st = .waiting then c.setBay b { c.bay b with assigned := none } else c) { c with capWaiters := [] }

/-- A WAITING or HELD bay of a core ejected, the capsule keeping its timestamp (R320); one that the transit store cannot take goes to
the core's spill area, and one whose station is no longer routable is parked with reason 4 (log entry 68). -/
def State.ejectBay (s : State) (c b : Nat) : State :=
  let x := s.core c
  let y := x.bay b
  match x.launch with
  | none => s
  | some ln =>
    if y.st = .waiting ∨ y.st = .held then
      let d := x.bayImage b
      let cur := imgGet d 17 1
      let kind := imgStation d cur / 2 ^ 20 % 16
      let hops := imgGet d 18 1
      let s := s.setCore c (x.dropBay b)
      let spilled :=
        let z := s.core c
        s.setCore c { z with capSpill := z.capSpill ++ [{ data := BitVec.ofNat 67584 d, ts := y.capTs, place := .core c }] }
      if kind = 0 ∨ kind = 5 then spilled
      else if hops = 255 then (s.parkCapsule ln d 4 y.ts y.record).1
      else
        let d' := imgPut d 18 1 (hops + 1)
        match s.route ln c d' cur with
        | some p =>
          if s.transitRoom ln p then
            s.enterTransit ln { data := BitVec.ofNat 67584 d', ts := y.capTs, place := p, exclude := some c,
                                src := if s.routed (devOf c) p.dev then none else some (devOf c) }
          else spilled
        | none => (s.parkCapsule ln d 4 y.ts y.record).1
    else s

/-- A core's spilled capsules delivered into its bays in order (R329, R381). -/
def Core.unspillCapsules (c : Core) (hs : List (Nat × Word)) : Core :=
  c.capSpill.foldl (fun c x => match c.freeBay with
    | some b => c.deliver b x hs
    | none => c) { c with capSpill := [] }

/-- Every capsule of a launch, in bays, spill areas and transit, parked with a reason, a faulted holder's with its
record. -/
def State.parkAll (s : State) (ln reason : Nat) : State :=
  match s.launch? ln with
  | none => s
  | some l =>
    let s := (l.folds.flatMap coresOf).foldl (fun s c =>
      let s := (List.range 2).foldl (fun s b =>
        let x := s.core c
        if (x.bay b).st = .waiting ∨ (x.bay b).st = .held then
          ((s.setCore c (x.dropBay b)).parkCapsule ln (x.bayImage b) reason (x.bay b).ts (x.bay b).record).1
        else s) s
      let x := s.core c
      x.capSpill.foldl (fun s y => (s.parkCapsule ln y.data.toNat reason y.ts none).1) (s.setCore c { x with capSpill := [] })) s
    let s := l.transit.foldl (fun s y => (s.parkCapsule ln y.data.toNat reason y.ts none).1) s
    match s.launch? ln with
    | some l => s.setLaunch ln { l with transit := [] }
    | none => s

/-! ## The instructions (R321-R327) -/

/-- The core, launch and slot of a capsule instruction; a gateway core has no bays (R314). -/
def State.capCore (s : State) : Option (Nat × Nat × Nat) :=
  match s.cur with
  | .slot c k => if s.isGateway c then none else ((s.core c).launch).map fun l => (c, l, k)
  | _ => none

/-- The bay the current thread holds, once no line of its header is poisoned (R403). -/
def State.held (s : State) : Chk (Nat × Nat × Nat) :=
  match s.capCore with
  | some (c, l, k) =>
    match (s.slot c k).hold with
    | some b => (s.spanClean c (bayOff b) 256).bind fun _ => .ok (c, l, b)
    | none => .bad (flt .capsule)
  | none => .bad (flt .capsule)

/-- Whether an image CAPNEW reads is one it refuses (R322). -/
def imageBad (d : Nat) : Bool :=
  let n := imgGet d 16 1
  n == 0 || decide (12 < n) || decide (8192 < imgGet d 14 2) || imgGet d 22 2 != 0 || imgGet d 48 16 != 0
    || imgGet d 11 1 != 0 || decide (16 ≤ imgGet d 19 1) || (List.range n).any fun i => stationBad (imgStation d i)

/-- The header CAPNEW makes: LAUNCH and ORIGIN, the counts 0, RETFAULT kept, every BEGUN 0. -/
def newImage (d ln c k : Nat) : Nat :=
  let d := imgPut (imgPut d 4 4 ln) 8 4 (c + k * 2 ^ 20)
  let d := imgPut (imgPut d 17 1 0) 18 1 0
  let d := imgPut (imgPut d 19 1 (imgGet d 19 1 &&& 8)) 20 2 0
  let d := imgPut d 24 8 0
  (List.range (imgGet d 16 1)).foldl (fun d i => imgPut d (64 + 8 * i) 8 (imgStation d i % 2 ^ 63)) d

/-- A capsule that has been read and routed, from bay `b` of a CAPNEXT: taken by the transit store of device `d` at once, or the
instruction parks, to be completed when there is room and a way (R322, R324). -/
def routedCapsule (way : Chk Unit) (d : Nat) (x : Capsule) (b : Option Nat) (s : State) (e : Eff) : Res :=
  match way with
  | .bad f => .fault f
  | .ok _ => .done (s.commitCapsule x b) e
  | .wait _ =>
    let t := s.thread
    .sent (s.setThread { t with outgoing := some (x, b), reply := some { e with pts := max e.pts t.pts } }) (.transit d)

/-- CAPNEW. -/
def capnewBody (f : FmtR) (s : State) (e : Eff) : Res :=
  match s.capCore with
  | none => .fault (flt .capsule)
  | some (c, ln, k) =>
    let a := (s.rs f.a).toNat
    let b := (s.rs f.b).toNat
    if a % 64 != 0 then .fault (flt .align 2 2 a)
    else (s.reachSpan a 256 .load).res fun ls =>
      let r := s.loadSpan a ls
      let n := imgGet r.2 14 2
      if imageBad r.2 then .fault (flt .capsule)
      else if n != 0 && b % 64 != 0 then .fault (flt .align 3 2 b)
      else (s.reachSpan b n .load).res fun lt =>
        let q := r.1.loadSpan b lt
        let d := newImage r.2 ln c k + (q.2 <<< (8 * 256))
        match s.route ln c d 0 with
        | none => .fault (flt .capsule)
        | some p =>
          routedCapsule (s.transitWay ln c p) p.dev { data := BitVec.ofNat 67584 d, ts := 0, place := p } none q.1 e

/-- The meaning of CAPNEW. -/
def execCapnew (f : FmtR) (s : State) : Host.Outcome State Fault Refusal := meaning (.capnew f) (some .reply) (capnewBody f) s

/-- The bay CAPWAIT takes: the one assigned to the thread, else the oldest delivered that waits unassigned. -/
def Core.bayFor (c : Core) (k : Nat) : Option Nat :=
  match (List.range 2).find? fun b => (c.bay b).st == .waiting && (c.bay b).assigned == some k with
  | some b => some b
  | none =>
    match (List.range 2).filter fun b => (c.bay b).st == .waiting && (c.bay b).assigned.isNone with
    | [] => none
    | b :: bs => some (bs.foldl (fun m x => if (c.bay x).order < (c.bay m).order then x else m) b)

/-- A bay taken by slot `k`: BEGUN set in the station and the header. -/
def Core.takeBay (c : Core) (b k : Nat) : Core :=
  let cur := c.bayGet b 17 1
  let w := c.bayGet b (64 + 8 * cur) 8
  let c := (c.bayPut b (64 + 8 * cur) 8 (w % 2 ^ 63 + 2 ^ 63)).bayPut b 19 1 (c.bayGet b 19 1 ||| 1)
  let c := c.setBay b { c.bay b with st := .held, holder := k, assigned := none }
  c.setSlot k { c.slot k with hold := some b }

/-- CAPWAIT and CAPWAIT.nw. -/
def capwaitForm (nw : Bool) (f : FmtR) (s : State) (e : Eff) : Res :=
  match s.capCore with
  | none => .fault (flt .capsule)
  | some (c, ln, k) =>
    let x := s.core c
    if (x.slot k).hold.isSome then .fault (flt .capsule)
    else
      match x.bayFor k with
      | some b => (s.spanClean c (bayOff b) 256).res fun _ =>
        let w := x.bayGet b (64 + 8 * x.bayGet b 17 1) 8
        let pc := if (x.bay b).assigned = some k then (x.bay b).handler else x.bayHandler b (((s.launch? ln).map (·.handlers)).getD [])
        .done (s.setCore c (x.takeBay b k))
          { e with writes := e.writes ++ wrS f.d pc ++ wrS (f.d + 1) (BitVec.ofNat 64 w)
                     ++ wrS (f.d + 2) (BitVec.ofNat 64 (winBase + bayOff b)),
                   pts := max e.pts (x.bay b).ts }
      | none =>
        if nw then .done s { e with writes := e.writes ++ wrS f.d 0 ++ wrS (f.d + 1) 0 ++ wrS (f.d + 2) 0 }
        else .sent (s.setCore c { x with capWaiters := if x.capWaiters.contains k then x.capWaiters else x.capWaiters ++ [k] }) .capsule

/-- CAPWAIT. -/
def capwaitBody (f : FmtR) : State → Eff → Res := capwaitForm false f

/-- The meaning of CAPWAIT. -/
def execCapwait (f : FmtR) (s : State) : Host.Outcome State Fault Refusal := meaning (.capwait f) none (capwaitBody f) s

/-- CAPWAIT.nw. -/
def capwaitNwBody (f : FmtR) : State → Eff → Res := capwaitForm true f

/-- The meaning of CAPWAIT.nw. -/
def execCapwaitNw (f : FmtR) (s : State) : Host.Outcome State Fault Refusal := meaning (.capwaitNw f) none (capwaitNwBody f) s

/-- CAPNEXT. -/
def capnextBody (f : FmtR) (s : State) (e : Eff) : Res :=
  s.held.res fun (c, ln, b) =>
    let x := s.core c
    let d := x.bayImage b
    let cur := imgGet d 17 1 + 1
    let hops := imgGet d 18 1
    if imgGet d 16 1 ≤ cur then doneS s e f.d 1
    else if hops = 255 then .fault (flt .capsule)
    else
      let d' := imgPut (imgPut (imgPut d 17 1 cur) 18 1 (hops + 1)) 19 1 (imgGet d 19 1 &&& 0xFD)
      match s.route ln c d' cur with
      | none => .fault (flt .capsule)
      | some p =>
        (s.reachSpan (winBase + bayOff b) (256 + min 8192 (imgGet d 14 2)) .load).res fun ls =>
          routedCapsule (s.transitWay ln c p) p.dev { data := BitVec.ofNat 67584 d', ts := 0, place := p } (some b)
            (s.loadSpan (winBase + bayOff b) ls).1 { e with writes := e.writes ++ wrS f.d 0 }

/-- The meaning of CAPNEXT. -/
def execCapnext (f : FmtR) (s : State) : Host.Outcome State Fault Refusal := meaning (.capnext f) (some .reply) (capnextBody f) s

/-- The stations of a held bay from a list, its NSTAT set. -/
def Core.putStations (c : Core) (b : Nat) (ws : List Nat) (n : Nat) : Core :=
  (c.bayPut b 64 96 (packLanes 64 ws)).bayPut b 16 1 n

/-- The twelve station words of a bay. -/
def Core.stations (c : Core) (b : Nat) : List Nat := (List.range 12).map fun i => c.bayGet b (64 + 8 * i) 8

/-- CAPINS (R325). -/
def capinsBody (f : FmtR) (s : State) (e : Eff) : Res :=
  s.held.res fun (c, _, b) =>
    let x := s.core c
    let w := (s.rs f.a).toNat
    let i := (s.rs f.b).toNat
    let n := x.bayGet b 16 1
    let cur := x.bayGet b 17 1
    let ws := x.stations b
    if stationBad w then .fault (flt .capsule)
    else if n = 12 then doneS s e f.d 1
    else if i ≤ cur ∨ n < i then doneS s e f.d 2
    else doneS (s.setCore c (x.putStations b (ws.take i ++ [w % 2 ^ 63] ++ (ws.take n).drop i ++ ws.drop (n + 1)) (n + 1))) e f.d 0

/-- The meaning of CAPINS. -/
def execCapins (f : FmtR) (s : State) : Host.Outcome State Fault Refusal := meaning (.capins f) none (capinsBody f) s

/-- CAPDEL (R325). -/
def capdelBody (f : FmtR) (s : State) (e : Eff) : Res :=
  s.held.res fun (c, _, b) =>
    let x := s.core c
    let i := (s.rs f.b).toNat
    let n := x.bayGet b 16 1
    let cur := x.bayGet b 17 1
    let ws := x.stations b
    if i ≤ cur ∨ n ≤ i then doneS s e f.d 2
    else doneS (s.setCore c (x.putStations b (ws.take i ++ (ws.take n).drop (i + 1) ++ [0] ++ ws.drop n) (n - 1))) e f.d 0

/-- The meaning of CAPDEL. -/
def execCapdel (f : FmtR) (s : State) : Host.Outcome State Fault Refusal := meaning (.capdel f) none (capdelBody f) s

/-- The effect of CAPSET by selector (R326). -/
def Core.capset (c : Core) (b sel a : Nat) : Except FaultInfo Core :=
  if sel = 0 then .ok (c.bayPut b 0 4 a)
  else if sel = 1 then .ok (c.bayPut b 12 2 a)
  else if sel = 2 then
    (if 8192 < a then .error (flt .capsule) else .ok ((c.bayPut b 14 2 a).bayPut b (256 + a) (8192 - a) 0))
  else if sel = 6 then .ok (c.bayPut b 19 1 ((c.bayGet b 19 1 &&& 0xF7) ||| (a &&& 8)))
  else if sel = 9 then (if a % 8 != 0 then .error (flt .align 2) else .ok (c.bayPut b 32 8 a))
  else if sel = 10 then .ok (c.bayPut b 40 8 a)
  else
    let i := sel - 16
    if i ≤ c.bayGet b 17 1 ∨ c.bayGet b 16 1 ≤ i ∨ stationBad a then .error (flt .capsule)
    else .ok (c.bayPut b (64 + 8 * i) 8 (a % 2 ^ 63))

/-- CAPSET. -/
def capsetBody (f : FmtR) (s : State) (e : Eff) : Res :=
  s.held.res fun (c, _, b) =>
    match (s.core c).capset b (f.imm.toNat % 256) (s.rs f.a).toNat with
    | .ok x => (s.spanClean c (bayOff b) (if f.imm.toNat % 256 = 2 then 8448 else 256)).res fun _ => .done (s.setCore c x) e
    | .error x => .fault x

/-- The meaning of CAPSET. -/
def execCapset (f : FmtR) (s : State) : Host.Outcome State Fault Refusal := meaning (.capset f) none (capsetBody f) s

/-- The word of CAPGET by selector. -/
def Core.capget (c : Core) (b sel : Nat) : Nat :=
  match sel with
  | 0 => c.bayGet b 0 4
  | 1 => c.bayGet b 12 2
  | 2 => c.bayGet b 14 2
  | 3 => c.bayGet b 16 1
  | 4 => c.bayGet b 17 1
  | 5 => c.bayGet b 18 1
  | 6 => c.bayGet b 19 1
  | 7 => c.bayGet b 20 2
  | 8 => c.bayGet b 24 8
  | 9 => c.bayGet b 32 8
  | 10 => c.bayGet b 40 8
  | 11 => c.bayGet b 4 4
  | 12 => c.bayGet b 8 4
  | 0x3E => winBase + bayOff b
  | _ => if sel - 16 < c.bayGet b 16 1 then c.bayGet b (64 + 8 * (sel - 16)) 8 else 0

/-- CAPGET. Selector 0x3F needs no held capsule. -/
def capgetBody (f : FmtR) (s : State) (e : Eff) : Res :=
  let sel := f.imm.toNat % 256
  if sel = 0x3F then
    match s.capCore with
    | some (_, ln, _) => doneS s e f.d (BitVec.ofNat 64 (((s.launch? ln).map (·.park)).getD 0))
    | none => .fault (flt .capsule)
  else s.held.res fun (c, _, b) => doneS s e f.d (BitVec.ofNat 64 ((s.core c).capget b sel))

/-- The meaning of CAPGET. -/
def execCapget (f : FmtR) (s : State) : Host.Outcome State Fault Refusal := meaning (.capget f) none (capgetBody f) s

/-- CAPPARK: D receives the TAIL it used. -/
def capparkBody (f : FmtR) (s : State) (e : Eff) : Res :=
  s.held.res fun (c, ln, b) =>
    match s.launch? ln with
    | none => .fault (flt .capsule)
    | some l =>
      ((s.wayTo (devOf c) (s.parkDev ln) (flt .prot)).bind fun _ =>
        (s.spanClean c (bayOff b) 8448).bind fun _ => s.parkClean l).res fun _ =>
      if !s.parkRoom l then .park .park
      else
        let d := (s.core c).bayImage b
        let s := s.setCore c ((s.core c).dropBay b)
        let r := s.parkCapsule ln d 1 s.thread.pts none
        doneS r.1 e f.d (BitVec.ofNat 64 r.2)

/-- The meaning of CAPPARK. -/
def execCappark (f : FmtR) (s : State) : Host.Outcome State Fault Refusal := meaning (.cappark f) (some .reply) (capparkBody f) s

/-- CAPDONE: the completion word stored, then the bay freed. -/
def capdoneBody (_f : FmtR) (s : State) (e : Eff) : Res :=
  s.held.res fun (c, _, b) =>
    let x := s.core c
    let a := x.bayGet b 32 8
    let free (s : State) : Res := .done (s.setCore c ((s.core c).dropBay b)) e
    if a = 0 then free s
    else if a % 8 != 0 then .fault (flt .align 0 3 a)
    else (s.reach s.cur a 8 .store).res fun l => free ((s.noteAccess a l).store l 8 1 (x.bayGet b 40 8))

/-- The meaning of CAPDONE. -/
def execCapdone (f : FmtR) (s : State) : Host.Outcome State Fault Refusal := meaning (.capdone f) (some .reply) (capdoneBody f) s

end Sys2Proof.Machine
end

