-- ==== Sys2Proof/Machine/SlotCtl.lean ====
section
/-! DEFINITION. Slot control (R128-R131), state access (R116, R117, R132), the capability words (R388) and TEND (R135). -/

namespace Sys2Proof.Machine

/-! ## State registers (R116, R117, R388) -/

/-- Folds of device `d` that have their spare core in use, numbered within the device. -/
def State.spareFolds (s : State) (d : Nat) : List Nat :=
  (List.range s.part.folds).filter fun f => (s.fold (128 * d + f)).spare.isSome

/-- CAPA.SLOTS of device `d` as published at its boot (R117), 16 when no bank was mapped out. -/
def State.capaSlots (s : State) (d : Nat) : Nat := (aget s.dev.slotsAt d).getD 16

/-- The words that a reader on device `d` sees in CAPA, SPAREHERE apart. -/
def State.capaDev (s : State) (d : Nat) : Nat :=
  (s.spareFolds d).length * 2 ^ 32 + s.capaSlots d * 2 ^ 12 + s.part.vwlog * 2 ^ 8 + (if s.part.full then 3 else 0)

/-- The CAPA state register as the current thread reads it; no system core is a spare. -/
def State.capaReg (s : State) : Word :=
  let c := s.myCore
  let spare := if !s.isSys && (s.fold (foldOf c)).spare == some c then 1 else 0
  BitVec.ofNat 64 (spare * 2 ^ 40 + s.capaDev (devOf c))

/-- CAPA's word of a selector (R388), on the reading core's device; a system core has one bank (log entry 73). -/
def State.capaWord (s : State) (sel : Nat) : Word :=
  let half (lo : Nat) : Word :=
    BitVec.ofNat 64 (((s.spareFolds (devOf s.myCore)).filter fun f => decide (lo ≤ f) && decide (f < lo + 64)).map fun f => 2 ^ (f - lo)).sum
  match sel with
  | 0 => s.capaReg
  | 1 => if s.isSys then 1 else (s.core s.myCore).banks.setWidth 64
  | 2 => half 0
  | 3 => half 64
  | _ => BitVec.ofNat 64 (s.part.code + Config.stepping.toNat * 2 ^ 16)

/-- State register `n` of a slot, on the core the current thread runs on (R116). -/
def State.stateReg (s : State) (t : Slot) (n : Nat) : Word :=
  match n with
  | 0 => t.pc
  | 1 => t.flags
  | 2 => t.efmt
  | 3 => BitVec.ofNat 64 t.pts
  | 4 => BitVec.ofNat 64 (winBase + frqOff)
  | 5 => if s.isSys then 0 else BitVec.ofNat 64 (s.core s.myCore).timer
  | _ => s.capaReg

/-- MOVS. -/
def movsBody (f : FmtR) (s : State) (e : Eff) : Res := doneS s e f.d (s.stateReg s.thread (f.imm.toNat % 4096))

/-- The meaning of MOVS. -/
def execMovs (f : FmtR) (s : State) : Host.Outcome State Fault Refusal := meaning (.movs f) none (movsBody f) s

/-- The value SETS and SETSI write: by mode write, or, clear. -/
def setsValue (mode : Nat) (old x : Word) : Word :=
  match mode with
  | 0 => x
  | 1 => old ||| x
  | _ => old &&& ~~~x

/-- A state register written by its own thread (R132). -/
def setState (s : State) (e : Eff) (num mode opnd : Nat) (x : Word) : Res :=
  let y := setsValue mode (s.stateReg s.thread num) x
  if num = 1 then .done s { e with setFlags := some y }
  else
    match efmtWritten y with
    | some z => .done s { e with setEfmt := some z }
    | none => .fault (flt .illegalOperand opnd)

/-- SETS. -/
def setsBody (f : FmtR) (s : State) (e : Eff) : Res := setState s e (f.imm.toNat % 4096) (f.mod.toNat % 4) 2 (s.rs f.a)

/-- The meaning of SETS. -/
def execSets (f : FmtR) (s : State) : Host.Outcome State Fault Refusal := meaning (.sets f) none (setsBody f) s

/-- SETSI. -/
def setsiBody (f : FmtI) (s : State) (e : Eff) : Res :=
  setState s e (f.imm.extractLsb' 36 12).toNat (f.mod.toNat % 4) 7 ((f.imm.extractLsb' 0 32).setWidth 64)

/-- The meaning of SETSI. -/
def execSetsi (f : FmtI) (s : State) : Host.Outcome State Fault Refusal := meaning (.setsi f) none (setsiBody f) s

/-- CAPA. -/
def capaBody (f : FmtR) (s : State) (e : Eff) : Res := doneS s e f.d (s.capaWord (f.imm.toNat % 256))

/-- The meaning of CAPA. -/
def execCapa (f : FmtR) (s : State) : Host.Outcome State Fault Refusal := meaning (.capa f) none (capaBody f) s

/-! ## Slots of the issuer's core -/

/-- Slot `j` as slot control names it: of the issuer's core, within the launch's slot count; a system-core thread is the
one slot of its core. -/
def State.peer? (s : State) (j : Nat) : Option Slot :=
  match s.cur with
  | .slot c _ => if j < (s.core c).nslots then some (s.slot c j) else none
  | .sys _ => if j = 0 then some s.thread else none
  | .ctx _ _ => none

/-- That slot replaced. -/
def State.setPeer (s : State) (j : Nat) (t : Slot) : State :=
  match s.cur with
  | .slot c _ => s.setSlot c j t
  | _ => s.setThread t

/-- The status word (R129), without the park reason. -/
def slotStatus (t : Slot) (refused : Bool) : Nat :=
  t.st.code + (if t.follow then 16 else 0) + (if refused then 128 else 0)

/-- A status answered. -/
def doneStatus (s : State) (e : Eff) (d : BitVec 8) (t : Slot) (refused : Bool) : Res :=
  doneS s e d (BitVec.ofNat 64 (slotStatus t refused))

/-- A slot-control instruction whose slot must exist and not be slot 0 (R131). -/
def withSlot (f : FmtR) (s : State) (e : Eff) (g : Nat → Slot → Res) : Res :=
  let j := (s.rs f.a).toNat
  match (if j = 0 then none else s.peer? j) with
  | none => doneS s e f.d 0x80
  | some t => g j t

/-- Fills lost with a slot's holders, counted in LOST_FILL (R131, R361). -/
def State.loseFills (s : State) (t : Slot) : State :=
  match s.cur with
  | .slot c _ => s.setCore c ((s.core c).addFixed 12 t.holders.length)
  | _ => s

/-- A slot as TSTART leaves it. -/
def Slot.started (t : Slot) (pc : Word) (pts : Nat) : Slot :=
  let fe := t.ports.foldl (fun x p => setBit96 x p.1 false) (BitVec.allOnes 96)
  { t with g := Vector.replicate 64 0, v := Vector.replicate 32 0, p := Vector.replicate 8 0, fe := fe, holders := [], fillTs := [],
           flags := 0, efmt := 0, ready := false, pts := max t.pts pts, pc := pc, st := .runnable, wait := none, reply := none,
           stopReq := false, fetchWait := none, entry := true, bell := none, followBuf := [], subst := none, reloc := none,
           again := none, vec := none }

/-- TSTART. -/
def tstartBody (f : FmtR) (s : State) (e : Eff) : Res :=
  withSlot f s e fun j t =>
    match t.st with
    | .idle | .stopped | .ended =>
      let s := s.loseFills t
      doneStatus (s.setPeer j (t.started (s.rs f.b) s.thread.pts)) e f.d t false
    | _ => doneStatus s e f.d t true

/-- The meaning of TSTART. -/
def execTstart (f : FmtR) (s : State) : Host.Outcome State Fault Refusal := meaning (.tstart f) none (tstartBody f) s

/-- Whether a wait can be abandoned by TSTOP (R131); no wait of a CAPWAIT that a capsule is assigned to (R323). -/
def State.abandonable (s : State) (c j : Nat) (t : Slot) : Bool :=
  t.reply.isNone && (List.range 2).all (fun b => ((s.core c).bay b).assigned != some j) && match t.wait with
    | some (.empty _) | some (.full _) | some .ready | some (.eseq _) | some (.fseq _) | some (.phase _ _) | some (.lead _)
    | some .message | some .capsule => true
    | _ => false

/-- An arrival or a BARW of a slot that its barrier's agent holds, abandoned (R131). -/
def State.leaveBarriers (s : State) (c j : Nat) : State :=
  match ((s.core c).launch).bind fun n => (s.launch? n).map fun l => (n, l) with
  | none => s
  | some (n, l) =>
    let mine (w : BarWait) : Bool := w.who == .slot c j
    s.setLaunch n { l with barriers := l.barriers.map fun b =>
      (b.1, { b.2 with late := b.2.late.filter fun w => !mine w, waits := b.2.waits.filter fun w => !mine w }) }

/-- A follow buffer once the instruction that its slot waits in is abandoned: the bundle is one not executed again (R126). -/
def Slot.unissued (t : Slot) : List Bundle := if t.follow then t.again.toList ++ t.followBuf else t.followBuf

/-- Slot `j` of core `c` stopped at its instruction boundary; a follower keeps the bundle that it has not executed (R126). -/
def State.stopSlot (s : State) (c j : Nat) : State :=
  let s := s.leaveBarriers c j
  let x := s.core c
  let t := x.slot j
  let x := { x with capWaiters := x.capWaiters.filter (· != j) }
  let t := { t with st := .stopped, wait := none, stopReq := false, fetchWait := none, again := none, followBuf := t.unissued }
  (s.setCore c (x.setSlot j t)).dropFollowers c j

/-- TSTOP. -/
def tstopBody (f : FmtR) (s : State) (e : Eff) : Res :=
  withSlot f s e fun j t =>
    match s.cur with
    | .slot c _ =>
      let e' := { e with writes := e.writes ++ wrS f.d (BitVec.ofNat 64 (slotStatus t false)), pts := max e.pts t.pts }
      let wait : Res :=
        let s := s.setSlot c j { t with stopReq := true }
        .sent (s.setThread { s.thread with reply := some { e' with pts := e.pts } }) (.stopping j)
      match t.st with
      -- a taken branch that stalls for its target is still to complete (R68)
      | .runnable => if t.again.isSome then wait else .done (s.stopSlot c j) e'
      | .held => .done (s.stopSlot c j) e'
      | .parked => if s.abandonable c j t then .done (s.stopSlot c j) e' else wait
      | .stopped => .done s e'
      | _ => doneStatus s e f.d t true
    | _ => doneStatus s e f.d t true

/-- The meaning of TSTOP. -/
def execTstop (f : FmtR) (s : State) : Host.Outcome State Fault Refusal := meaning (.tstop f) none (tstopBody f) s

/-- Slot `k` of core `c` reaped: its capsule disposed of, its bindings removed once what its output streams appended is written (log
entry 37), its held fills lost, FOLLOW cleared, IDLE (R131, R328, R279). -/
def State.reap (s : State) (c k : Nat) : State :=
  let s := s.reapCapsule c k
  let s := (s.slot c k).ports.foldl (fun s p => if p.2.kind == .output then s.writeAll c k p.1 p.2.buf.length else s) s
  let s := (s.slot c k).ports.foldl (fun s p => s.unbind c k p.1) s
  let x := s.core c
  let t := x.slot k
  let x := x.addFixed 12 t.holders.length
  s.setCore c (x.setSlot k { t.setFollow false with holders := [], st := .idle, wait := none, reply := none, followBuf := [],
                                                     bell := none, stopReq := false, reloc := none, again := none, vec := none })

/-- TREAP. -/
def treapBody (f : FmtR) (s : State) (e : Eff) : Res :=
  withSlot f s e fun j t =>
    match s.cur, t.st with
    | .slot c _, .idle | .slot c _, .stopped | .slot c _, .ended | .slot c _, .faulted =>
      (s.reapWay c j).res fun _ => doneStatus (s.reap c j) { e with pts := max e.pts t.pts } f.d t false
    | _, _ => doneStatus s e f.d t true

/-- The meaning of TREAP. -/
def execTreap (f : FmtR) (s : State) : Host.Outcome State Fault Refusal := meaning (.treap f) none (treapBody f) s

/-- The park reason of a parked slot: near memory's instructions wait for reason 4 until they are translated (R129). -/
def Slot.parkReason (t : Slot) : Nat :=
  let r := (t.wait.map (·.reason)).getD 0
  if r = 3 && ((t.again.bind fun b => b.first.view.map (·.op)) == some 0x80) then 4 else r

/-- TSTAT: a sample, with the park reason. -/
def tstatBody (f : FmtR) (s : State) (e : Eff) : Res :=
  match s.peer? (s.rs f.a).toNat with
  | none => doneS s e f.d 0x80
  | some t =>
    let reason := if t.st = .parked then t.parkReason else 0
    doneS s e f.d (BitVec.ofNat 64 (slotStatus t false + 256 * reason))

/-- The meaning of TSTAT. -/
def execTstat (f : FmtR) (s : State) : Host.Outcome State Fault Refusal := meaning (.tstat f) none (tstatBody f) s

/-- The slot of TRD or TWR. -/
def State.slotOf (s : State) (f : FmtR) : Chk (Nat × Slot) :=
  let j := (s.rs f.a).toNat
  match s.peer? j with
  | some t => .ok (j, t)
  | none => .bad (flt .illegalOperand 2)

/-- TRD. -/
def trdBody (f : FmtR) (s : State) (e : Eff) : Res :=
  (s.slotOf f).res fun (_, t) =>
    let sel := f.imm.toNat
    let n := sel % 128
    if sel / 4096 % 2 = 1 then doneS s e f.d (s.stateReg t (sel % 4096))
    else if n < 96 ∧ (t.port n).isSome then .fault (flt .port 7)
    else if f.mod.getLsbD 0 then doneS s e f.d (boolWord (t.fe.getLsbD n))
    else if n < 64 then doneS s e f.d (t.gr n)
    else if n < 96 then doneV s e f.d (t.vr (n - 64))
    else .done s { e with writes := e.writes ++ wrP f.d (t.pr (n - 96)) }

/-- The meaning of TRD. -/
def execTrd (f : FmtR) (s : State) : Host.Outcome State Fault Refusal := meaning (.trd f) none (trdBody f) s

/-- The register or bit that TWR writes, or a fault. -/
def State.twr (s : State) (f : FmtR) (t : Slot) : Chk Slot :=
  let sel := f.imm.toNat
  let n := sel % 128
  if sel / 4096 % 2 = 1 then
    let x := s.rs f.b
    (match sel % 4096 with
     | 0 => .ok { t with pc := x, entry := false }
     | 1 => .ok { t with flags := flagsWritten t.flags x }
     | _ => match efmtWritten x with
       | some y => .ok { t with efmt := y }
       | none => .bad (flt .illegalOperand 3))
  else if n < 96 ∧ (t.port n).isSome then .bad (flt .port 7)
  else if f.mod.getLsbD 0 then
    .ok (if (s.rs f.b).getLsbD 0 then { t with fe := setBit96 t.fe n true } else t.empty n)
  else if n < 64 then .ok (t.fill n ((s.rs f.b).setWidth 2048))
  else if n < 96 then .ok (t.fill n (s.rv 0 f.b))
  else .ok { t with p := t.p.setIfInBounds (n - 96) (s.rp f.b) }

/-- TWR. -/
def twrBody (f : FmtR) (s : State) (e : Eff) : Res :=
  (s.slotOf f).res fun (j, t) =>
    let sel := f.imm.toNat
    let pcBad := sel / 4096 % 2 == 1 && sel % 4096 == 0 && !(t.st == .idle || t.st == .stopped || t.st == .faulted)
    if pcBad then doneStatus s e f.d t true
    else (s.twr f t).res fun t' => doneStatus (s.setPeer j t') e f.d t false

/-- The meaning of TWR. -/
def execTwr (f : FmtR) (s : State) : Host.Outcome State Fault Refusal := meaning (.twr f) none (twrBody f) s

/-- TRET (R374). -/
def tretBody (f : FmtR) (s : State) (e : Eff) : Res :=
  withSlot f s e fun j t =>
    match s.cur, t.st with
    | .slot c _, .faulted | .slot c _, .stopped => doneStatus (s.returnSlot c j s.thread.pts) e f.d t false
    | _, _ => doneStatus s e f.d t true

/-- The meaning of TRET. -/
def execTret (f : FmtR) (s : State) : Host.Outcome State Fault Refusal := meaning (.tret f) none (tretBody f) s

/-! ## TEND (R135) -/

/-- Each STOPPED and ENDED sibling of a shepherd reaped, and the greatest PTS among them. -/
def State.reapSiblings (s : State) (c : Nat) : List Nat → State × Nat
  | [] => (s, 0)
  | j :: js =>
    let t := s.slot c j
    if t.st = .stopped ∨ t.st = .ended then
      let r := State.reapSiblings (s.reap c j) c js
      (r.1, max t.pts r.2)
    else State.reapSiblings s c js

/-- The ways that the capsules of a shepherd's STOPPED and ENDED siblings take when it ends. -/
def State.reapWays (s : State) (c : Nat) : List Nat → Chk Unit
  | [] => .ok ()
  | j :: js =>
    if (s.slot c j).st = .stopped ∨ (s.slot c j).st = .ended then (s.reapWay c j).bind fun _ => State.reapWays s c js
    else State.reapWays s c js

/-- TEND: a slot ends; a shepherd when its siblings are at rest, and not at all beside a faulted one. -/
def tendBody (_f : FmtR) (s : State) (e : Eff) : Res :=
  if s.thread.hold.isSome then .fault (flt .capsule)
  else
    match s.cur with
    | .slot c 0 =>
      let x := s.core c
      let sib := (List.range x.nslots).filter (· != 0)
      if sib.any fun j => (x.slot j).st == .faulted then .done s e
      else if sib.all fun j => (x.slot j).st == .idle || (x.slot j).st == .stopped || (x.slot j).st == .ended then
        (s.reapWays c sib).res fun _ =>
          let r := s.reapSiblings c sib
          .done r.1 { e with pts := max e.pts r.2, ended := true }
      else .park .siblings
    | _ => .done s { e with ended := true }

/-- The meaning of TEND. -/
def execTend (f : FmtR) (s : State) : Host.Outcome State Fault Refusal := meaning (.tend f) none (tendBody f) s

end Sys2Proof.Machine
end

