-- ==== Sys2Proof/Machine/MemAcc.lean ====
section
/-! DEFINITION. The thread-path instructions of OP 0x60 to 0x66 (R207-R214). -/

namespace Sys2Proof.Machine

/-- The hint of MOD[2:1] (R205). -/
def hintOf (f : FmtR) : Nat := f.mod.toNat / 2 % 4

/-- Alignment, then where an access of `n` bytes is served (R207). -/
def State.access (s : State) (va n : Nat) (acc : Acc) : Chk Loc :=
  if va % n != 0 then .bad (flt .align 0 acc.code va) else s.reach s.cur va n acc

/-- A load of `n` bytes by the current thread at a checked place. -/
def State.loadAt (s : State) (va : Nat) (l : Loc) (n hint : Nat) : State × Nat := (s.noteAccess va l).load l n hint

/-- A store at a checked place. -/
def State.storeAt (s : State) (va : Nat) (l : Loc) (n hint v : Nat) : State := (s.noteAccess va l).store l n hint v

/-- An atomic at a checked place. -/
def State.rmwAt (s : State) (va : Nat) (l : Loc) (n hint : Nat) (f : Nat → Nat) : State × Nat := (s.noteAccess va l).rmw l n hint f

/-! ## LD, ST (R208) -/

/-- LD. -/
def ldBody (f : FmtR) (s : State) (e : Eff) : Res :=
  let t := f.ty.toNat
  let n := esize t
  let a := (s.ea f n).toNat
  (s.access a n .load).res fun l =>
    let r := s.loadAt a l n (hintOf f)
    doneS r.1 e f.d (extTy t r.2)

/-- The meaning of LD. -/
def execLd (f : FmtR) (s : State) : Host.Outcome State Fault Refusal := meaning (.ld f) (some .reply) (ldBody f) s

/-- ST. -/
def stBody (f : FmtR) (s : State) (e : Eff) : Res :=
  let n := esize f.ty.toNat
  let a := (s.ea f n).toNat
  (s.access a n .store).res fun l =>
    .done (s.storeAt a l n (hintOf f) ((s.rs f.c).toNat % 2 ^ (8 * n))) e

/-- The meaning of ST. -/
def execSt (f : FmtR) (s : State) : Host.Outcome State Fault Refusal := meaning (.st f) (some .reply) (stBody f) s

/-! ## LDV, STV (R209, R211)

The unit of access is an element, or the byte of two 4-bit elements, or the word of five l6 elements, which are always
active together (R156). -/

/-- Whether the unit at byte offset `off` is active. -/
def State.unitActive (s : State) (f : FmtR) (off : Nat) : Bool := s.active f.pg 0 off

/-- The active units of a vector access, as byte offsets in ascending order. -/
def State.activeUnits (s : State) (f : FmtR) (n : Nat) : List Nat :=
  ((List.range (s.part.vw / 8 / n)).map (· * n)).filter (s.unitActive f)

/-- Each unit's place, alignment first, in ascending element order. -/
def State.unitPlaces (s : State) (ea n : Nat) (acc : Acc) (offs : List Nat) : Chk (List (Nat × Nat × Loc)) :=
  if ea % n != 0 then .bad (flt .align 0 acc.code ea)
  else Chk.all (fun off =>
    let a := (ea + off) % 2 ^ 64
    (s.reach s.cur a n acc).bind fun l => .ok (off, a, l)) offs

/-- Units loaded in order: the state and their values by offset. -/
def State.loadUnits (s : State) (n hint : Nat) : List (Nat × Nat × Loc) → State × List (Nat × Nat)
  | [] => (s, [])
  | (off, a, l) :: ls =>
    let r := s.loadAt a l n hint
    let q := State.loadUnits r.1 n hint ls
    (q.1, (off, r.2) :: q.2)

/-- Units stored in order. -/
def State.storeUnits (s : State) (n hint : Nat) (v : Nat → Nat) : List (Nat × Nat × Loc) → State
  | [] => s
  | (off, a, l) :: ls => State.storeUnits (s.storeAt a l n hint (v off)) n hint v ls

/-- The bits of a unit that are elements: an l6 word has 30. -/
def unitBits (t n x : Nat) : Nat := if t = 0x16 then x % 2 ^ 30 else x % 2 ^ (8 * n)

/-- A vector made of units of `n` bytes. -/
def ofUnits (n count : Nat) (g : Nat → Nat) : VReg := BitVec.ofNat 2048 (packLanes (8 * n) ((List.range count).map fun j => g (j * n)))

/-- A vector access accepted, its units to be performed one by one as replies arrive, so that other work may see a part (R211; log
entry 5). -/
def startVec (s : State) (i : Instr) (store : Bool) (n hint : Nat) (todo : List (Nat × Nat × Loc)) (vals : List (Nat × Nat)) (e : Eff) : Res :=
  let v : VecRun := { instr := i, store := store, n := n, hint := hint, todo := todo, vals := vals, pts := s.thread.pts, eff := e }
  .sent (s.popDefer.setThread { s.thread with vec := some v }) .served

/-- The value that LDV writes, of the units loaded by offset. -/
def State.ldvValue (s : State) (f : FmtR) (vals : List (Nat × Nat)) : VReg :=
  let t := s.tyOf f
  let n := esize t
  let keep := s.keepV f.d
  ofUnits n (s.part.vw / 8 / n) fun off =>
    if s.unitActive f off then unitBits t n ((aget vals off).getD 0)
    else if zBit f then 0 else (keep.toNat >>> (8 * off)) % 2 ^ (8 * n)

/-- LDV. -/
def ldvBody (f : FmtR) (s : State) (e : Eff) : Res :=
  let n := esize (s.tyOf f)
  let ea := (s.ea f n).toNat
  (s.unitPlaces ea n .load (s.activeUnits f n)).res fun ls =>
    if s.deferNow = 3 then startVec s (.ldv { f with ty := BitVec.ofNat 6 (s.tyOf f) }) false n (hintOf f) ls [] e
    else
      let r := s.loadUnits n (hintOf f) ls
      doneV r.1 e f.d (s.ldvValue f r.2)

/-- The meaning of LDV. -/
def execLdv (f : FmtR) (s : State) : Host.Outcome State Fault Refusal := meaning (.ldv f) (some .reply) (ldvBody f) s

/-- STV. -/
def stvBody (f : FmtR) (s : State) (e : Eff) : Res :=
  let t := s.tyOf f
  let n := esize t
  let ea := (s.ea f n).toNat
  let c := s.rv t f.c
  let v (off : Nat) : Nat := unitBits t n (c.toNat >>> (8 * off))
  (s.unitPlaces ea n .store (s.activeUnits f n)).res fun ls =>
    if s.deferNow = 3 then startVec s (.stv f) true n (hintOf f) ls (ls.map fun u => (u.1, v u.1)) e
    else .done (s.storeUnits n (hintOf f) v ls) e

/-- The meaning of STV. -/
def execStv (f : FmtR) (s : State) : Host.Outcome State Fault Refusal := meaning (.stv f) (some .reply) (stvBody f) s

/-! ## GTH, SCT (R210) -/

/-- The address of element `i`. -/
def State.gatherEa (s : State) (f : FmtR) (i : Nat) : Nat :=
  let t := f.ty.toNat
  let idx := sxInt (tyWidth t) (elem t (s.rv t f.b) i)
  (s.rs f.a + BitVec.ofInt 64 (idx * (if f.mod.getLsbD 0 then (esize t : Nat) else 1)) + f.imm.signExtend 64).toNat

/-- The active elements' places in ascending order, each aligned and checked. -/
def State.gatherPlaces (s : State) (f : FmtR) (acc : Acc) : Chk (List (Nat × Nat × Loc)) :=
  let t := f.ty.toNat
  Chk.all (fun i =>
    let a := s.gatherEa f i
    (s.access a (esize t) acc).bind fun l => .ok (i, a, l))
    ((List.range (lanes s.part.vw t)).filter (s.active f.pg t))

/-- The value that GTH writes, of the elements loaded by number. -/
def State.gthValue (s : State) (f : FmtR) (vals : List (Nat × Nat)) : VReg :=
  let t := f.ty.toNat
  (s.writeElems f t 0 (lanes s.part.vw t) fun i => ((aget vals i).getD 0, 0)).1

/-- GTH. -/
def gthBody (f : FmtR) (s : State) (e : Eff) : Res :=
  let n := esize f.ty.toNat
  (s.gatherPlaces f .load).res fun ls =>
    if s.deferNow = 3 then startVec s (.gth f) false n (hintOf f) ls [] e
    else
      let r := s.loadUnits n (hintOf f) ls
      doneV r.1 e f.d (s.gthValue f r.2)

/-- The meaning of GTH. -/
def execGth (f : FmtR) (s : State) : Host.Outcome State Fault Refusal := meaning (.gth f) (some .reply) (gthBody f) s

/-- SCT. -/
def sctBody (f : FmtR) (s : State) (e : Eff) : Res :=
  let t := f.ty.toNat
  let c := s.rv t f.c
  let n := esize t
  (s.gatherPlaces f .store).res fun ls =>
    if s.deferNow = 3 then startVec s (.sct f) true n (hintOf f) ls (ls.map fun u => (u.1, elem t c u.1)) e
    else .done (s.storeUnits n (hintOf f) (elem t c) ls) e

/-- The effects of a vector access all of whose units are performed. -/
def State.vecEff (s : State) (v : VecRun) : Eff :=
  let e := { v.eff with pts := max v.eff.pts v.pts }
  match v.instr with
  | .ldv f => { e with writes := e.writes ++ wrV f.d (s.ldvValue f v.vals) }
  | .gth f => { e with writes := e.writes ++ wrV f.d (s.gthValue f v.vals) }
  | _ => e

/-- The next unit of the current thread's vector access performed, when it can be reached (R367), or its completion (R211). -/
def State.vecStep (s : State) (v : VecRun) : State :=
  match v.todo with
  | [] => s.land (s.vecEff v)
  | (i, a, l) :: us =>
    if !s.placeReady (s.standsOn s.cur) l then s
    else
      let old := s.thread.pts
      let s := s.setThread { s.thread with pts := v.pts }
      let r := if v.store then (s.storeAt a l v.n v.hint ((aget v.vals i).getD 0), v.vals)
               else let r := s.loadAt a l v.n v.hint; (r.1, v.vals ++ [(i, r.2)])
      r.1.setThread { r.1.thread with pts := old, vec := some { v with todo := us, vals := r.2, pts := r.1.thread.pts } }

/-- The meaning of SCT. -/
def execSct (f : FmtR) (s : State) : Host.Outcome State Fault Refusal := meaning (.sct f) (some .reply) (sctBody f) s

/-! ## AMO, CAS, AMOV (R212-R214) -/

/-- The new value of an atomic operation; it sets no flag. -/
def amoNew (op t old x : Nat) : Nat :=
  let w := tyWidth t
  let x := x % 2 ^ w
  match op with
  | 0 => x
  | 1 => if tyIsInt t then (old + x) % 2 ^ w else (faddV t .rne (fval t old) (fval t x)).1
  | 2 => old &&& x
  | 3 => old ||| x
  | 4 => old ^^^ x
  | 5 => (elMin t old x).1
  | _ => (elMax t old x).1

/-- The operation of MOD[5:3]. -/
def amoOp (f : FmtR) : Nat := f.mod.toNat / 8

/-- AMO. -/
def amoBody (f : FmtR) (s : State) (e : Eff) : Res :=
  let t := f.ty.toNat
  let n := esize t
  let a := (s.ea f n).toNat
  let x := (s.rs f.c).toNat
  (s.access a n .atomic).res fun l =>
    let r := s.rmwAt a l n (hintOf f) fun old => amoNew (amoOp f) t old x
    doneS r.1 e f.d (extTy t r.2)

/-- The meaning of AMO. -/
def execAmo (f : FmtR) (s : State) : Host.Outcome State Fault Refusal := meaning (.amo f) (some .reply) (amoBody f) s

/-- CAS: a failing one writes no byte and takes the store rule's timestamps. -/
def casBody (f : FmtR) (s : State) (e : Eff) : Res :=
  let t := f.ty.toNat
  let n := esize t
  let a := (s.ea f n).toNat
  let exp := (s.rs f.d).toNat % 2 ^ (8 * n)
  let new := (s.rs f.c).toNat % 2 ^ (8 * n)
  (s.access a n .atomic).res fun l =>
    let old := s.peek l n
    let r := s.rmwAt a l (if old = exp then n else 0) (hintOf f) fun _ => new
    doneS r.1 e f.d (extTy t old)

/-- The meaning of CAS. -/
def execCas (f : FmtR) (s : State) : Host.Outcome State Fault Refusal := meaning (.cas f) (some .reply) (casBody f) s

/-- Atomics on elements in ascending order, the store rule applied to each (DEDUCED for AMOV, log entry 84): the state and the old
values by element. -/
def State.rmwUnits (s : State) (n hint : Nat) (g : Nat → Nat → Nat) : List (Nat × Nat × Loc) → State × List (Nat × Nat)
  | [] => (s, [])
  | (i, a, l) :: ls =>
    let r := s.rmwAt a l n hint (g i)
    let q := State.rmwUnits r.1 n hint g ls
    (q.1, (i, r.2) :: q.2)

/-- AMOV: the 32 bytes at EA. -/
def amovBody (f : FmtR) (s : State) (e : Eff) : Res :=
  let t := f.ty.toNat
  let n := esize t
  let ea := (s.ea f n).toNat
  let c := s.rv t f.c
  let keep := s.keepV f.d
  if ea % 32 != 0 then .fault (flt .align 0 4 ea)
  else (Chk.all (fun i => (s.reach s.cur (ea + n * i) n .atomic).bind fun l => .ok (i, ea + n * i, l))
      ((List.range (32 / n)).filter (s.active f.pg t))).res fun ls =>
    let r := s.rmwUnits n (hintOf f) (fun i old => amoNew (amoOp f) t old (elem t c i)) ls
    let x := ofElems t ((List.range (32 / n)).map fun i => if s.active f.pg t i then (aget r.2 i).getD 0 else elem t keep i)
    doneV r.1 e f.d x

/-- The meaning of AMOV. -/
def execAmov (f : FmtR) (s : State) : Host.Outcome State Fault Refusal := meaning (.amov f) (some .reply) (amovBody f) s

end Sys2Proof.Machine
end

