-- ==== Sys2Proof/Machine/Plat.lean ====
section
/-! DEFINITION. Plats (R332-R336): the record, its validity, where an element and its scale lie, and reads and writes of
elements by a path. -/

namespace Sys2Proof.Machine

/-- A plat record taken apart (R332). -/
structure Plat where
  base : Word
  scale : Word
  dim : List Nat
  str : List Int
  ty : Nat
  rank : Nat
  block : Nat
  comp : Nat
  hnt : Nat
  deriving DecidableEq, Repr, Inhabited

/-- `n` bytes at `off` of a record. -/
def lineField (l : Line) (off n : Nat) : Nat := (l.toNat >>> (8 * off)) % 2 ^ (8 * n)

/-- The fields of a record. -/
def platOf (l : Line) : Plat :=
  { base := BitVec.ofNat 64 (lineField l 0 8), scale := BitVec.ofNat 64 (lineField l 8 8),
    dim := (List.range 4).map fun i => lineField l (16 + 4 * i) 4,
    str := (List.range 4).map fun i => sxInt 32 (lineField l (32 + 4 * i) 4),
    ty := lineField l 48 1, rank := lineField l 49 1, block := lineField l 50 1, comp := lineField l 51 1, hnt := lineField l 52 1 }

/-- Dimension `i`, an unused one counting as 1 (R334). -/
def Plat.dimOf (p : Plat) (i : Nat) : Nat := if i < p.rank then p.dim.getD i 0 else 1

/-- An address of the local window (R199). -/
def inWindow (a : Nat) : Bool := decide (winBase ≤ a) && decide (a < winBase + 2 ^ 22)

/-- Whether a record meets R333, its two addresses judged by `ok`. -/
def platMeets (ok : Nat → Bool) (l : Line) : Bool :=
  let p := platOf l
  let t := p.ty
  let size := esize t
  let compOk := p.comp == 0 || (p.comp == 1 && (t == 0x10 || t == 0x11 || t == 0x13 || t == 0x14 || t == 0x01 || t == 0x05 || t == 0x16))
    || (p.comp == 2 && p.block == 8)
  lineField l 53 1 == 128 && lineField l 54 2 == 0 && lineField l 60 4 == 0
    && ((decide (1 ≤ t) && decide (t ≤ 0x0A)) || (decide (0x10 ≤ t) && decide (t ≤ 0x16))) && decide (1 ≤ p.rank) && decide (p.rank ≤ 4)
    && ((List.range 4).all fun i => if i < p.rank then p.dim.getD i 0 != 0 else p.dim.getD i 0 == 0 && p.str.getD i 0 == 0)
    && ok p.base.toNat && p.base.toNat % size == 0
    && ((p.block == 0 && p.scale == 0) || (p.block == 8 && ok p.scale.toNat && p.scale != 0 && decide (tyWidth t ≤ 8) && tyWidth t != 0))
    && compOk && decide (p.hnt ≤ 3)

/-- Whether a record is valid as PLSET judges it (R333). -/
def platValid (l : Line) : Bool := platMeets canonical l

/-- Whether an entry may be used: one that the launch brought may lie in the local window (R221; DEDUCED, log entry 26). -/
def platUsable (l : Line) : Bool := platMeets (fun a => canonical a || inWindow a) l

/-- Whether coordinates lie inside (R334). -/
def Plat.inside (p : Plat) (x : List Nat) : Bool := (List.range 4).all fun i => decide (x.getD i 0 < p.dimOf i)

/-- The unit that holds an element: its address, the element's first bit in it and its width. -/
def Plat.loc (p : Plat) (x : List Nat) : Nat × Nat × Nat :=
  let e : Int := ((List.range 4).map fun i => (x.getD i 0 : Int) * p.str.getD i 0).sum
  let w := tyWidth p.ty
  let at_ (off : Int) : Nat := (p.base + BitVec.ofInt 64 off).toNat
  if p.ty = 0x16 then (at_ (4 * (e / 5)), 6 * (e % 5).toNat, 6)
  else if w = 4 then (at_ (e / 2), 4 * (e % 2).toNat, 4)
  else (at_ (e * (w / 8 : Nat)), 0, w)

/-- The address of an element's scale byte. -/
def Plat.scaleLoc (p : Plat) (x : List Nat) : Nat :=
  let c (i : Nat) : Nat := x.getD i 0
  (p.scale + BitVec.ofNat 64 (c 0 / 8 + (p.dimOf 0 + 7) / 8 * (c 1 + p.dimOf 1 * (c 2 + p.dimOf 2 * c 3)))).toNat

/-- The element that reads as 0: the zero code of l6, else all bits 0 (DEDUCED, log entry 21). -/
def zeroElem (t : Nat) : Nat := if t = 0x16 then 0x10 else 0

/-- A unit with an element's bits replaced; an l6 word's bits [31:30] become 0 (R52, R239). -/
def Plat.merge (p : Plat) (old shift width v : Nat) : Nat :=
  let x := old - old / 2 ^ shift % 2 ^ width * 2 ^ shift + v % 2 ^ width * 2 ^ shift
  if p.ty = 0x16 then x % 2 ^ 30 else x

/-- A plat entry of a core's fold copy, when valid (R336). -/
def State.platEntry (s : State) (c n : Nat) : Option Line :=
  (aget (s.fold (foldOf c)).plats n).filter platUsable

/-- An element read by a path at clock `ts` with lease `lam`: the state, the element's bits and the greatest write
timestamp; one outside reads as 0 without an access. -/
def State.platRead (s : State) (c k : Nat) (p : Plat) (x : List Nat) (ts lam : Nat) : Chk (State × Nat × Nat) :=
  if !p.inside x then .ok (s, zeroElem p.ty, 0)
  else
    let l := p.loc x
    (s.pathRead c k l.1 (esize p.ty) ts (p.hnt != 3) lam).bind fun r => .ok (r.1, (r.2.1 >>> l.2.1) % 2 ^ l.2.2, r.2.2)

/-- The scale byte of an element, 1 (code 127) outside or without scales. -/
def State.platScale (s : State) (c k : Nat) (p : Plat) (x : List Nat) (ts lam : Nat) : Chk (State × Nat × Nat) :=
  if p.block = 0 ∨ !p.inside x then .ok (s, 127, 0)
  else s.pathRead c k (p.scaleLoc x) 1 ts (p.hnt != 3) lam

/-- The unit of an element that takes the value `v`; a sub-byte element leaves its unit's other bits. -/
def Plat.unit (p : Plat) (x : List Nat) (v : Nat) : PlatUnit :=
  let l := p.loc x
  { va := l.1, n := esize p.ty, shift := l.2.1, width := l.2.2, v := v }

/-- The scale byte of an element's block that takes the value `v`. -/
def Plat.scaleUnit (p : Plat) (x : List Nat) (v : Nat) : PlatUnit := { va := p.scaleLoc x, n := 1, shift := 0, width := 8, v := v }

/-- Units that a path of core `c` for slot `k` is to write: their places, once every check has been passed, and the state with the
translations that took. -/
def State.reachUnits (s : State) (c k : Nat) : List PlatUnit → Chk (State × List UnitWrite)
  | [] => .ok (s, [])
  | u :: us =>
    let r := s.pathReach c k u.va u.n .pathWrite
    r.2.bind fun q => (State.reachUnits r.1 c k us).bind fun y =>
      .ok (y.1, { loc := q, n := u.n, shift := u.shift, width := u.width, v := u.v } :: y.2)

/-- The bytes of units of one line under the write timestamp `w`. -/
def State.putUnits (s : State) (p : Plat) (w : Nat) (us : List UnitWrite) : State :=
  us.foldl (fun s u => s.homePut u.loc u.n (p.merge (s.peek u.loc u.n) u.shift u.width u.v) w) s

/-- The writes of one line performed at their home as one store by clock `ts` (R197, R234): the state and the write timestamp. -/
def State.writeUnits (s : State) (p : Plat) (ts : Nat) (us : List UnitWrite) : State × Nat :=
  match us with
  | [] => (s, 0)
  | u :: _ =>
    let r := s.homeStamp u.loc ts (p.hnt != 3)
    (r.1.putUnits p r.2 us, r.2)

/-- Elements read in order with the lease of the plat's hint (R197): the state, their bits and the greatest write timestamp. -/
def State.platReads (s : State) (c k : Nat) (p : Plat) (ts : Nat) : List (List Nat) → Chk (State × List Nat × Nat)
  | [] => .ok (s, [], 0)
  | x :: xs =>
    (s.platRead c k p x ts (leaseOf p.hnt)).bind fun r =>
      (State.platReads r.1 c k p ts xs).bind fun q => .ok (q.1, r.2.1 :: q.2.1, max r.2.2 q.2.2)

/-- The two coordinates of an origin (R189). -/
def origin2 (o : Word) : Nat × Nat := (o.toNat % 2 ^ 32, o.toNat / 2 ^ 32)

end Sys2Proof.Machine
end

