-- ==== Sys2Proof/Machine/Matrix.lean ====
section
/-! DEFINITION. Accumulator tiles, the weight buffer and the matrix unit (R178-R197). -/

namespace Sys2Proof.Machine

/-! ## Tiles (R179, R193) -/

/-- Element `i` of a tile. -/
def tileGet (t : BitVec 32768) (i : Nat) : Nat := (t.toNat >>> (32 * (i % 1024))) % 2 ^ 32

/-- A tile of 1,024 elements. -/
def tileOf (xs : List Nat) : BitVec 32768 := BitVec.ofNat 32768 (packLanes 32 xs)

/-- Tile `t` of a core. -/
def Core.tile (c : Core) (t : Nat) : BitVec 32768 := (c.tiles[t]?).getD 0

/-- A tile written with its tag (set: i32). -/
def Core.setTile (c : Core) (t : Nat) (x : BitVec 32768) (i32 : Bool) : Core :=
  { c with tiles := c.tiles.setIfInBounds t x,
           tags := if i32 then c.tags ||| BitVec.twoPow 8 t else c.tags &&& ~~~(BitVec.twoPow 8 t) }

/-- A tile's pending count. -/
def Core.pending (c : Core) (t : Nat) : Nat := (c.pend[t]?).getD 0

/-- The count changed. -/
def Core.setPending (c : Core) (t n : Nat) : Core := { c with pend := c.pend.setIfInBounds t n }

/-- The number of the tile that a byte names. -/
def tileNo (b : BitVec 8) : Nat := opName b - 104

/-- Whether a TY is the tag i32. -/
def tagOf (t : Nat) : Bool := t == 0x03

/-- MZERO. -/
def mzeroBody (f : FmtR) (s : State) (e : Eff) : Res :=
  let t := tileNo f.d
  let c := s.core s.myCore
  if c.pending t != 0 then .park (.tile t)
  else .done (s.setCore s.myCore (c.setTile t 0 (tagOf f.ty.toNat))) e

/-- The meaning of MZERO. -/
def execMzero (f : FmtR) (s : State) : Host.Outcome State Fault Refusal := meaning (.mzero f) none (mzeroBody f) s

/-- The first element of MRD or MWR. -/
def State.tileRow (s : State) (f : FmtR) : Nat := 32 * ((s.rs f.b).toNat % 32)

/-- MRD. -/
def mrdBody (f : FmtR) (s : State) (e : Eff) : Res :=
  let t := tileNo f.a
  let c := s.core s.myCore
  if c.pending t != 0 then .park (.tile t)
  else if c.tags.getLsbD t != tagOf f.ty.toNat then .fault (flt .tileType 2)
  else doneElems s e f 0x12 fun k => (tileGet (c.tile t) (s.tileRow f + k), 0)

/-- The meaning of MRD. -/
def execMrd (f : FmtR) (s : State) : Host.Outcome State Fault Refusal := meaning (.mrd f) none (mrdBody f) s

/-- MWR. -/
def mwrBody (f : FmtR) (s : State) (e : Eff) : Res :=
  let t := tileNo f.d
  let c := s.core s.myCore
  if c.pending t != 0 then .park (.tile t)
  else if c.tags.getLsbD t != tagOf f.ty.toNat then .fault (flt .tileType 1)
  else
    let ne := s.part.vw / 32
    let a := s.rv 0x12 f.a
    let e0 := s.tileRow f
    let x := tileOf ((List.range 1024).map fun i =>
      let k := (i + 1024 - e0) % 1024
      if k < ne ∧ s.active f.pg 0x12 k then elem 0x12 a k else tileGet (c.tile t) i)
    .done (s.setCore s.myCore (c.setTile t x (tagOf f.ty.toNat))) e

/-- The meaning of MWR. -/
def execMwr (f : FmtR) (s : State) : Host.Outcome State Fault Refusal := meaning (.mwr f) none (mwrBody f) s

/-- MSTAT of a tile (R194). -/
def mstatBody (f : FmtR) (s : State) (e : Eff) : Res :=
  let t := tileNo f.a
  let c := s.core s.myCore
  let p := c.pending t
  doneS s e f.d (BitVec.ofNat 64 (p % 256 * 256 + (if p = 0 then 0 else 2) + (if c.tags.getLsbD t then 1 else 0)))

/-- The meaning of MSTAT. -/
def execMstat (f : FmtR) (s : State) : Host.Outcome State Fault Refusal := meaning (.mstat f) none (mstatBody f) s

/-- Weight slot `n` of a core. -/
def Core.wslot (c : Core) (n : Nat) : WSlot := (c.wslots[n]?).getD {}

/-- The status word of a weight slot. -/
def WSlot.word (w : WSlot) : Nat :=
  w.platNo % 4096 * 2 ^ 20 + w.sparse.toNat * 2 ^ 16 + w.fmt % 16 * 2 ^ 8 + (if w.scaled then 128 else 0) + (if w.reload then 64 else 0)
    + w.valid.toNat

/-- MSTAT.w of a weight slot. -/
def mstatWBody (f : FmtR) (s : State) (e : Eff) : Res :=
  doneS s e f.d (BitVec.ofNat 64 ((s.core s.myCore).wslot (f.imm.toNat % 16)).word)

/-- The meaning of MSTAT.w. -/
def execMstatW (f : FmtR) (s : State) : Host.Outcome State Fault Refusal := meaning (.mstatW f) none (mstatWBody f) s

/-! ## Formats (R183, R186, R190) -/

/-- The slot format of a plat's type, 0 for none. -/
def slotFmt (t : Nat) : Nat :=
  match t with
  | 0x10 => 1 | 0x11 => 2 | 0x13 => 3 | 0x14 => 4 | 0x15 => 5 | 0x01 | 0x05 => 6 | 0x16 => 7 | _ => 0

/-- The type of a slot format's elements as the unit stores them. -/
def fmtTy (n : Nat) : Nat :=
  match n with
  | 1 => 0x10 | 2 => 0x11 | 3 => 0x13 | 4 => 0x14 | 5 => 0x15 | 6 => 0x01 | _ => 0x16

/-- K of a type (R183). -/
def unitK (t : Nat) : Nat :=
  match t with
  | 0x10 | 0x11 => 32 | 0x15 => 128 | _ => 64

/-- The width at which a type's elements lie in an A block or a panel: l6 takes a byte. -/
def unitW (t : Nat) : Nat := if t = 0x16 then 8 else tyWidth t

/-- Whether an MMA of type `t` accepts a slot (R183). -/
def WSlot.accepted (w : WSlot) (t panel : Nat) : Bool :=
  let fmtOk := match t with
    | 0x10 => w.fmt == 1 | 0x11 => w.fmt == 2 | 0x13 | 0x14 => w.fmt == 3 || w.fmt == 4 | 0x15 => w.fmt == 5 | 0x16 => w.fmt == 7
    | _ => w.fmt == 6
  w.valid.getLsbD panel && fmtOk && (!w.scaled || (decide (0x13 ≤ t) && decide (t ≤ 0x16)))

/-! ## The product (R188) -/

/-- A unit block's element at a bit width. -/
def blockGet (x w i : Nat) : Nat := (x >>> (w * i)) % 2 ^ w

/-- One chunk of a floating product: its exact sum under the chunk's scale codes; a code of 255 makes it NaN with IV
(R47). -/
def scaledChunk (ps : List (FVal × Word)) (sa sb : Nat) : (FVal × Word) × Int :=
  if sa = 255 ∨ sb = 255 then ((.nan false, flagIV), 0)
  else (chunkSum ps (.fin false 0 0, 0), (sa : Int) - 127 + ((sb : Int) - 127))

/-- The floating chunks of one element, in ascending k. -/
def floatChunks (p : Nat → FVal × Word) (sa sb : Nat → Nat) : List Nat → Nat × Word → Nat × Word
  | [], r => r
  | c :: cs, r =>
    let q := scaledChunk ((List.range' (8 * c) 8).map p) (sa c) (sb c)
    let z := chunkAcc r.1 q.1 q.2
    floatChunks p sa sb cs (z.1, r.2 ||| z.2)

/-- The integer chunks of one element. -/
def intChunks (sat : Bool) (a b : Nat → Int) : List Nat → Nat × Word → Nat × Word
  | [], r => r
  | c :: cs, r =>
    let z := chunkInt sat r.1 (chunkSumInt ((List.range' (8 * c) 8).map fun k => (a k, b k)))
    intChunks sat a b cs (z.1, r.2 ||| z.2)

/-- Element (i, j) of MMA's result from accumulator bits `acc`. -/
def mmaElem (a sc : Nat) (w : WSlot) (panel t : Nat) (m : BitVec 6) (i j acc : Nat) : Nat × Word :=
  let k := unitK t
  let wa := unitW t
  let tb := fmtTy w.fmt
  let wb := unitW tb
  let b := ((w.panels[panel]?).getD 0).toNat
  let bs := ((w.scales[panel]?).getD 0).toNat
  let ea (x : Nat) : Nat := blockGet a wa (512 / wa * i + x)
  let eb (x : Nat) : Nat := blockGet b wb (32 * x + j)
  let cs := List.range (k / 8)
  if t = 0x01 then
    intChunks (m.getLsbD 2) (fun x => tyInt (if m.getLsbD 0 then 0x05 else 0x01) (ea x)) (fun x => tyInt (if m.getLsbD 1 then 0x05 else 0x01) (eb x))
      cs (acc, 0)
  else
    floatChunks (fun x => mulV t (ea x) tb (eb x))
      (fun c => if m.getLsbD 4 then blockGet sc 8 (i * (k / 8) + c) else 127)
      (fun c => if w.scaled then blockGet bs 8 (32 * c + j) else 127) cs (acc, 0)

/-- The tile and the flags of MMA. -/
def mmaTile (old : BitVec 32768) (a sc : Nat) (w : WSlot) (panel t : Nat) (m : BitVec 6) : BitVec 32768 × Word :=
  let xs := (List.range 1024).map fun n => mmaElem a sc w panel t m (n / 32) (n % 32) (if m.getLsbD 3 then 0 else tileGet old n)
  (tileOf (xs.map (·.1)), orFlags (xs.map (·.2)))

/-! ## Loading a weight slot (R190, R182) -/

/-- Whether a panel's elements allow the 2:4 form: at most two nonzero of every four consecutive k of a column. -/
def sparseOk (t : Nat) (k : Nat) (x : Nat → Nat → Nat) : Bool :=
  (List.range 32).all fun j => (List.range (k / 4)).all fun g =>
    decide (((List.range' (4 * g) 4).filter fun i => match val t (x i j) with
      | .fin _ 0 _ => false
      | _ => true).length ≤ 2)

/-- Elements read in order, each with its scale where a chunk begins: the state, the elements, the scales, the greatest timestamp. -/
def State.platBoth (s : State) (c sl : Nat) (p : Plat) (ts : Nat) : List (List Nat) → Chk (State × List Nat × List Nat × Nat)
  | [] => .ok (s, [], [], 0)
  | x :: xs =>
    (s.platRead c sl p x ts (leaseOf p.hnt)).bind fun r =>
      if p.block = 0 ∨ x.headD 0 % 8 ≠ 0 then
        (State.platBoth r.1 c sl p ts xs).bind fun q => .ok (q.1, r.2.1 :: q.2.1, q.2.2.1, max r.2.2 q.2.2.2)
      else
        (r.1.platScale c sl p x ts (leaseOf p.hnt)).bind fun z =>
          (State.platBoth z.1 c sl p ts xs).bind fun q => .ok (q.1, r.2.1 :: q.2.1, z.2.1 :: q.2.2.1, max (max r.2.2 z.2.2) q.2.2.2)

/-- Column `j` of `n` panels of a plat, its `k` coordinates in ascending order (R419). -/
def panelColumn (p : Plat) (k0 j0 n j : Nat) : List (List Nat) := (List.range (n * unitK p.ty)).map fun i => [k0 + i, j0 + j, 0, 0]

/-- Rows `q`·r to `q`·r+r-1 of 32 columns of `m` values each, row by row: what a panel keeps. -/
def panelOf (xs : Array Nat) (m q r : Nat) : List Nat := (List.range (32 * r)).map fun i => (xs[i % 32 * m + q * r + i / 32]?).getD 0

/-- A slot with panels `f` to `f`+n-1 made of what was read, and the fallback mask (R190). -/
def WSlot.withPanels (w : WSlot) (p : Plat) (f n : Nat) (els scs : Array Nat) : WSlot × Nat :=
  let k := unitK p.ty
  (List.range n).foldl (fun r q =>
    let w := r.1
    let xs := panelOf els (n * k) q k
    let ar := xs.toArray
    let sp := p.comp == 1 && sparseOk p.ty k fun i j => (ar[32 * i + j]?).getD 0
    let bit := BitVec.twoPow 4 (f + q)
    ({ w with panels := w.panels.setIfInBounds (f + q) (BitVec.ofNat 16384 (packLanes (unitW p.ty) xs)),
              scales := w.scales.setIfInBounds (f + q) (BitVec.ofNat 4096 (packLanes 8 (if p.block = 0 then [] else panelOf scs (n * (k / 8)) q (k / 8)))),
              valid := w.valid ||| bit, sparse := if sp then w.sparse ||| bit else w.sparse },
     r.2 + (if p.comp == 1 && !sp then 2 ^ (f + q) else 0))) (w, 0)

/-- The slot that a load makes of what it read, every other panel invalid, and the fallback mask. -/
def loadedSlot (l : Line) (no : Nat) (org : Word) (f n : Nat) (els scs : List Nat) : WSlot × Nat :=
  let p := platOf l
  let w : WSlot := { fmt := slotFmt p.ty, scaled := p.block == 8, reload := false, plat := l, platNo := no, origin := org, first := f, count := n }
  w.withPanels p f n els.toArray scs.toArray

/-- A core's weight slot replaced. -/
def Core.setWslot (c : Core) (n : Nat) (w : WSlot) : Core := { c with wslots := c.wslots.setIfInBounds n w }

/-! ## Acceptance (R180) -/

/-- The tile a unit operation locks. -/
def UnitKind.tile? : UnitKind → Option Nat
  | .mma t _ _ _ _ _ _ => some t
  | .mload t _ _ => some t
  | .mdrain t _ _ _ _ _ _ _ _ => some t
  | _ => none

/-- The pending count of an operation's tile raised or lowered. -/
def Core.lockTile (c : Core) (k : UnitKind) (up : Bool) : Core :=
  match k.tile? with
  | some t => c.setPending t (if up then c.pending t + 1 else c.pending t - 1)
  | none => c

/-- A unit operation accepted: the thread parks until the unit is done with it. -/
def acceptUnit (s : State) (e : Eff) (k : UnitKind) : Res :=
  let c := s.myCore
  let x := s.core c
  let op : UnitOp := { num := x.mnext + 1, slot := s.mySlot, pts := s.thread.pts, conds := x.fenced 3, eff := e, kind := k }
  let x := { x with mnext := x.mnext + 1, mq := x.mq ++ [op] }
  .sent (s.setCore c (x.lockTile k true)) .matrix

/-- Registers `b` to `b`+n-1 read as one block. -/
def State.readBlock (s : State) (b : BitVec 8) (n : Nat) : BitVec 16384 :=
  BitVec.ofNat 16384 (packLanes s.part.vw ((List.range n).map fun i => (s.rv 0x01 (BitVec.ofNat 8 (opName b + i))).toNat))

/-- MMA. -/
def mmaBody (f : FmtR) (s : State) (e : Eff) : Res :=
  let t := f.ty.toNat
  let na := 16384 / s.part.vw
  let nc := 32 * unitK t / s.part.vw
  let sc := if f.mod.getLsbD 4 then s.readBlock f.c nc else 0
  acceptUnit s e (.mma (tileNo f.d) (s.readBlock f.a na) sc (f.imm.toNat % 16) (f.imm.toNat / 16 % 4) t f.mod)

/-- The meaning of MMA. -/
def execMma (f : FmtR) (s : State) : Host.Outcome State Fault Refusal := meaning (.mma f) none (mmaBody f) s

/-- The plat of a two-dimensional plat instruction, its type judged (R189). -/
def State.plat2 (s : State) (p1 : Nat) (ok : Nat → Bool) : Chk Line :=
  match s.platEntry s.myCore p1 with
  | none => .bad (flt .illegalOperand 5)
  | some l =>
    let p := platOf l
    if p.rank = 1 ∨ !ok p.ty then .bad (flt .illegalOperand 5) else .ok l

/-- WBLD. -/
def wbldBody (f : FmtP) (s : State) (e : Eff) : Res :=
  (s.plat2 f.p1.toNat fun t => slotFmt t != 0).res fun l =>
    let p := platOf l
    let o := s.rs f.a
    let im := f.imm.toNat
    if p.block = 8 ∧ (origin2 o).1 % 8 ≠ 0 then .fault (flt .illegalOperand 2)
    else acceptUnit s e (.wbld f.d o f.p1.toNat l (im % 16) (im / 16 % 4) (im / 64 % 4 + 1))

/-- The meaning of WBLD. -/
def execWbld (f : FmtP) (s : State) : Host.Outcome State Fault Refusal := meaning (.wbld f) none (wbldBody f) s

/-- WBINV. -/
def wbinvBody (f : FmtP) (s : State) (e : Eff) : Res := acceptUnit s e (.wbinv f.imm)

/-- The meaning of WBINV. -/
def execWbinv (f : FmtP) (s : State) : Host.Outcome State Fault Refusal := meaning (.wbinv f) none (wbinvBody f) s

/-- MLOAD. -/
def mloadBody (f : FmtP) (s : State) (e : Eff) : Res :=
  (s.plat2 f.p1.toNat fun t => t == 0x12 || t == 0x03).res fun l => acceptUnit s e (.mload (tileNo f.d) (s.rs f.a) l)

/-- The meaning of MLOAD. -/
def execMload (f : FmtP) (s : State) : Host.Outcome State Fault Refusal := meaning (.mload f) none (mloadBody f) s

/-- MDRAIN. -/
def mdrainBody (f : FmtP) (s : State) (e : Eff) : Res :=
  let t := f.ty.toNat
  (s.plat2 f.p1.toNat fun x => x == t).res fun l =>
    let r (i : Nat) : VReg := if t = 1 ∨ t = 5 then s.rv 0x03 (BitVec.ofNat 8 (opName f.b + i)) else 0
    acceptUnit s e (.mdrain (tileNo f.d) t (s.rs f.a) l (r 0) (r 1) (r 2) (r 3) (f.imm.extractLsb' 0 8))

/-- The meaning of MDRAIN. -/
def execMdrain (f : FmtP) (s : State) : Host.Outcome State Fault Refusal := meaning (.mdrain f) none (mdrainBody f) s

/-! ## The unit's work -/

/-- One element of MDRAIN (R196). -/
def drainElem (t x i j : Nat) (rows cols mult shift : VReg) (zout : BitVec 8) : Nat × Word :=
  match t with
  | 0x12 | 0x03 => (x, 0)
  | 0x10 => cvtFF 0x10 .rne (fval 0x12 x)
  | _ =>
    let u := sati 0x03 (tyInt 0x03 x + tyInt 0x03 (elem 0x03 rows i) + tyInt 0x03 (elem 0x03 cols j))
    let m := u.1 * tyInt 0x03 (elem 0x03 mult j)
    let sh := vbyte shift j % 64
    let v := roundToInt .rne (decide (m < 0)) m.natAbs (-((31 + sh : Nat) : Int))
    let y := sati t (v.1 + tyInt t zout.toNat)
    (wrapNat 8 y.1, u.2 ||| flagIf v.2 flagNX ||| y.2)

/-- The slots HELD on a tile whose pending count has reached 0 run again from the next ac (R122, R181). -/
def Core.releaseTile (c : Core) (t ac : Nat) : Core :=
  if c.pending t != 0 then c
  else { c with slots := c.slots.map fun u => if u.st == .held && u.wait == some (.tile t) then { u with st := .runnable, wait := none, wakeAt := ac + 1 } else u }

/-- An operation leaves the unit: it is no longer under way and its tile's count falls. -/
def Core.leaveUnit (c : Core) (k : UnitKind) (ac : Nat) : Core :=
  let c := { c.lockTile k false with mrun := none }
  match k.tile? with
  | some t => c.releaseTile t ac
  | none => c

/-- A unit operation's fault: it leaves the unit with no effect, and its thread faults (R180). -/
def State.unitFault (s : State) (c : Nat) (op : UnitOp) (f : FaultInfo) : State :=
  (((s.noteFault (.slot c op.slot) f).setCore c ((s.core c).leaveUnit op.kind s.ac)).as (.slot c op.slot)).raise f

/-- A unit operation's completion: its effect, and its thread runnable. -/
def State.unitDone (s : State) (c : Nat) (op : UnitOp) (e : Eff) : State :=
  ((s.setCore c ((s.core c).leaveUnit op.kind s.ac)).as (.slot c op.slot)).land e

/-- An operation of the unit goes on. -/
def State.unitGoes (s : State) (c : Nat) (op : UnitOp) : State := s.setCore c { s.core c with mrun := some op }

/-- MMA's checks of its weight slot and of its tile's tag (R183, R188), after a reload where one is due; a slot that has been reloaded stays
so when they fail (DESIGN CHOICE, log entry 63). -/
def State.mmaJudge (s : State) (c : Nat) (op : UnitOp) : State :=
  match op.kind with
  | .mma t _ _ sl panel ty m =>
    let x := s.core c
    if !(x.wslot sl).accepted ty panel then s.unitFault c op (flt .tileType 7)
    else if !m.getLsbD 3 && (x.tags.getLsbD t != (ty == 0x01)) then s.unitFault c op (flt .tileType 1)
    else s
  | _ => s

/-- MATRIX_OP_BEGIN: the next accepted operation begins once the unit is free, so that no two overlap (DESIGN CHOICE, log entry 63);
the checks that MMA and MDRAIN make then (R188, R195), an MMA whose slot is to be reloaded when it has been (R182). -/
def execMatrixOpBegin (c : Nat) (s : State) : Host.Outcome State Fault Refusal :=
  answer <|
    let x := s.core c
    match x.mrun, x.mq with
    | none, op :: ops =>
      if !s.condsDone op.conds then s
      else
        let ts := s.afterConds op.pts op.conds
        let op := { op with pts := ts }
        let s := s.setCore c { x with mq := ops, mrun := some op }
        match op.kind with
        | .mma _ _ _ sl _ _ _ => if (x.wslot sl).reload then s else s.mmaJudge c op
        | .mdrain t ty _ _ _ _ _ _ _ =>
          if x.tags.getLsbD t != (ty == 0x03 || ty == 0x01 || ty == 0x05) then s.unitFault c op (flt .tileType 1) else s
        | _ => s
    | _, _ => s

/-- The line of a place, for grouping. -/
def Loc.lineKey : Loc → Nat × Nat
  | .mem pa => (0, pa / 64)
  | .scr c off => (c + 1, off / 64)

/-- Writes grouped by their lines, in the order in which the lines are first met. -/
def groupWrites : List UnitWrite → List (List UnitWrite) → List (List UnitWrite)
  | [], g => g
  | x :: xs, g =>
    let here (y : List UnitWrite) : Bool := (y.head?.map fun z => z.loc.lineKey) == some x.loc.lineKey
    if g.any here then groupWrites xs (g.map fun y => if here y then y ++ [x] else y) else groupWrites xs (g ++ [[x]])

/-- The elements that a drain makes of a tile, with their flags. -/
def drained32 (x : BitVec 32768) (t : Nat) (rows cols mult shift : VReg) (zout : BitVec 8) : List (Nat × Word) :=
  (List.range 1024).map fun n => drainElem t (tileGet x n) (n / 32) (n % 32) rows cols mult shift zout

/-- The lines that a drain is to write (R196), each element of the block inside the plat in plat order; checked the first time (R180). -/
def State.drainLines (s : State) (c : Nat) (op : UnitOp) (p : Plat) (org : Word) (ys : List (Nat × Word)) : Chk (State × List (List UnitWrite)) :=
  match op.left with
  | some l => .ok (s, l)
  | none =>
    let o := origin2 org
    let us := ys.zipIdx.filterMap fun y =>
      let x := [o.1 + y.2 % 32, o.2 + y.2 / 32, 0, 0]
      if p.inside x then some (p.unit x y.1.1) else none
    (s.reachUnits c op.slot us).bind fun r => .ok (r.1, groupWrites r.2 [])

/-- A column read of those that a weight slot takes, as WBLD and a reload read them (R182, R190). -/
def State.readColumn (s : State) (c : Nat) (op : UnitOp) (l : Line) (org : Word) (n : Nat) : Chk (State × UnitOp × Nat) :=
  let p := platOf l
  let o := origin2 org
  let col := op.got.length / (n * unitK p.ty)
  (s.platBoth c op.slot p op.pts (panelColumn p o.1 o.2 n col)).bind fun r =>
    .ok (r.1, { op with got := op.got ++ r.2.1, scs := op.scs ++ r.2.2.1, mark := max op.mark r.2.2.2 }, col)

/-- MATRIX_OP_COMPLETION: the operation under way goes on, or takes its effect. An MLOAD reads a row, a WBLD or a reload a column and an MDRAIN
writes a line at a time, the line as the environment picks it (R197), with their effect on the unit at the last (DESIGN
CHOICE, log entry 63). -/
def execMatrixOpCompletion (c : Nat) (s : State) : Host.Outcome State Fault Refusal :=
  answer <|
    let x := s.core c
    match x.mrun with
    | none => s
    | some op =>
      match op.kind with
      | .mma t a sc sl panel ty m =>
        let w := x.wslot sl
        if w.reload then
          match s.readColumn c op w.plat w.origin w.count with
          | .ok (s, op, col) =>
            if col < 31 then s.unitGoes c op
            else
              let q := loadedSlot w.plat w.platNo w.origin w.first w.count op.got op.scs
              let op := { op with got := [], scs := [] }
              ((s.setCore c ((s.core c).setWslot sl q.1)).unitGoes c op).mmaJudge c op
          | .bad f => s.unitFault c op f
          | .wait _ => s
        else
        let r := mmaTile (x.tile t) a.toNat sc.toNat (x.wslot sl) panel ty m
        (s.setCore c ((x.setTile t r.1 (ty == 0x01)).count 9 op.slot)).unitDone c op
          { op.eff with sticky := op.eff.sticky ||| r.2, pts := max op.eff.pts op.mark }
      | .wbld d org no l sl f n =>
        match s.readColumn c op l org n with
        | .ok (s, op, col) =>
          if col < 31 then s.unitGoes c op
          else
            let q := loadedSlot l no org f n op.got op.scs
            (s.setCore c ((s.core c).setWslot sl q.1)).unitDone c op
              { op.eff with writes := op.eff.writes ++ wrS d (BitVec.ofNat 64 q.2), pts := max op.eff.pts op.mark }
        | .bad f => s.unitFault c op f
        | .wait _ => s
      | .wbinv mask =>
        let x := (List.range 16).foldl (fun x i => if mask.getLsbD i then x.setWslot i {} else x) x
        (s.setCore c x).unitDone c op op.eff
      | .mload t org l =>
        let p := platOf l
        let o := origin2 org
        let row := op.got.length / 32
        match s.platReads c op.slot p op.pts ((List.range 32).map fun n => [o.1 + n, o.2 + row, 0, 0]) with
        | .ok r =>
          let op := { op with got := op.got ++ r.2.1, mark := max op.mark r.2.2 }
          if row < 31 then r.1.unitGoes c op
          else (r.1.setCore c ((r.1.core c).setTile t (tileOf op.got) (p.ty == 0x03))).unitDone c op { op.eff with pts := max op.eff.pts op.mark }
        | .bad f => s.unitFault c op f
        | .wait _ => s
      | .mdrain t ty org l rows cols mult shift zout =>
        let p := platOf l
        let ys := drained32 (x.tile t) ty rows cols mult shift zout
        match s.drainLines c op p org ys with
        | .ok r =>
          let i := s.env.pick.headD 0 % (if r.2.isEmpty then 1 else r.2.length)
          let line := (r.2[i]?).getD []
          if !line.all fun x => s.placeReady (devOf c) x.loc then s
          else
            let w := r.1.popPick.writeUnits p op.pts line
            let op := { op with left := some (dropAt r.2 i), mark := max op.mark w.2 }
            let y := w.1.core c
            let s := w.1.setCore c { y with mmark := max y.mmark w.2 }
            if 1 < r.2.length then s.unitGoes c op
            else
              (s.setCore c ((s.core c).noteFence (fun x => match x with
                  | .matrix c' n => c' == c && decide (op.num ≤ n)
                  | _ => false) op.mark)).unitDone c op
                { op.eff with sticky := op.eff.sticky ||| orFlags (ys.map (·.2)), pts := max op.eff.pts op.mark }
        | .bad f => s.unitFault c op f
        | .wait _ => s

end Sys2Proof.Machine
end

