-- ==== Sys2Proof/Machine/Pair.lean ====
section
/-! DEFINITION. The issue of a pair (R77): both instructions read at issue, both complete together. -/

namespace Sys2Proof.Machine

/-- The effect of an instruction that may stand in a pair, as the bundle of two slots makes it; none for any other. -/
def pairBody (i : Instr) : Option (State → Eff → Res) :=
  match i with
  | .nop f => some (nopBody f)
  | .br f => some (brBody f 2)
  | .call f => some (callBody f 2)
  | .brc f => some (brcBody f 2)
  | .dbnz f => some (dbnzBody f 2)
  | .brx f => some (brxBody f 2)
  | .jmp f => some (jmpBody f 2)
  | .add f => some (addBody f)
  | .sub f => some (subBody f)
  | .mul f => some (mulBody f)
  | .mulh f => some (mulhBody f)
  | .madd f => some (maddBody f)
  | .div f => some (divBody f)
  | .rem f => some (remBody f)
  | .and f => some (andBody f)
  | .or f => some (orBody f)
  | .xor f => some (xorBody f)
  | .shl f => some (shlBody f)
  | .shr f => some (shrBody f)
  | .sar f => some (sarBody f)
  | .rol f => some (rolBody f)
  | .min f => some (minBody f)
  | .max f => some (maxBody f)
  | .sel f => some (selBody f)
  | .cmp f => some (cmpBody f)
  | .lea f => some (leaBody f)
  | .addi f => some (addiBody f)
  | .andi f => some (andiBody f)
  | .ori f => some (oriBody f)
  | .xori f => some (xoriBody f)
  | .shli f => some (shliBody f)
  | .shri f => some (shriBody f)
  | .sari f => some (sariBody f)
  | .cmpi f => some (cmpiBody f)
  | .li f => some (liBody f)
  | .lih f => some (lihBody f)
  | .addpc f => some (addpcBody f)
  | .clz f => some (clzBody f)
  | .ctz f => some (ctzBody f)
  | .popc f => some (popcBody f)
  | .bswap f => some (bswapBody f)
  | .bfx f => some (bfxBody f)
  | .bfi f => some (bfiBody f)
  | .abs f => some (absBody f)
  | .ext f => some (extBody f)
  | .vadd f => some (vaddBody f)
  | .vsub f => some (vsubBody f)
  | .vmul f => some (vmulBody f)
  | .vfma f => some (vfmaBody f)
  | .vmin f => some (vminBody f)
  | .vmax f => some (vmaxBody f)
  | .vabs f => some (vabsBody f)
  | .vand f => some (vandBody f)
  | .vor f => some (vorBody f)
  | .vxor f => some (vxorBody f)
  | .vshl f => some (vshlBody f)
  | .vshr f => some (vshrBody f)
  | .vsar f => some (vsarBody f)
  | .vsel f => some (vselBody f)
  | .vclamp f => some (vclampBody f)
  | .vcmp f => some (vcmpBody f)
  | .vcvt f => some (vcvtBody f)
  | .vsplit f => some (vsplitBody f)
  | .vqnt f => some (vqntBody f)
  | .vdqnt f => some (vdqntBody f)
  | .vlmul f => some (vlmulBody f)
  | .vlacc f => some (vlaccBody f)
  | .vdot f => some (vdotBody f)
  | .baddq f => some (baddqBody f)
  | .vsplat f => some (vsplatBody f)
  | .vins f => some (vinsBody f)
  | .vext f => some (vextBody f)
  | .viota f => some (viotaBody f)
  | .vperm f => some (vpermBody f)
  | .vmov f => some (vmovBody f)
  | .vred f => some (vredBody f)
  | .vscan f => some (vscanBody f)
  | .plt f => some (pltBody f)
  | .pset f => some (psetBody f)
  | .pand f => some (pandBody f)
  | .por f => some (porBody f)
  | .pxor f => some (pxorBody f)
  | .pnot f => some (pnotBody f)
  | .pcnt f => some (pcntBody f)
  | .pfirst f => some (pfirstBody f)
  | _ => none

/-- The effects of both completed together: the first's, then the second's; a register that both read is emptied or popped
once, and one that the first writes is emptied by the second's take. -/
def pairEff (pc : Word) (x y : Eff) : Eff :=
  let wrote (e : Eff) (r : Nat) : Bool := (e.writes.filterMap Wr.reg?).contains r
  { takes := x.takes, pops := x.pops ++ y.pops.filter (fun r => !x.pops.contains r), writes := x.writes ++ y.writes,
    late := y.takes.filter (fun r => !wrote y r && (!x.takes.contains r || wrote x r)),
    sticky := x.sticky ||| y.sticky, pts := max x.pts y.pts, pc := some (x.pc.getD (succPc pc 2)),
    seen := x.seen ++ y.seen, wdest := x.wdest ++ y.wdest,
    early := x.takes.filter fun r => wrote y r && !wrote x r && !y.takes.contains r, taken := x.taken }

/-- A fault of the second instruction. -/
def FaultInfo.ofSecond (f : FaultInfo) : FaultInfo := { f with second := true }

/-- An instruction of a pair checked, its operands read, and its effect computed; the take sources `prior` of the first count as empty
for the second's W. -/
def State.pairHalf (s : State) (i : Instr) (prior : List Nat) : Chk (State × Eff) :=
  match s.precheck i with
  | some f => .bad f
  | none =>
    (s.prepare (usesOf i s.thread.ety s.part.vw s.isSys) prior).bind fun p =>
      match pairBody i with
      | none => .bad (stepFault .badPair 4 0)
      | some body =>
        match body p.1 p.2 with
        | .fault f => .bad f
        | .park w => .wait w
        | .done s e => .ok (s, e)
        | .sent _ w => .wait w

/-- A pair runs in the current thread; a fault of the second undoes the first but for what its target's fetch corrected (R64). -/
def State.runPair (s : State) (a b : Instr) : State :=
  match s.pairHalf a [] with
  | .bad f => s.fail f
  | .wait w => s.parkOn w
  | .ok (s1, e1) =>
    match s1.pairHalf b e1.takes with
    | .bad f => (s1.setThread s.thread).fail f.ofSecond
    | .wait w => s.parkOn w
    | .ok (s2, e2) => s2.finish none s.thread.pts (pairEff s.thread.pc e1 e2)

/-- A pair whose second instruction has no assigned OP and SUB: the first's faults and parks come before that fault (R77, R82). -/
def State.runBadPair (s : State) (a : Instr) : State :=
  match s.pairHalf a [] with
  | .bad f => s.fail f
  | .wait w => s.parkOn w
  | .ok (s1, _) => (s1.setThread s.thread).raise (stepFault .illegalOp 5 0).ofSecond

end Sys2Proof.Machine
end

