-- ==== Sys2Proof/Machine/Copy.lean ====
section
/-! DEFINITION. The copy engine (R219-R225, R420): its commands, chains, faults, and the instructions of OP 0x68. -/

namespace Sys2Proof.Machine

/-! ## Remote fills (R119) -/

/-- A remote fill of register `r` of slot `k` of core `c`: refused (none) while its holder is occupied; one that reaches an
IDLE slot is discarded and counted. -/
def State.fillReg (s : State) (c k r : Nat) (x : VReg) (ts : Nat) : Option State :=
  let t := s.slot c k
  if t.st = .idle then some (s.setCore c ((s.core c).addFixed 12 1))
  else (t.remoteFill r (if r < 64 then x else s.vmask x) ts).map fun t => s.setSlot c k t

/-! ## A command and its chunks (R219, R220, R224) -/

/-- Every list of coordinates of four dimensions, c0 fastest (R335). -/
def coords (d : Nat → Nat) : List (List Nat) :=
  (List.range (d 3)).flatMap fun c3 => (List.range (d 2)).flatMap fun c2 => (List.range (d 1)).flatMap fun c1 =>
    (List.range (d 0)).map fun c0 => [c0, c1, c2, c3]

/-- Coordinates moved by an origin on dimensions 0 and 1 (R220). -/
def shift2 (x : List Nat) (o : Word) : List Nat :=
  let p := origin2 o
  [x.getD 0 0 + p.1, x.getD 1 0 + p.2, x.getD 2 0, x.getD 3 0]

/-- What a CPY or MCAST copies: each coordinate of the source that lands inside the destination, then its scale when both
plats have blocks (R420). -/
def CopyCmd.items (m : CopyCmd) : List CopyItem :=
  let p := platOf m.src
  let q := platOf m.dst
  let xs := ((coords p.dimOf).map fun x => (shift2 x m.aval, shift2 x m.bval)).filter fun y => q.inside y.2
  let es := xs.map fun y => { scale := false, src := y.1, dst := y.2 }
  if p.block = 8 ∧ q.block = 8 then es ++ xs.map fun y => { scale := true, src := y.1, dst := y.2 } else es

/-- The address an item is written at. -/
def CopyCmd.at (m : CopyCmd) (i : CopyItem) : Nat :=
  let q := platOf m.dst
  if i.scale then q.scaleLoc i.dst else (q.loc i.dst).1

/-- Items grouped by destination line, in the order the lines are first reached. -/
def groupLines (at_ : CopyItem → Nat) : List CopyItem → List (Nat × List CopyItem) → List (Nat × List CopyItem)
  | [], g => g
  | i :: is, g =>
    let ln := at_ i / 64
    if g.any fun x => x.1 == ln then groupLines at_ is (g.map fun x => if x.1 == ln then (ln, x.2 ++ [i]) else x)
    else groupLines at_ is (g ++ [(ln, [i])])

/-- RFILL's target: core, slot, register (R222). -/
def CopyCmd.fillTarget (m : CopyCmd) : Nat × Nat × Nat :=
  let b := m.bval.toNat
  (b % 2 ^ 20, b / 2 ^ 20 % 16, b / 2 ^ 24 % 128)

/-- What an RFILL reads: one element for a g register, or as many along dimension 0 as a vector of `vw` bits has (R222). -/
def CopyCmd.fillItems (m : CopyCmd) (vw : Nat) : List CopyItem :=
  let o := origin2 m.aval
  (List.range (if m.fillTarget.2.2 < 64 then 1 else lanes vw (platOf m.src).ty)).map fun i => { scale := false, src := [o.1 + i, o.2, 0, 0], dst := [] }

/-- The chunks of a command started by an engine of core `c`, where a vector has `vw` bits. -/
def CopyCmd.chunks (m : CopyCmd) (c vw : Nat) : List Chunk :=
  match m.kind with
  | 0 => (groupLines m.at m.items []).map fun g => { target := none, items := g.2 }
  | 1 => ((List.range 8).filter fun i => m.imm.testBit i).filterMap fun i =>
      ((coresOf (foldOf c))[i]?).map fun _ => { target := some i, items := m.items }
  | _ => [{ target := none, items := m.fillItems vw }]

/-- Items read in order at the command's clock: the state, the data and the greatest write timestamp. -/
def State.copyRead (s : State) (c : Nat) (m : CopyCmd) : List CopyItem → Chk (State × List Nat × Nat)
  | [] => .ok (s, [], 0)
  | i :: is =>
    (if i.scale then s.platScale c m.slot (platOf m.src) i.src m.pts 0 else s.platRead c m.slot (platOf m.src) i.src m.pts 0).bind fun r =>
      (State.copyRead r.1 c m is).bind fun q => .ok (q.1, r.2.1 :: q.2.1, max r.2.2 q.2.2)

/-- Where a chunk's item is written: at its address, or at that offset of a target's kernel pages (R221). -/
def State.copyReach (s : State) (c : Nat) (m : CopyCmd) (t : Option Nat) (va n : Nat) : State × Chk Loc :=
  match t with
  | none => s.pathReach c m.slot va n .pathWrite
  | some i =>
    let t := ((coresOf (foldOf c))[i]?).getD c
    if va < winBase ∨ winBase + 2 ^ 22 ≤ va then (s, .bad (flt .prot 0 6 va))
    else
      match s.apertureLoc (s.core c).launch t (va - winBase) .pathWrite va with
      | .wait (.page c' p) =>
        let s := s.setCore c' ((s.core c').pin p)
        (s, s.apertureLoc (s.core c).launch t (va - winBase) .pathWrite va)
      | .ok (.scr c' off) => (s.setCore c' ((s.core c').touch (off / 4096)), .ok (.scr c' off))
      | r => (s, r)

/-- Where units of a chunk are written, every check passed, and the state with the pages and translations that took. -/
def State.copyReaches (s : State) (c : Nat) (m : CopyCmd) (t : Option Nat) : List PlatUnit → Chk (State × List UnitWrite)
  | [] => .ok (s, [])
  | u :: us =>
    let r := s.copyReach c m t u.va u.n
    r.2.bind fun q => (State.copyReaches r.1 c m t us).bind fun y =>
      .ok (y.1, { loc := q, n := u.n, shift := u.shift, width := u.width, v := u.v } :: y.2)

/-- The unit that an item writes once it is read. -/
def CopyCmd.unit (m : CopyCmd) (i : CopyItem) : PlatUnit :=
  let q := platOf m.dst
  if i.scale then q.scaleUnit i.dst (i.val.getD 0) else q.unit i.dst (i.val.getD 0)

/-! ## The completion word and the sequence number (R219) -/

/-- The greatest timestamp of the last completion. -/
def Core.lastE (c : Core) : Nat := (c.emarks.head?.map (·.2)).getD 0

/-- The issuing core's L1 copy of a line that its engine wrote brought up to date (R203). -/
def State.refreshL1 (s : State) (c : Nat) (l : Loc) : State :=
  match l with
  | .scr _ _ => s
  | .mem pa =>
    let ln := pa / 64
    let k := s.l1Core c ln
    let x := s.core k
    if (l1Find x.l1 ln).isSome then
      s.setCore k { x with l1 := l1Put x.l1 ⟨ln, s.lineAt ln, (s.tsAt l).1, (s.tsAt l).2⟩ }
    else s

/-- The completion word stored above `mark`: the state and the greatest timestamp. -/
def State.copyWord (s : State) (c : Nat) (m : CopyCmd) (mark : Nat) : Chk (State × Nat) :=
  match m.word with
  | none => .ok (s, mark)
  | some (a, v) =>
    if a.toNat % 8 != 0 then .bad (flt .align 0 6 a.toNat)
    else
      let r := s.pathReach c m.slot a.toNat 8 .pathWrite
      r.2.bind fun l =>
        let q := r.1.homeWrite l 8 v.toNat (max m.pts (mark + 1)) true
        .ok (q.1.refreshL1 c l, max mark q.2)

/-- The 256 copy trackers given to the chunks of commands in order of acceptance (R198). -/
def sendAll : Nat → List CopyRun → List CopyRun
  | _, [] => []
  | n, r :: rs => let k := min n r.chunks.length; { r with sent := k } :: sendAll (n - k) rs

/-- A core whose commands under way hold the trackers that they can. -/
def Core.grant (c : Core) : Core :=
  match c.crun with
  | some r => { c with crun := (sendAll 256 (r :: c.cover)).head?, cover := (sendAll 256 (r :: c.cover)).tail }
  | none => { c with cover := sendAll 256 c.cover }

/-- With no command or walk before it, the first of the later commands under way is the one that completes next. -/
def Core.promote (c : Core) : Core :=
  Core.grant (if c.crun.isNone && c.cwalk.isNone then { c with crun := c.cover.head?, cover := c.cover.tail } else c)

/-- A completion recorded: the sequence number raised, E kept, and the next command in order of acceptance takes its place. -/
def State.copyRetire (s : State) (c e : Nat) : State :=
  let x := s.core c
  let i := (x.crun.map (·.cmd.core)).getD c
  let k := match x.crun with
    | some r => r.cmd.slot
    | none => (x.cwalk.map (·.slot)).getD 0
  let s := s.setCore c { x with eseq := x.eseq + 1, emarks := (x.eseq + 1, max x.lastE e) :: x.emarks, crun := none,
                                cwalk := if (x.crun.map (·.walk)).getD true then x.cwalk.map fun w => { w with fresh := false } else x.cwalk }
  let s := s.setCore c ((s.core c).promote.count 10 k)
  let y := match x.crun with
    | some r => (s.core i).noteFence (fun x => match x with
        | .copy i' n => i' == i && decide (r.cmd.num ≤ n)
        | _ => false) e
    | none => s.core i
  s.setCore i { y with cmark := max y.cmark e }

/-! ## Progress of the command under way -/

/-- What an RFILL's target refuses, or its request waits for (R222). -/
def State.fillWay (s : State) (c : Nat) (m : CopyCmd) : Chk Unit :=
  let t := m.fillTarget
  if !(s.isCompute t.1 || s.isGateway t.1) then .bad (flt .prot 0 6)
  else if ((s.slot t.1 t.2.1).port t.2.2).isSome then .bad (flt .port)
  else s.wayTo (devOf c) (devOf t.1) (flt .prot 0 6)

/-- RFILL's fill made of what it has read: the state and the mark above which the completion word is written; it waits while its target's
holder is occupied. Where the word faults, E is not known, and the fill carries the mark (DEDUCED, log entry 80). -/
def State.copyFill (s : State) (c : Nat) (r : CopyRun) (vs : List Nat) : Chk (State × Nat) :=
  let m := r.cmd
  let t := m.fillTarget
  let mark := max (s.core c).lastE (max m.pts r.readMark)
  let e := match s.copyWord c m mark with
    | .ok q => q.2
    | _ => mark
  match s.fillReg t.1 t.2.1 t.2.2 (portValue t.2.2 (platOf m.src).ty vs) e with
  | some s => .ok (s, mark)
  | none => .wait .reply

/-- The run with chunk `i` written, which is the end of it. -/
def CopyRun.written (r : CopyRun) (i w : Nat) : CopyRun :=
  { r with chunks := dropAt r.chunks i, doneChunks := r.doneChunks + 1, mark := max r.mark w }

/-- What a chunk may do next: read a source line, or write a destination line that has been read. -/
inductive CopyAct where
  | read (ln : Nat)
  | write (ln : Nat)
  deriving DecidableEq, Repr, Inhabited

/-- The line that an item is read from; of one outside the source, which is read nowhere, 0. -/
def CopyCmd.from (m : CopyCmd) (i : CopyItem) : Nat :=
  let p := platOf m.src
  if !p.inside i.src then 0 else (if i.scale then p.scaleLoc i.src else (p.loc i.src).1) / 64

/-- The lines that a chunk may read or write next. -/
def Chunk.acts (m : CopyCmd) (ch : Chunk) : List CopyAct :=
  let left := ch.items.filter (·.val.isNone)
  let outs := if m.kind = 2 then [] else (ch.items.map fun i => m.at i / 64).eraseDups
  (left.map m.from).eraseDups.map .read ++ (outs.filter fun ln => left.all fun i => m.at i / 64 != ln).map .write

/-- A chunk with what was read of these items. -/
def Chunk.fill (vs : List (CopyItem × Nat)) (ch : Chunk) : Chunk :=
  { ch with items := ch.items.map fun i =>
      if i.val.isSome then i
      else match vs.find? fun x => x.1.scale == i.scale && x.1.src == i.src with
        | some x => { i with val := some x.2 }
        | none => i }

/-- A source line read for chunk `i`; an MCAST reads it once for every target (R221). -/
def CopyRun.filled (r : CopyRun) (i : Nat) (vs : List (CopyItem × Nat)) (ts : Nat) : CopyRun :=
  { r with chunks := if r.cmd.kind = 1 then r.chunks.map (Chunk.fill vs) else r.chunks.modify i (Chunk.fill vs), readMark := max r.readMark ts }

/-- Chunk `i` of a command under way goes on by one line, read or written whole as the environment picks it (R206, R224; log entry 40); an
RFILL that has read all of its elements is made. -/
def State.copyStep (s : State) (c : Nat) (r : CopyRun) (i : Nat) : Chk (State × CopyRun) :=
  let m := r.cmd
  match r.chunks[i]? with
  | none => .ok (s, r)
  | some ch =>
    let acts := ch.acts m
    (if m.kind = 2 then s.fillWay c m else .ok ()).bind fun _ =>
    match acts[s.env.pick.headD 0 % (if acts.isEmpty then 1 else acts.length)]? with
    | none =>
      if m.kind = 2 then (s.copyFill c r (ch.items.map fun i => i.val.getD 0)).bind fun q => .ok (q.1, r.written i q.2)
      else .ok (s, r.written i 0)
    | some (.read ln) =>
      let is := ch.items.filter fun x => x.val.isNone && m.from x == ln
      (s.popPick.copyRead c m is).bind fun d => .ok (d.1, r.filled i (is.zip d.2.1) d.2.2)
    | some (.write ln) =>
      let is := ch.items.partition fun x => m.at x / 64 == ln
      (s.popPick.copyReaches c m ch.target (is.1.map m.unit)).bind fun q =>
        let w := q.1.writeUnits (platOf m.dst) m.pts q.2
        .ok (w.1, if is.2.isEmpty then r.written i w.2
          else { r with chunks := r.chunks.set i { ch with items := is.2 }, mark := max r.mark w.2 })

/-- What a core's engine may do next: go on with a requested chunk of the command that completes next (or complete it), or with one of
a later command, named by its place among those. An RFILL of a later command waits for its turn, since its fill carries E. -/
def Core.copyMoves (x : Core) : List (Option Nat × Nat) :=
  (match x.crun with
   | some r => (List.range (if r.chunks.isEmpty then 1 else r.sent)).map fun i => (none, i)
   | none => [])
    ++ x.cover.zipIdx.flatMap fun y => if y.1.cmd.kind = 2 then [] else (List.range y.1.sent).map fun i => (some y.2, i)

/-- Which of them it does: the environment chooses (R219, R224; log entry 5). -/
def State.copyMove (s : State) (c : Nat) : Option (Option Nat × Nat) :=
  let l := (s.core c).copyMoves
  l[s.env.pick.headD 0 % (if l.isEmpty then 1 else l.length)]?

/-- The end of a command all of whose chunks are made: its completion word, and the sequence number rises (R219). -/
def State.copyEnd (s : State) (c : Nat) (r : CopyRun) : State :=
  match s.copyWord c r.cmd r.mark with
  | .ok w => w.1.copyRetire c w.2
  | _ => s

/-- COPY_COMMAND_COMPLETION: the engine goes on with a chunk of a command under way, or the oldest, with none left, completes; an RFILL
completes as it fills, since its fill carries the completion's timestamp (R119). It stands where a chunk faults. -/
def execCopyCommandCompletion (c : Nat) (s : State) : Host.Outcome State Fault Refusal :=
  answer <|
    let x := s.core c
    if x.chalted then s
    else
      match s.copyMove c, x.crun with
      | some (none, i), some r =>
        if r.chunks.isEmpty then s.popPick.copyEnd c r
        else
          match s.popPick.copyStep c r i with
          | .ok q =>
            let s := q.1.setCore c (Core.grant { q.1.core c with crun := some q.2 })
            if r.cmd.kind = 2 && q.2.chunks.isEmpty then s.copyEnd c q.2 else s
          | _ => s
      | some (some j, i), _ =>
        match (x.cover[j]?).map fun r => s.popPick.copyStep c r i with
        | some (.ok q) => q.1.setCore c (Core.grant { q.1.core c with cover := x.cover.set j q.2 })
        | _ => s.popPick
      | _, _ => s

/-! ## Starting entries, and chains (R223) -/

/-- The plat records of a command and the checks of R220 to R222 on them: kind, plat numbers, origins, the target. -/
def State.buildCopy (s : State) (c kind p1 p2 : Nat) (a b : Word) : Except FaultInfo (Line × Line) :=
  let bad (n : Nat) : Except FaultInfo (Line × Line) := .error (flt .illegalOperand n)
  match s.platEntry c p1 with
  | none => bad 5
  | some l =>
    let p := platOf l
    if p.rank = 1 ∧ (origin2 a).2 ≠ 0 then bad 2
    else if kind = 2 then
      (if 2 ^ 31 ≤ b.toNat ∨ 96 ≤ b.toNat / 2 ^ 24 % 128 then bad 3 else .ok (l, 0))
    else
      match s.platEntry c p2 with
      | none => bad 6
      | some k =>
        let q := platOf k
        if p.ty ≠ q.ty then bad 6
        else if q.rank = 1 ∧ (origin2 b).2 ≠ 0 then bad 3
        else if kind = 1 ∧ (q.base.toNat < winBase ∨ winBase + 2 ^ 22 ≤ q.base.toNat) then bad 6
        else .ok (l, k)

/-- The run of a command, its clock raised above the work it waited for (R226). -/
def State.runOf (s : State) (c : Nat) (m : CopyCmd) (walk : Bool) : CopyRun :=
  let m := { m with pts := s.afterConds m.pts m.conds }
  { cmd := m, chunks := m.chunks c s.part.vw, doneChunks := 0, mark := 0, walk := walk }

/-- What the commons remembers of a record appended in this engine's address space. -/
def State.chainRec (s : State) (c : Nat) (w : Walk) : ChainRec :=
  (s.chain.find? fun r => r.space == s.space (.slot c w.slot) && r.va == w.atRec).getD
    { space := s.space (.slot c w.slot), va := w.atRec, core := c, num := 0, slot := w.slot, pc := w.pc, pts := w.pts, conds := [] }

/-- The commons no longer remembers a record. -/
def State.forget (s : State) (space : Nat) (va : Word) : State :=
  { s with chain := s.chain.filter fun y => !(y.space == space && y.va == va) }

/-- A record appended by a CPYC remembered. -/
def State.remember (s : State) (r : ChainRec) : State :=
  let s := s.forget r.space r.va
  { s with chain := s.chain ++ [r] }

/-- The 64-byte record of a walk read at its clock and made a command. -/
def State.readRecord (s : State) (c : Nat) (w : Walk) : Chk (State × CopyCmd) :=
  let r := s.chainRec c w
  (s.pathRead c w.slot w.atRec.toNat 64 (s.afterConds r.pts r.conds) true).bind fun q =>
    let kind := recField q.2.1 8 1
    let a := BitVec.ofNat 64 (recField q.2.1 16 8)
    let b := BitVec.ofNat 64 (recField q.2.1 24 8)
    let caddr := BitVec.ofNat 64 (recField q.2.1 32 8)
    let imm := recField q.2.1 14 2
    if 2 < kind then .bad (flt .illegalOp)
    else if caddr.toNat % 8 != 0 then .bad (flt .align 0 6 caddr.toNat)
    else
      match s.buildCopy c kind (recField q.2.1 10 2) (recField q.2.1 12 2) a b with
      | .error f => .bad f
      | .ok l => .ok (q.1, { kind := kind, core := r.core, num := r.num, slot := r.slot, pc := r.pc, src := l.1, dst := l.2, aval := a, bval := b, imm := imm,
                             word := if caddr = 0 then none else some (caddr, BitVec.ofNat 64 (recField q.2.1 40 8)), pts := r.pts, conds := r.conds })

/-- The record a walk is at started. -/
def State.startRecord (s : State) (c : Nat) (w : Walk) : Chk State :=
  let r := s.chainRec c w
  if !s.condsDone r.conds then .wait .reply
  else
    (s.readRecord c w).bind fun q =>
      let s := q.1.forget r.space r.va
      .ok (s.setCore c (Core.grant { s.core c with crun := some (s.runOf c q.2 true) }))

/-- A walk at the head of the queue begun: its HEAD read. -/
def State.startWalk (s : State) (c : Nat) (desc : Word) (slot : Nat) (pc : Word) (pts : Nat) (rest : List CopyEntry) : Chk State :=
  (s.pathRead c slot desc.toNat 8 pts true).bind fun q =>
    .ok (q.1.setCore c { q.1.core c with cq := rest, cwalk := some { desc := desc, atRec := BitVec.ofNat 64 q.2.1, fresh := true, slot := slot, pc := pc, pts := pts } })

/-- A command at the head of the queue started behind those under way, whose data it overlaps (R219). -/
def State.startBehind (s : State) (c : Nat) : State :=
  let x := s.core c
  match x.cq with
  | .cmd m :: rest => if s.condsDone m.conds then s.setCore c (Core.grant { x with cq := rest, cover := x.cover ++ [s.runOf c m false] }) else s
  | _ => s

/-- What an engine starts next. -/
def State.copyStart (s : State) (c : Nat) : Chk State :=
  let x := s.core c
  match x.crun, x.cwalk with
  | none, some w => if w.fresh then s.startRecord c w else .ok (s.startBehind c)
  | some _, _ => .ok (s.startBehind c)
  | none, none =>
    match x.cq with
    | [] => .ok s
    | .cmd m :: rest =>
      if s.condsDone m.conds then .ok (s.setCore c (Core.grant { x with cq := rest, crun := some (s.runOf c m false) })) else .ok s
    | .walk desc slot pc pts conds :: rest =>
      if s.condsDone conds then s.startWalk c desc slot pc (s.afterConds pts conds) rest else .ok s

/-- COPY_COMMAND_START: the next entry, or the record of a walk, is started; a command also behind those under way. -/
def execCopyCommandStart (c : Nat) (s : State) : Host.Outcome State Fault Refusal :=
  answer <|
    let x := s.core c
    if x.chalted then s
    else
      match s.copyStart c with
      | .ok s => s
      | _ => s

/-- The question a walk asks its descriptor's home after a record has completed: the walk ends, or NEXT follows. -/
def State.walkAsk (s : State) (c : Nat) (w : Walk) : Chk State :=
  let ts := max w.pts (s.core c).lastE
  (s.pathRead c w.slot (w.desc.toNat + 8) 8 ts true).bind fun t =>
    if t.2.1 = w.atRec.toNat then
      (t.1.pathWrite c w.slot (w.desc.toNat + 16) 8 0 ts true).bind fun q =>
        let y := q.1.core c
        .ok (q.1.setCore c (Core.promote { y with cwalk := none, cmark := max y.cmark q.2 }))
    else
      (t.1.pathRead c w.slot w.atRec.toNat 8 ts true).bind fun n =>
        .ok (n.1.setCore c { n.1.core c with cwalk := some { w with atRec := BitVec.ofNat 64 n.2.1, fresh := true } })

/-- CHAIN_WALK_STEP. -/
def execChainWalkStep (c : Nat) (s : State) : Host.Outcome State Fault Refusal :=
  answer <|
    let x := s.core c
    match x.cwalk with
    | some w =>
      if x.chalted || x.crun.isSome || w.fresh then s
      else match s.walkAsk c w with
        | .ok s => s
        | _ => s
    | none => s

/-! ## Faults of the engine (R224) -/

/-- The fault of a check. -/
def Chk.fault? {α : Type} : Chk α → Option FaultInfo
  | .bad f => some f
  | _ => none

/-- The fault that the engine of a core stands at, with the issuing slot, PC and clock of the work and the chunks done. -/
def State.copyFault (s : State) (c : Nat) : Option (FaultInfo × Nat × Word × Nat × Nat) :=
  let x := s.core c
  match x.crun with
  | some r =>
    let f := if r.chunks.isEmpty then (s.copyWord c r.cmd r.mark).fault?
      else match s.copyMove c with
        | some (none, i) => (s.popPick.copyStep c r i).fault?
        | _ => none
    f.map fun f => (f, r.cmd.slot, r.cmd.pc, max r.cmd.pts r.mark, r.doneChunks)
  | none =>
    match x.cwalk with
    | some w =>
      let r := s.chainRec c w
      if w.fresh then ((s.startRecord c w).fault?).map fun f => (f, r.slot, r.pc, r.pts, 0)
      else ((s.walkAsk c w).fault?).map fun f => (f, w.slot, w.pc, w.pts, 0)
    | none =>
      match x.cq with
      | .walk _ slot pc pts _ :: _ => ((s.copyStart c).fault?).map fun f => (f, slot, pc, pts, 0)
      | _ => none

/-- COPY_ENGINE_FAULT: the engine halts and a record of the engine kind enters the core's fault queue; no slot changes
state. -/
def execCopyEngineFault (c : Nat) (s : State) : Host.Outcome State Fault Refusal :=
  answer <|
    let x := s.core c
    if x.chalted then s
    else
      match s.copyFault c with
      | none => s
      | some (f, slot, pc, ts, n) =>
        let info := BitVec.ofNat 64 (n % 2 ^ 32 + (x.eseq + 1) % 2 ^ 32 * 2 ^ 32)
        let s := s.noteFault (.slot c slot) f
        (s.setCore c { s.core c with chalted := true }).enterRecord c ({ f with step := 0 }.toRec 2 slot pc (s.slot c slot).hold.isSome info) ts

/-! ## The instructions -/

/-- The completion word a command names in D, its address checked (R219). -/
def State.wordOf (s : State) (d : BitVec 8) : Chk (Option (Word × Word)) :=
  if 64 ≤ opName d then .ok none
  else
    let a := s.rs d
    if a.toNat % 8 != 0 then .bad (flt .align 1 6 a.toNat) else .ok (some (a, s.rs (d + 1)))

/-- A command accepted into the engine's queue. -/
def acceptCopy (kind : Nat) (f : FmtP) (s : State) (e : Eff) : Res :=
  let c := s.myCore
  let x := s.core c
  (s.wordOf f.d).res fun w =>
    match s.buildCopy c kind f.p1.toNat f.p2.toNat (s.rs f.a) (s.rs f.b) with
    | .error g => .fault g
    | .ok l =>
      if 32 ≤ x.copyEntries then .park .copyRoom
      else
        let m : CopyCmd := { kind := kind, core := c, num := x.copyNext + 1, slot := s.mySlot, pc := s.thread.pc, src := l.1, dst := l.2, aval := s.rs f.a, bval := s.rs f.b,
                             imm := f.imm.toNat, word := w, pts := s.thread.pts, conds := x.fenced 1 }
        .done (s.setCore c { x with cq := x.cq ++ [.cmd m], copyNext := x.copyNext + 1 }) e

/-- CPY. -/
def cpyBody (f : FmtP) : State → Eff → Res := acceptCopy 0 f

/-- The meaning of CPY. -/
def execCpy (f : FmtP) (s : State) : Host.Outcome State Fault Refusal := meaning (.cpy f) none (cpyBody f) s

/-- MCAST. -/
def mcastBody (f : FmtP) : State → Eff → Res := acceptCopy 1 f

/-- The meaning of MCAST. -/
def execMcast (f : FmtP) (s : State) : Host.Outcome State Fault Refusal := meaning (.mcast f) none (mcastBody f) s

/-- RFILL. -/
def rfillBody (f : FmtP) : State → Eff → Res := acceptCopy 2 f

/-- The meaning of RFILL. -/
def execRfill (f : FmtP) (s : State) : Host.Outcome State Fault Refusal := meaning (.rfill f) none (rfillBody f) s

/-- CPYC: the record appended, and a walk placed when the chain was idle. -/
def cpycBody (f : FmtP) (s : State) (e : Eff) : Res :=
  let a := s.rs f.a
  let b := s.rs f.b
  let c := s.myCore
  let x := s.core c
  if a.toNat % 64 != 0 then .fault (flt .align 2 3 a.toNat)
  else if b.toNat % 64 != 0 then .fault (flt .align 3 4 b.toNat)
  else (s.reach s.cur a.toNat 8 .store).res fun la => (s.reach s.cur b.toNat 24 .atomic).res fun lb =>
    let d := s.peek lb 24
    let idle := imgGet d 16 8 == 0
    let tail := imgGet d 8 8
    (if idle then .ok [] else s.reachSpan tail 8 .store).res fun lt =>
      if idle ∧ 32 ≤ x.copyEntries then .park .copyRoom
      else
        let r : ChainRec := { space := s.space s.cur, va := a, core := c, num := x.copyNext + 1, slot := s.mySlot, pc := s.thread.pc, pts := s.thread.pts,
                               conds := x.fenced 1 }
        let s := s.setCore c { x with copyNext := x.copyNext + 1 }
        let s := (s.storeAt a.toNat la 8 1 0).remember r
        let s := (s.rmwAt b.toNat lb 24 1 fun old =>
          if idle then a.toNat + a.toNat * 2 ^ 64 + 2 ^ 128 else imgPut old 8 8 a.toNat).1
        if idle then
          let y := s.core c
          doneS (s.setCore c { y with cq := y.cq ++ [CopyEntry.walk b s.mySlot s.thread.pc r.pts (y.fenced 1)] }) e f.d 1
        else doneS (s.storeSpan tail lt a.toNat) e f.d 0

/-- The meaning of CPYC. -/
def execCpyc (f : FmtP) (s : State) : Host.Outcome State Fault Refusal := meaning (.cpyc f) (some .reply) (cpycBody f) s

/-- ESEQ: the sequence number. -/
def eseqBody (f : FmtP) (s : State) (e : Eff) : Res := doneS s e f.d (BitVec.ofNat 64 (s.core s.myCore).eseq)

/-- The meaning of ESEQ. -/
def execEseq (f : FmtP) (s : State) : Host.Outcome State Fault Refusal := meaning (.eseq f) none (eseqBody f) s

/-- ESEQ.go: a HALTED engine goes on at its faulting chunk. -/
def eseqGoBody (f : FmtP) (s : State) (e : Eff) : Res :=
  let c := s.myCore
  let x := s.core c
  doneS (if x.chalted then s.setCore c { x with chalted := false } else s) e f.d (BitVec.ofNat 64 x.eseq)

/-- The meaning of ESEQ.go. -/
def execEseqGo (f : FmtP) (s : State) : Host.Outcome State Fault Refusal := meaning (.eseqGo f) none (eseqGoBody f) s

/-- What a HALTED engine stands at abandoned (R224): the command or the record, or the walk whose descriptor faults. -/
def State.copyDrop (s : State) (c : Nat) : State :=
  let s := s.setCore c { s.core c with chalted := false }
  let x := s.core c
  match x.crun with
  | some r => s.copyRetire c r.mark
  | none =>
    match x.cwalk with
    | some w => if w.fresh then (s.forget (s.chainRec c w).space w.atRec).copyRetire c 0 else s.setCore c (Core.promote { x with cwalk := none })
    | none => s.setCore c { x with cq := x.cq.tail }

/-- ESEQ.drop. -/
def eseqDropBody (f : FmtP) (s : State) (e : Eff) : Res :=
  let c := s.myCore
  let s := if (s.core c).chalted then s.copyDrop c else s
  doneS s e f.d (BitVec.ofNat 64 (s.core c).eseq)

/-- The meaning of ESEQ.drop. -/
def execEseqDrop (f : FmtP) (s : State) : Host.Outcome State Fault Refusal := meaning (.eseqDrop f) none (eseqDropBody f) s

/-- EWAIT. -/
def ewaitBody (f : FmtP) (s : State) (e : Eff) : Res :=
  let n := (s.rs f.a).toNat
  let x := s.core s.myCore
  if x.eseq < n then .park (.eseq n) else .done s { e with pts := max e.pts ((aget x.emarks n).getD 0) }

/-- The meaning of EWAIT. -/
def execEwait (f : FmtP) (s : State) : Host.Outcome State Fault Refusal := meaning (.ewait f) none (ewaitBody f) s

end Sys2Proof.Machine
end

