-- ==== Sys2Proof/Machine/Fence.lean ====
section
/-! DEFINITION. FENCEX and CWB (R226, R227), and the eviction of a line (R204). -/

namespace Sys2Proof.Machine

/-! ## Evictions (R204, R275) -/

/-- A line evicted from its home slice: written back when modified, its rts passing into the eviction mark, and its bit of
the presence filter cleared. -/
def State.evictLine (s : State) (ln : Nat) : State :=
  let fi := homeFold ln
  let f := s.fold fi
  match aget f.lines ln with
  | none => s
  | some x => (s.setFold fi { f with lines := adel f.lines ln, evict := max f.evict x.rts }).setPresent ln false

/-! ## FENCEX (R226) -/

/-- The class1 operations that the slots of core `c` have issued and that may still be under way, as conditions; a thread's own accesses
have completed. Reads of input streams are none of class `stream`, of which only the appends write (DEDUCED, log entry 41). -/
def State.fenceSet (s : State) (c cl : Nat) : List Cond :=
  let x := s.core c
  match cl with
  | 0 => []
  | 1 => [.copy c x.copyNext]
  | 2 => (List.range 16).flatMap fun k =>
      ((x.slot k).ports.filter fun p => p.2.kind == .output).map fun p => Cond.stream c k p.1 p.2.num (p.2.ahead + p.2.buf.length)
  | 3 => [.matrix c x.mnext]
  | 4 =>
    let f := s.fold (foldOf c)
    let mine := ((f.fq.filter fun y => y.core == c).map (·.ticket)) ++ ((f.frun.map (·.cmd)).toList.filter fun y => y.core == c).map (·.ticket)
    [.field c (foldOf c) (mine.foldl max 0)]
  | 5 => [.key c x.keyNext]
  | _ => [.near c x.nearNext]

/-- The greatest write timestamp of the class1 operations of core `c` that have completed; `pts` is the issuing thread's. -/
def State.fenceMark (s : State) (c cl pts : Nat) : Nat :=
  let x := s.core c
  match cl with
  | 0 => pts
  | 1 => x.cmark
  | 2 => x.smark
  | 3 => x.mmark
  | 4 => x.fdmark
  | 5 => s.condMark (.key c 0)
  | _ => s.condMark (.near c 0)

/-- What a FENCEX lays on later work: the class1 operations still under way, and the timestamp of those that have completed; nothing when
there are none (R226). -/
def State.fenceConds (s : State) (c cl pts : Nat) : List Cond :=
  let m := s.fenceMark c cl pts
  (s.fenceSet c cl).filter (fun x => !s.condDone x) ++ if m = 0 then [] else [.thread m]

/-- An output stream's later appends held back by conditions. -/
def Port.fence (p : Port) (cs : List Cond) : Port :=
  if p.kind == .output then { p with conds := p.conds ++ cs.map fun x => (p.ahead + p.buf.length, x) } else p

/-- The later class2 work of a core held back. -/
def Core.addFence (c : Core) (cl : Nat) (cs : List Cond) : Core :=
  let c := { c with fences := aset c.fences cl (c.fenced cl ++ cs).eraseDups }
  if cl = 2 then { c with slots := c.slots.map fun t => { t with ports := t.ports.map fun p => (p.1, p.2.fence cs) } } else c

/-- FENCEX. With class2 `thread` PTS takes the marks of what has completed, and of the rest of X as it completes. -/
def fencexBody (f : FmtR) (s : State) (e : Eff) : Res :=
  let c1 := f.imm.toNat % 8
  let c2 := f.imm.toNat / 16 % 8
  match s.cur with
  | .slot c _ =>
    let cs := s.fenceConds c c1 s.thread.pts
    if c2 = 0 then
      let e := { e with pts := max e.pts (s.fenceMark c c1 s.thread.pts) }
      (if s.condsDone cs then .done s e else .sent (s.setThread { s.thread with reply := some e }) (.fence cs))
    else .done (s.setCore c ((s.core c).addFence c2 cs)) e
  | _ => .done s e

/-- The meaning of FENCEX. -/
def execFencex (f : FmtR) (s : State) : Host.Outcome State Fault Refusal := meaning (.fencex f) none (fencexBody f) s

/-! ## CWB (R227) -/

/-- The physical line of a line of the range, when its page is mapped. -/
def State.cwbLine (s : State) (va : Nat) : Option Nat :=
  match s.cur with
  | .sys _ => if s.paOk (s.sysPa va) then some (s.sysPa va / 64) else none
  | w => if !canonical va then none else (s.lookup w va).map fun l => l.pa va / 64

/-- One line of the range: written when its home slice holds it modified, and evicted under `.inv`. -/
def State.cwbOne (s : State) (inv : Bool) (va : Nat) : State × Nat :=
  match s.cwbLine va with
  | none => (s, 0)
  | some ln =>
    let s := match s.cur, inv with
      | .slot c _, true => let k := s.l1Core c ln; let x := s.core k; s.setCore k { x with l1 := x.l1.filter (·.ln != ln) }
      | _, _ => s
    let f := s.fold (homeFold ln)
    match aget f.lines ln with
    | none => (s, 0)
    | some x =>
      if x.dirty then
        (if inv then s.evictLine ln else s.setFold (homeFold ln) { f with lines := aset f.lines ln { x with dirty := false } }, 1)
      else (s, 0)

/-- The lines of the range in order, and how many were written. -/
def State.cwbFrom (s : State) (inv : Bool) (va : Nat) : Nat → State × Nat
  | 0 => (s, 0)
  | n + 1 =>
    let r := s.cwbOne inv (va % 2 ^ 64)
    let q := State.cwbFrom r.1 inv (va + 64) n
    (q.1, r.2 + q.2)

/-- CWB; window addresses are those of the local window and of the remote aperture (R199). -/
def cwbBody (f : FmtR) (s : State) (e : Eff) : Res :=
  let a := (s.rs f.a).toNat
  let n := (s.rs f.b).toNat
  let first := a / 64 * 64
  let count := if n = 0 then 0 else (a + n - first + 63) / 64
  let window := !s.isSys && decide (0 < count) && decide (first < winBase + 2 ^ 22) && decide (apBase < first + 64 * count)
  if window then .fault (flt .prot 0 0 (max first apBase))
  else
    let r := s.cwbFrom (f.mod.getLsbD 0) first count
    doneS r.1 e f.d (BitVec.ofNat 64 r.2)

/-- The meaning of CWB. -/
def execCwb (f : FmtR) (s : State) : Host.Outcome State Fault Refusal := meaning (.cwb f) (some .reply) (cwbBody f) s

end Sys2Proof.Machine
end

