-- ==== Sys2Proof/Machine/Field.lean ====
section
/-! DEFINITION. Fields (R228-R249): rows and spans, the operations on a lane, the sequencer, and the instructions of OP
0x70 to 0x72. -/

namespace Sys2Proof.Machine

/-! ## Field flags (R238) -/

/-- FIV, FSAT, FUF and FNX. -/
def fIV : BitVec 4 := 8
def fSAT : BitVec 4 := 4
def fUF : BitVec 4 := 2
def fNX : BitVec 4 := 1

/-- A flag when a condition holds. -/
def fIf (c : Bool) (f : BitVec 4) : BitVec 4 := if c then f else 0

/-- Thread flags as field flags: OF and SAT to FSAT, UF to FUF, NX to FNX (R243, R244). -/
def fieldFlags (x : Word) : BitVec 4 :=
  fIf (x &&& (flagOF ||| flagSAT) != 0) fSAT ||| fIf (x &&& flagUF != 0) fUF ||| fIf (x &&& flagNX != 0) fNX

/-! ## Lanes and spans (R231, R232) -/

/-- Lanes of a fold. -/
def Fold.laneCount (f : Fold) : Nat := 8192 * f.ways

/-- The rows of lane `j`. -/
def Fold.lane (f : Fold) (j : Nat) : BitVec 256 := (aget f.lanes j).getD f.laneBase

/-- Lane `j` replaced. -/
def Fold.setLane (f : Fold) (j : Nat) (x : BitVec 256) : Fold := { f with lanes := aset f.lanes j x }

/-- The unsigned value of a span. -/
def spanGet (x : BitVec 256) (r w : Nat) : Nat := (x.toNat >>> r) % 2 ^ w

/-- A span's value, signed or unsigned. -/
def spanInt (x : BitVec 256) (r w : Nat) (signed : Bool) : Int := if signed then sxInt w (spanGet x r w) else (spanGet x r w : Int)

/-- A span replaced. -/
def spanPut (x : BitVec 256) (r w v : Nat) : BitVec 256 :=
  BitVec.ofNat 256 (x.toNat - spanGet x r w * 2 ^ r + v % 2 ^ w * 2 ^ r)

/-- The width a width field of format F gives (R70). -/
def spanWidth (x : BitVec 6) : Nat := x.toNat + 1

/-! ## The result of an operation in one lane (R241-R244) -/

/-- A value clamped or wrapped to `w` bits. -/
def fieldNarrow (sat signed : Bool) (w : Nat) (v : Int) : Nat × BitVec 4 :=
  let lo : Int := if signed then -(2 ^ (w - 1) : Nat) else 0
  let hi : Int := if signed then (2 ^ (w - 1) : Nat) - 1 else (2 ^ w : Nat) - 1
  if sat && (decide (v < lo) || decide (hi < v)) then (wrapNat w (if v < lo then lo else hi), fSAT) else (wrapNat w v, 0)

/-- The NaR marker of a linear row. -/
def narMarker : Nat := 2 ^ 47

/-- FDLMUL (R243). -/
def fdlmulLane (mode a b d : Nat) : Nat × BitVec 4 :=
  if mode = 0 then let r := l6Mul a b; (r.1, fieldFlags r.2)
  else if mode = 2 ∧ d = narMarker then (d, 0)
  else
    let v : Option Int := match l6Of a, l6Of b with
      | .nar, _ | _, .nar => none
      | .zero, _ | _, .zero => some 0
      | .num s1 l1, .num s2 l2 => some (l6Lin (s1 != s2) (l1 + l2))
    match v with
    | none => (narMarker, fIV)
    | some v =>
      if mode = 1 then (wrapNat 48 v, 0)
      else
        let x := sxInt 48 d + v
        let lim : Int := (2 ^ 47 : Nat) - 1
        if lim < x then (wrapNat 48 lim, fSAT) else if x < -lim then (wrapNat 48 (-lim), fSAT) else (wrapNat 48 x, 0)

/-- FDRQ (R244): `a` is the A span of `wa` bits, `e` the exponent less the fraction count. A factor beyond 2^±400 gives what
2^±400 gives. -/
def fdrqLane (t wa a : Nat) (e : Int) : Nat × BitVec 4 :=
  if wa = 48 ∧ a = narMarker then ((if t = 0x13 then 0x7F else if t = 0x16 then 0x30 else 0), fIV)
  else
    let x := sxInt wa a
    let n := decide (x < 0)
    let m := x.natAbs
    let e := max (-400) (min 400 e)
    if t = 0x13 then
      let r := roundF 0x13 .rne n m e
      (r.1, fieldFlags (r.2 &&& ~~~flagUF) ||| fIf (m != 0 && r.1 % 128 == 0) (fUF ||| fNX))
    else if t = 0x16 then let r := toL6 (.fin n m e); (r.1, fieldFlags r.2)
    else
      let r := roundToInt .rne n m e
      let y := fieldNarrow true true 8 r.1
      (y.1, y.2 ||| fIf r.2 fNX ||| fIf (m != 0 && r.1 == 0) fUF)

/-- The value that operation `sub` gives D in a lane, and its flags; `x` holds the lane's rows. -/
def fieldValue (sub : Nat) (f : FmtF) (x : BitVec 256) : Nat × BitVec 4 :=
  let sg := f.mod.getLsbD 0
  let sat := f.mod.getLsbD 1
  let w := spanWidth f.dw
  let ua := spanGet x f.arow.toNat (spanWidth f.aw)
  let ub := spanGet x f.brow.toNat (spanWidth f.bw)
  let a := spanInt x f.arow.toNat (spanWidth f.aw) sg
  let b := spanInt x f.brow.toNat (spanWidth f.bw) sg
  let im := f.imm.toNat
  match sub with
  | 0 => fieldNarrow sat sg w (a + b)
  | 1 => fieldNarrow sat sg w (a - b)
  | 2 => fieldNarrow sat sg w (a * b)
  | 3 => (if cmpInt (im % 8) a b then 1 else 0, 0)
  | 4 => (if x.getLsbD f.mrow.toNat then ua else ub, 0)
  | 5 => (((List.range w).map fun i =>
      if im.testBit (2 * (ua / 2 ^ i % 2) + ub / 2 ^ i % 2) then 2 ^ i else 0).sum, 0)
  | 6 => (wrapNat w (min a b), 0)
  | 7 => (wrapNat w (max a b), 0)
  | 8 => fdlmulLane (f.mod.toNat / 2 % 4) ua ub (spanGet x f.drow.toNat 48)
  | 9 =>
    let k := im / 64 % 4
    fdrqLane f.ty.toNat (spanWidth f.aw) ua (spanInt x f.brow.toNat (spanWidth f.bw) (k == 0) - 127 * k - (im % 64 : Nat))
  | _ => (popBits (spanWidth f.aw) ua, 0)

/-- Whether a lane takes part: FDSEL writes every lane, the others those that the mask row selects (R232, R240). -/
def laneSelected (sub : Nat) (f : FmtF) (x : BitVec 256) : Bool := sub == 4 || f.mrow == 0xFF || x.getLsbD f.mrow.toNat

/-- A lane after an operation, and the flags it sets. -/
def laneOp (sub : Nat) (f : FmtF) (x : BitVec 256) : BitVec 256 × BitVec 4 :=
  if laneSelected sub f x then
    let r := fieldValue sub f x
    (spanPut x f.drow.toNat (spanWidth f.dw) r.1, r.2)
  else (x, 0)

/-- Every lane of a fold after an operation, and the flags they set (R245). -/
def Fold.rowOp (x : Fold) (sub : Nat) (f : FmtF) : Fold × BitVec 4 :=
  let base := laneOp sub f x.laneBase
  let ls := x.lanes.map fun l => (l.1, laneOp sub f l.2)
  ({ x with laneBase := base.1, lanes := ls.map fun l => (l.1, l.2.1) },
   ls.foldl (fun y l => y ||| l.2.2) (if x.lanes.length < x.laneCount then base.2 else 0))

/-! ## Checks of a command (R232, R239, R240) -/

/-- Whether two spans share a row. -/
def overlaps (r w r' w' : Nat) : Bool := decide (r < r' + w') && decide (r' < r + w)

/-- ILLEGAL_OPERAND of an F-format operation: the operand judged, or none. -/
def fieldOperandBad (sub : Nat) (f : FmtF) : Option Nat :=
  let d := f.drow.toNat
  let a := f.arow.toNat
  let b := f.brow.toNat
  let mode := f.mod.toNat / 2 % 4
  let usesB := sub != 10
  let disjoint := sub == 2 || sub == 9 || sub == 10 || (sub == 8 && mode != 0)
  let clash (r w : Nat) : Bool := overlaps d (spanWidth f.dw) r w && (disjoint || !(r == d && w == (spanWidth f.dw)))
  let wdBad := match sub with
    | 3 => (spanWidth f.dw) != 1
    | 8 => (spanWidth f.dw) != (if mode = 0 then 6 else 48)
    | 9 => (spanWidth f.dw) != (if f.ty.toNat = 0x16 then 6 else 8)
    | 10 => decide (2 ^ (spanWidth f.dw) ≤ (spanWidth f.aw))
    | _ => false
  let srcBad (w : Nat) : Bool := match sub with
    | 4 | 5 => w != (spanWidth f.dw)
    | 8 => w != 6
    | _ => false
  firstBad [(decide (256 < d + (spanWidth f.dw)) || wdBad, 1), (decide (256 < a + (spanWidth f.aw)) || srcBad (spanWidth f.aw) || clash a (spanWidth f.aw), 2),
    (usesB && (decide (256 < b + (spanWidth f.bw)) || srcBad (spanWidth f.bw) || clash b (spanWidth f.bw)), 3),
    ((sub == 4 && f.mrow == 0xFF) || (f.mrow != 0xFF && decide (d ≤ f.mrow.toNat) && decide (f.mrow.toNat < d + (spanWidth f.dw))), 4)]

/-! ## The sequencer (R230, R233-R236) -/

/-- Lines a way holds. -/
def wayLines : Nat := 4096

/-- The lines of a fold that lie in ways `n` and above: a slice's lines fill its ways from way 0 in the order of their
numbers (DESIGN CHOICE, log entry 22). -/
def Fold.linesAbove (f : Fold) (n : Nat) : List Nat := (f.lines.drop (wayLines * n)).map (·.1)

/-- WAYS changed to `m` (R230). -/
def State.setWays (s : State) (f m : Nat) : State :=
  let x := s.fold f
  if m = x.ways then s
  else
    let s := if x.ways < m then (x.linesAbove (16 - m)).foldl (fun s ln => s.evictLine ln) s else s
    s.setFold f { s.fold f with ways := m, laneBase := 0, lanes := [] }

/-- A command completed, or dropped: the sequence number raised and G kept. -/
def State.fieldRetire (s : State) (f mark : Nat) (flags : BitVec 4) : State :=
  let x := s.fold f
  let g := max x.gmark mark
  let s := match x.frun with
    | some r =>
      let y := (s.core r.cmd.core).noteFence (fun c => match c with
        | .field _ f' n => f' == f && decide (r.cmd.ticket ≤ n)
        | _ => false) mark
      s.setCore r.cmd.core { y with fdmark := max y.fdmark mark }
    | none => s
  s.setFold f { x with fseq := x.fseq + 1, gmark := g, gmarks := (x.fseq + 1, g) :: x.gmarks, fflags := x.fflags ||| flags, frun := none }

/-- The row cycles of an operation, two ac each (R240). -/
def rowCycles (sub : Nat) (f : FmtF) : Nat :=
  let d := spanWidth f.dw
  let a := spanWidth f.aw
  let b := spanWidth f.bw
  match sub with
  | 0 | 1 => d + 1
  | 2 => b * (a + 1) + d
  | 3 => max a b + 1
  | 4 | 5 => d
  | 6 | 7 => max a b + 1 + d
  | 8 => if f.mod.toNat / 2 % 4 = 0 then 8 else if f.mod.toNat / 2 % 4 = 1 then 56 else 57
  | 9 => a + 2 * d + 12
  | _ => a + d

/-- The ac that an operation takes. -/
def FieldKind.cycles (k : FieldKind) : Nat :=
  match k with
  | .op sub f => 2 * rowCycles sub f
  | _ => 0

/-- FIELD_COMMAND_START: the command at the head of the queue runs; its clock stands above every FDOUT before it. -/
def execFieldCommandStart (f : Nat) (s : State) : Host.Outcome State Fault Refusal :=
  answer <|
    let x := s.fold f
    match x.frun, x.fq with
    | none, m :: ms =>
      if x.fhalted || !s.condsDone m.conds || decide (2 ^ 21 ≤ f) then s
      else
        let m := { m with pts := max (s.afterConds m.pts m.conds) (if x.gmark = 0 then 0 else x.gmark + 1) }
        s.setFold f { x with fq := ms, frun := some { cmd := m, lane := 0, mark := 0, due := s.ac + m.kind.cycles } }
    | _, _ => s

/-- The coordinates of the element of lane `j` of a transfer: mixed radix, then the origin (R239). -/
def laneCoords (p : Plat) (org : Word) (j : Nat) : List Nat :=
  let d := p.dimOf
  shift2 [j % d 0, j / d 0 % d 1, j / d 0 / d 1 % d 2, j / d 0 / d 1 / d 2] org

/-- The elements a transfer governs: N of R239. -/
def Fold.transferCount (x : Fold) (p : Plat) (l0 : Nat) : Nat :=
  min (p.dimOf 0 * p.dimOf 1 * p.dimOf 2 * p.dimOf 3) (x.laneCount - l0)

/-- Whether an element is the first, in lane order, of its block's elements that lie inside. -/
def firstOfBlock (p : Plat) (org : Word) (j : Nat) : Bool :=
  j % p.dimOf 0 == 0 || (laneCoords p org j).getD 0 0 % 8 == 0

/-- One lane of an FDIN. -/
def State.finLane (s : State) (f : Nat) (m : FieldCmd) (l : Line) (org : Word) (l0 row srow j : Nat) : Chk State :=
  let p := platOf l
  let xs := laneCoords p org j
  let lane := (s.fold f).lane (l0 + j)
  let w := tyWidth p.ty
  if !p.inside xs then
    let y := spanPut lane row w 0
    .ok (s.setFold f ((s.fold f).setLane (l0 + j) (if p.block = 8 then spanPut y srow 8 0 else y)))
  else
    (s.platRead m.core m.slot p xs m.pts 0).bind fun r =>
      let y := spanPut lane row w r.2.1
      if p.block = 8 then
        (r.1.platScale m.core m.slot p xs m.pts 0).bind fun q =>
          .ok (q.1.setFold f ((q.1.fold f).setLane (l0 + j) (spanPut y srow 8 q.2.1)))
      else .ok (r.1.setFold f ((r.1.fold f).setLane (l0 + j) y))

/-- The units that lane `j` of an FDOUT writes: its element, when it lies inside, and its block's scale when it is the lowest lane written
there (R239). -/
def State.foutUnits (s : State) (f : Nat) (r : FieldRun) (j : Nat) : List PlatUnit :=
  match r.cmd.kind with
  | .fout l org l0 row srow =>
    let p := platOf l
    let xs := laneCoords p org j
    let lane := (s.fold f).lane (l0 + j)
    if !p.inside xs then []
    else p.unit xs (spanGet lane row (tyWidth p.ty)) :: if p.block = 8 && firstOfBlock p org j then [p.scaleUnit xs (spanGet lane srow 8)] else []
  | _ => []

/-- The lanes a transfer has left. -/
def State.lanesLeft (s : State) (f : Nat) (r : FieldRun) : Nat :=
  match r.cmd.kind with
  | .fin l _ l0 _ _ | .fout l _ l0 _ _ => (s.fold f).transferCount (platOf l) l0 - r.lane
  | _ => 0

/-- The lines of lane `j` that an FDOUT has still to write. -/
def State.foutLeft (s : State) (f : Nat) (r : FieldRun) (j : Nat) : List Nat :=
  ((s.foutUnits f r j).map (·.va / 64)).filter fun ln => !r.done.contains ln

/-- A transfer with its first lane not yet done, `n` lanes left at most. -/
def State.laneAt (s : State) (f : Nat) (r : FieldRun) : Nat → FieldRun
  | 0 => r
  | n + 1 =>
    match r.cmd.kind with
    | .fout .. => if (s.foutLeft f r r.lane).isEmpty then State.laneAt s f { r with lane := r.lane + 1 } n else r
    | _ => r

/-- The transfer of a fold with its first lane not yet done. -/
def State.fieldAt (s : State) (f : Nat) (r : FieldRun) : FieldRun := s.laneAt f r (s.lanesLeft f r)

/-- The next line of an FDOUT, that of its first lane not yet done, written whole: every lane's element and scale that lie in it (R234, R236). -/
def State.foutLine (s : State) (f : Nat) (r : FieldRun) (p : Plat) : Chk (State × FieldRun) :=
  match s.foutLeft f r r.lane with
  | [] => .ok (s, r)
  | ln :: _ =>
    let us := (List.range (r.lane + s.lanesLeft f r)).flatMap fun j => (s.foutUnits f r j).filter (·.va / 64 == ln)
    (s.reachUnits r.cmd.core r.cmd.slot us).bind fun q =>
      let w := q.1.writeUnits p r.cmd.pts q.2
      .ok (w.1, { r with done := ln :: r.done, mark := max r.mark w.2 })

/-- What the transfer under way does next: a lane of an FDIN, a line of an FDOUT. -/
def State.fieldLane (s : State) (f : Nat) (r : FieldRun) : Chk (State × FieldRun) :=
  match r.cmd.kind with
  | .fin l org l0 row srow => (s.finLane f r.cmd l org l0 row srow r.lane).bind fun q => .ok (q, { r with lane := r.lane + 1 })
  | .fout l .. => s.foutLine f r (platOf l)
  | _ => .ok (s, r)

/-- At most `n` such steps in order, until one does not go. -/
def State.fieldLanes (s : State) (f : Nat) (r : FieldRun) : Nat → State × FieldRun
  | 0 => (s, r)
  | n + 1 =>
    match s.fieldLane f r with
    | .ok q => State.fieldLanes q.1 f q.2 n
    | _ => (s, r)

/-- The 64-byte line that holds the element of a lane of an FDIN, when it lies inside the plat. -/
def FieldRun.lineOf (r : FieldRun) (j : Nat) : Option Nat :=
  match r.cmd.kind with
  | .fin l org _ _ _ =>
    let p := platOf l
    let xs := laneCoords p org j
    if p.inside xs then some ((p.loc xs).1 / 64) else none
  | _ => none

/-- The lanes from `j` on, of `n`, whose elements lie in one line, `first` when one is known. -/
def FieldRun.sameLine (r : FieldRun) (first : Option Nat) (j : Nat) : Nat → Nat
  | 0 => 0
  | n + 1 =>
    match first, r.lineOf j with
    | some a, some b => if a = b then 1 + r.sameLine first (j + 1) n else 0
    | none, some b => 1 + r.sameLine (some b) (j + 1) n
    | _, none => 1 + r.sameLine first (j + 1) n

/-- Steps that a transfer takes together: the lanes of an FDIN in one line, or one line of an FDOUT (R234; log entry 22). -/
def FieldRun.together (r : FieldRun) (n : Nat) : Nat :=
  match r.cmd.kind with
  | .fin .. => r.sameLine none r.lane n
  | _ => 1

/-- FIELD_COMMAND_COMPLETION: an operation, when its row cycles have passed (R240), or FDMODE completes; a transfer moves its next line (R234; log entry 22), or, when none
is left, completes. It stands where a line faults. -/
def execFieldCommandCompletion (f : Nat) (s : State) : Host.Outcome State Fault Refusal :=
  answer <|
    let x := s.fold f
    match x.frun with
    | none => s
    | some r =>
      if x.fhalted then s
      else
        match r.cmd.kind with
        | .mode m c k e d =>
          let s := (s.setWays f m).fieldRetire f 0 0
          if s.awaits (.slot c k) then
            (s.as (.slot c k)).land { e with writes := e.writes ++ wrS d (BitVec.ofNat 64 x.ways) }
          else s
        | .op sub g =>
          let y := x.rowOp sub g
          if s.ac < r.due then s
          else (s.setFold f y.1).fieldRetire f 0 y.2
        | _ =>
          let r := s.fieldAt f r
          let n := s.lanesLeft f r
          if n = 0 then s.fieldRetire f r.mark 0
          else
            let q := s.fieldLanes f r (r.together n)
            q.1.setFold f { q.1.fold f with frun := some q.2 }

/-- FIELD_FAULT: the transfer under way stands at a line that faults; the sequencer halts and a record of the field kind
enters the issuing core's fault queue. -/
def execFieldFault (f : Nat) (s : State) : Host.Outcome State Fault Refusal :=
  answer <|
    let x := s.fold f
    match x.frun with
    | none => s
    | some r =>
      let r := s.fieldAt f r
      if x.fhalted || s.lanesLeft f r == 0 then s
      else
        match s.fieldLane f r with
        | .bad g =>
          let l0 := match r.cmd.kind with
            | .fin _ _ l _ _ | .fout _ _ l _ _ => l
            | _ => 0
          let info := BitVec.ofNat 64 ((l0 + r.lane) % 2 ^ 32 + r.cmd.ticket % 2 ^ 32 * 2 ^ 32)
          let c := r.cmd.core
          let s := (s.setFold f { x with fhalted := true, frun := some r }).noteFault (.slot c r.cmd.slot) g
          let caps := (s.slot c r.cmd.slot).hold.isSome
          s.enterRecord c ({ g with step := 0 }.toRec 3 r.cmd.slot r.cmd.pc caps info) (max r.cmd.pts r.mark)
        | _ => s

/-! ## The instructions -/

/-- The fold of the current thread's core; a gateway core has none (R228). -/
def State.fieldFold (s : State) : Chk Nat :=
  match s.cur with
  | .slot c _ => if s.isGateway c then .bad (flt .field) else .ok (foldOf c)
  | _ => .bad (flt .field)

/-- A command accepted: its ticket is ACC after the rise. -/
def State.acceptField (s : State) (f : Nat) (k : FieldKind) : State × Nat :=
  let x := s.fold f
  let m : FieldCmd := { core := s.myCore, slot := s.mySlot, pc := s.thread.pc, ticket := x.facc + 1, pts := s.thread.pts,
                        conds := (s.core s.myCore).fenced 4, kind := k }
  ((s.setFold f { x with facc := x.facc + 1, fq := x.fq ++ [m] }).count 11, x.facc + 1)

/-- A field command issued when the queue has room; its own checks are made then. -/
def fieldIssue (s : State) (go : Nat → Fold → Res) : Res :=
  s.fieldFold.res fun f => if 16 ≤ (s.fold f).fieldEntries then .park .fieldRoom else go f (s.fold f)

/-- FDMODE. -/
def fdmodeBody (f : FmtR) (s : State) (e : Eff) : Res :=
  fieldIssue s fun i _ =>
    let m := f.imm.toNat % 16
    let r := s.acceptField i (.mode m s.myCore s.mySlot e f.d)
    .sent (r.1.setFold i { r.1.fold i with qways := m }) .served

/-- The meaning of FDMODE. -/
def execFdmode (f : FmtR) (s : State) : Host.Outcome State Fault Refusal := meaning (.fdmode f) none (fdmodeBody f) s

/-- FDWAIT. -/
def fdwaitBody (f : FmtR) (s : State) (e : Eff) : Res :=
  s.fieldFold.res fun i =>
    let x := s.fold i
    let n := (s.rs f.a).toNat
    if x.fseq < n then .park (.fseq n) else .done s { e with pts := max e.pts ((aget x.gmarks n).getD 0) }

/-- The meaning of FDWAIT. -/
def execFdwait (f : FmtR) (s : State) : Host.Outcome State Fault Refusal := meaning (.fdwait f) none (fdwaitBody f) s

/-- The status word of FDSTAT. -/
def Fold.status (x : Fold) : Nat :=
  x.fieldEntries * 2 ^ 32 + (16 - x.ways) * 2 ^ 24 + x.ways * 2 ^ 16 + x.qways * 2 ^ 8 + (if x.fhalted then 128 else 0) + x.fflags.toNat

/-- FDSTAT's sample and `.clr`, after `.go` or `.drop`. -/
def fdstatRead (f : FmtR) (i : Nat) (s : State) (e : Eff) : Res :=
  let x := s.fold i
  let v := if f.mod.getLsbD 3 then x.fseq else x.status
  doneS (if f.mod.getLsbD 2 then s.setFold i { x with fflags := 0 } else s) e f.d (BitVec.ofNat 64 v)

/-- FDSTAT. -/
def fdstatBody (f : FmtR) (s : State) (e : Eff) : Res := s.fieldFold.res fun i => fdstatRead f i s e

/-- The meaning of FDSTAT. -/
def execFdstat (f : FmtR) (s : State) : Host.Outcome State Fault Refusal := meaning (.fdstat f) none (fdstatBody f) s

/-- FDSTAT.go: a HALTED sequencer resumes at the faulting line. -/
def fdstatGoBody (f : FmtR) (s : State) (e : Eff) : Res :=
  s.fieldFold.res fun i => fdstatRead f i (s.setFold i { s.fold i with fhalted := false }) e

/-- The meaning of FDSTAT.go. -/
def execFdstatGo (f : FmtR) (s : State) : Host.Outcome State Fault Refusal := meaning (.fdstatGo f) none (fdstatGoBody f) s

/-- The command a HALTED sequencer stands at abandoned. -/
def State.fieldDrop (s : State) (i : Nat) : State :=
  let x := s.fold i
  match x.frun with
  | some r => if x.fhalted then (s.setFold i { x with fhalted := false }).fieldRetire i r.mark 0 else s
  | none => s

/-- FDSTAT.drop. -/
def fdstatDropBody (f : FmtR) (s : State) (e : Eff) : Res := s.fieldFold.res fun i => fdstatRead f i (s.fieldDrop i) e

/-- The meaning of FDSTAT.drop. -/
def execFdstatDrop (f : FmtR) (s : State) : Host.Outcome State Fault Refusal :=
  meaning (.fdstatDrop f) none (fdstatDropBody f) s

/-- The checks of FDIN and FDOUT (R239): the plat record, or the fault. -/
def State.transferCheck (s : State) (x : Fold) (f : FmtP) : Chk Line :=
  match s.platEntry s.myCore f.p1.toNat with
  | none => .bad (flt .illegalOperand 5)
  | some l =>
    let p := platOf l
    let w := tyWidth p.ty
    let row := f.imm.toNat % 256
    let srow := f.imm.toNat / 256
    if p.rank = 1 then .bad (flt .illegalOperand 5)
    else if x.qways = 0 then .bad (flt .field)
    else if 256 < row + w ∨ (p.block = 8 ∧ (256 < srow + 8 ∨ overlaps row w srow 8)) then .bad (flt .illegalOperand 7)
    else if 8192 * x.qways ≤ (s.rs f.b).toNat then .bad (flt .illegalOperand 3)
    else .ok l

/-- FDIN and FDOUT. -/
def transferIssue (f : FmtP) (kind : Line → Word → Nat → Nat → Nat → FieldKind) (s : State) (e : Eff) : Res :=
  fieldIssue s fun i x =>
    (s.transferCheck x f).res fun l =>
      let r := s.acceptField i (kind l (s.rs f.a) (s.rs f.b).toNat (f.imm.toNat % 256) (f.imm.toNat / 256))
      doneS r.1 e f.d (BitVec.ofNat 64 r.2)

/-- FDIN. -/
def fdinBody (f : FmtP) : State → Eff → Res := transferIssue f .fin

/-- The meaning of FDIN. -/
def execFdin (f : FmtP) (s : State) : Host.Outcome State Fault Refusal := meaning (.fdin f) none (fdinBody f) s

/-- FDOUT. -/
def fdoutBody (f : FmtP) : State → Eff → Res := transferIssue f .fout

/-- The meaning of FDOUT. -/
def execFdout (f : FmtP) (s : State) : Host.Outcome State Fault Refusal := meaning (.fdout f) none (fdoutBody f) s

/-- An F-format operation. Its spans and widths are judged before QWAYS (DEDUCED, log entry 42). -/
def rowIssue (sub : Nat) (f : FmtF) (s : State) (e : Eff) : Res :=
  fieldIssue s fun i x =>
    match fieldOperandBad sub f with
    | some n => .fault (flt .illegalOperand n)
    | none => if x.qways = 0 then .fault (flt .field) else .done (s.acceptField i (.op sub f)).1 e

/-- FDADD. -/
def fdaddBody (f : FmtF) : State → Eff → Res := rowIssue 0 f

/-- The meaning of FDADD. -/
def execFdadd (f : FmtF) (s : State) : Host.Outcome State Fault Refusal := meaning (.fdadd f) none (fdaddBody f) s

/-- FDSUB. -/
def fdsubBody (f : FmtF) : State → Eff → Res := rowIssue 1 f

/-- The meaning of FDSUB. -/
def execFdsub (f : FmtF) (s : State) : Host.Outcome State Fault Refusal := meaning (.fdsub f) none (fdsubBody f) s

/-- FDMUL. -/
def fdmulBody (f : FmtF) : State → Eff → Res := rowIssue 2 f

/-- The meaning of FDMUL. -/
def execFdmul (f : FmtF) (s : State) : Host.Outcome State Fault Refusal := meaning (.fdmul f) none (fdmulBody f) s

/-- FDCMP. -/
def fdcmpBody (f : FmtF) : State → Eff → Res := rowIssue 3 f

/-- The meaning of FDCMP. -/
def execFdcmp (f : FmtF) (s : State) : Host.Outcome State Fault Refusal := meaning (.fdcmp f) none (fdcmpBody f) s

/-- FDSEL. -/
def fdselBody (f : FmtF) : State → Eff → Res := rowIssue 4 f

/-- The meaning of FDSEL. -/
def execFdsel (f : FmtF) (s : State) : Host.Outcome State Fault Refusal := meaning (.fdsel f) none (fdselBody f) s

/-- FDBIT. -/
def fdbitBody (f : FmtF) : State → Eff → Res := rowIssue 5 f

/-- The meaning of FDBIT. -/
def execFdbit (f : FmtF) (s : State) : Host.Outcome State Fault Refusal := meaning (.fdbit f) none (fdbitBody f) s

/-- FDMIN. -/
def fdminBody (f : FmtF) : State → Eff → Res := rowIssue 6 f

/-- The meaning of FDMIN. -/
def execFdmin (f : FmtF) (s : State) : Host.Outcome State Fault Refusal := meaning (.fdmin f) none (fdminBody f) s

/-- FDMAX. -/
def fdmaxBody (f : FmtF) : State → Eff → Res := rowIssue 7 f

/-- The meaning of FDMAX. -/
def execFdmax (f : FmtF) (s : State) : Host.Outcome State Fault Refusal := meaning (.fdmax f) none (fdmaxBody f) s

/-- FDLMUL. -/
def fdlmulBody (f : FmtF) : State → Eff → Res := rowIssue 8 f

/-- The meaning of FDLMUL. -/
def execFdlmul (f : FmtF) (s : State) : Host.Outcome State Fault Refusal := meaning (.fdlmul f) none (fdlmulBody f) s

/-- FDRQ. -/
def fdrqBody (f : FmtF) : State → Eff → Res := rowIssue 9 f

/-- The meaning of FDRQ. -/
def execFdrq (f : FmtF) (s : State) : Host.Outcome State Fault Refusal := meaning (.fdrq f) none (fdrqBody f) s

/-- FDPOP. -/
def fdpopBody (f : FmtF) : State → Eff → Res := rowIssue 10 f

/-- The meaning of FDPOP. -/
def execFdpop (f : FmtF) (s : State) : Host.Outcome State Fault Refusal := meaning (.fdpop f) none (fdpopBody f) s

end Sys2Proof.Machine
end

