-- ==== Sys2Proof/Machine/Near.lean ====
section
/-! DEFINITION. Channel cores and near-memory work (R271-R286): relocation, overlays, packets, row locks, and the presence
filter's events. -/

namespace Sys2Proof.Machine

/-! ## The channel of an address (R272) -/

/-- The physical address of an address that an instruction of this chapter names. -/
def State.nearPa (s : State) (a opnd : Nat) : Chk Nat :=
  if apBase ≤ a ∧ a < winBase + 2 ^ 22 then .bad (flt .prot opnd 8 a)
  else if !canonical a then .bad (flt .xlate opnd 8 a)
  else
    (s.translate s.cur a true).bind fun l =>
    match l with
    | none => .bad (flt .xlate opnd 8 a)
    | some l =>
      if l.pte.getLsbD 5 then .bad (flt .mapRegion opnd 8 a)
      else if l.pte.getLsbD 6 then .bad (flt .prot opnd 8 a)
      else (s.wayTo (s.standsOn s.cur) (l.pa a / 2 ^ 39) (flt .prot opnd 8 a)).bind fun _ => .ok (l.pa a)

/-! ## The presence filter (R275) -/

/-- LINE_EVICTION: a home slice evicts a line it holds; its notice is on its way to the channel. -/
def execLineEviction (ln : Nat) (s : State) : Host.Outcome State Fault Refusal :=
  answer <|
    let fi := homeFold ln
    let f := s.fold fi
    match aget f.lines ln with
    | none => s
    | some x => s.setFold fi { f with lines := adel f.lines ln, evict := max f.evict x.rts }

/-- CHANNEL_EVICTION_NOTICE: the write-back or eviction notice of a line arrives and clears its bit. -/
def execChannelEvictionNotice (ln : Nat) (s : State) : Host.Outcome State Fault Refusal :=
  answer <| if (aget (s.fold (homeFold ln)).lines ln).isSome then s else s.setPresent ln false

/-- CHANNEL_FILL: a slice fills a line from its channel; the line takes the greater of eviction mark and M (R274). -/
def execChannelFill (ln : Nat) (s : State) : Host.Outcome State Fault Refusal :=
  answer <|
    if !s.paOk (64 * ln) then s
    else
      let fi := homeFold ln
      let f := s.fold fi
      match aget f.lines ln with
      | some _ => s
      | none =>
        let m := (s.tsAt (.mem (64 * ln))).1
        (s.setFold fi (Fold.spill { f with lines := aset f.lines ln ⟨m, m, false⟩, greatest := max f.greatest m } ln)).setPresent ln true

/-! ## Overlays (R276) -/

/-- A window's use count changed. -/
def Channel.setUses (x : Channel) (w : Option Nat) (g : Nat → Nat) : Channel :=
  match w with
  | none => x
  | some n =>
    match aget x.windows n with
    | some y => { x with windows := aset x.windows n { y with uses := g y.uses } }
    | none => x

/-- XOVL's result: the channel after it and the status. A window in use under the same base for another launch counts as one in use under
another base, and one that holds this base for this launch answers 2 also while its use count is 0 (DEDUCED, log entry 78). -/
def Channel.overlay (x : Channel) (n : Nat) (base : Word) (launch : Nat) (src : List Nat) : Channel × Nat :=
  let put : Channel := { x with windows := aset x.windows n { base := base, launch := launch, uses := 0, src := src, arrived := false, lines := [] } }
  match aget x.windows n with
  | none => (put, 0)
  | some w => if w.base = base ∧ w.launch = launch then (x, 2) else if w.uses = 0 then (put, 0) else (x, 1)

/-- The launch of the current thread, 0 for none. -/
def State.launchNo (s : State) : Nat := s.myLaunch.getD 0

/-- The physical line of a code line that must lie on an executable page (R272, R276). -/
def State.codeLine (s : State) (va : Nat) : Chk Nat :=
  if apBase ≤ va ∧ va < winBase + 2 ^ 22 then .bad (flt .prot 2 1 va)
  else if !canonical va then .bad (flt .xlate 2 1 va)
  else
    (s.translate s.cur va true).bind fun l =>
    match l with
    | none => .bad (flt .xlate 2 1 va)
    | some l =>
      if l.pte.getLsbD 5 then .bad (flt .mapRegion 2 1 va)
      else if l.pte.getLsbD 4 then .ok (l.pa va / 64)
      else .bad (flt .prot 2 1 va)

/-- XOVL. -/
def xovlBody (f : FmtR) (s : State) (e : Eff) : Res :=
  let base := (s.rs f.a).toNat / 4096 * 4096
  (s.nearPa (s.rs f.b).toNat 3).res fun pa =>
    (Chk.all (fun i => s.codeLine (base + 64 * i)) (List.range 64)).res fun src =>
      let ch := channelPa pa
      let r := (s.chan ch).overlay (f.imm.toNat % 2) (BitVec.ofNat 64 base) s.launchNo src
      let s := (s.tlbEnter s.cur (s.rs f.b).toNat).tlbEnter s.cur base
      doneS (s.setChan ch r.1) e f.d (BitVec.ofNat 64 r.2)

/-- The meaning of XOVL. -/
def execXovl (f : FmtR) (s : State) : Host.Outcome State Fault Refusal := meaning (.xovl f) (some .near) (xovlBody f) s

/-- Code lines as they arrive from memory, each checked under R64: one that cannot be corrected stays as it is, to be fetched once
more when it is wanted. -/
def State.overlayLines (s : State) (n : Nat) : List Nat → State × List (Nat × Line)
  | [] => (s, [])
  | ln :: ls =>
    let r := s.readMem ln
    let q := State.overlayLines r.1 (n + 1) ls
    (q.1, (n, r.2.getD (s.mem.line ln)) :: q.2)

/-- OVERLAY_LINE_ARRIVAL: the lines of a window arrive from memory, once none of them is poisoned and a route leads to each (R367). -/
def execOverlayLineArrival (ch w : Nat) (s : State) : Host.Outcome State Fault Refusal :=
  answer <|
    let x := s.chan ch
    match aget x.windows w with
    | none => s
    | some y =>
      if y.arrived || y.src.any s.dev.poisoned.contains || !(y.src.all fun ln => s.routed (ch / 256) (64 * ln / 2 ^ 39)) then s
      else
        let r := s.overlayLines 0 y.src
        r.1.setChan ch { x with windows := aset x.windows w { y with arrived := true, lines := r.2 } }

/-! ## Relocation (R277-R280) -/

/-- The live mask of XMIG. -/
def liveMask (f : FmtR) : BitVec 48 := BitVec.ofNat 48 (f.imm.toNat + f.b.toNat * 2 ^ 32 + f.c.toNat * 2 ^ 40)

/-- Register `i` of a live set. -/
def liveReg (m : BitVec 48) (i : Nat) : Bool := m.getLsbD i

/-- The live registers as XMIG reads them at issue. -/
def Slot.liveValues (t : Slot) (m : BitVec 48) : List Wr :=
  ((List.range 48).filter (liveReg m)).map fun i => .g i ((t.read i).setWidth 64)

/-- XMIG: the slot waits for a context of the channel core it names; the values read travel in its pending completion. -/
def xmigBody (f : FmtR) (s : State) (e : Eff) : Res :=
  let m := liveMask f
  (s.nearPa (s.rs f.a).toNat 2).res fun pa =>
    let s := s.tlbEnter s.cur (s.rs f.a).toNat
    let t := s.thread
    .sent (s.setThread { t with reply := some { e with writes := t.liveValues m }, shipTo := some (channelPa pa), reloc := some (channelPa pa, 0, m) }) .near

/-- The meaning of XMIG. -/
def execXmig (f : FmtR) (s : State) : Host.Outcome State Fault Refusal := meaning (.xmig f) none (xmigBody f) s

/-- The value of register `i` among shipped ones. -/
def shippedReg (ws : List Wr) (i : Nat) : Word :=
  match ws.find? (fun w => w.reg? == some i) with
  | some (.g _ x) => x
  | _ => 0

/-- The thread a context runs: the shipped registers, FLAGS, PTS and PC of a slot; every other register 0. -/
def Slot.shipped (t : Slot) (ws : List Wr) (ac : Nat) : Slot :=
  { Slot.initial with
    g := Vector.ofFn fun (i : Fin 64) => shippedReg ws i.val
    flags := (t.setFollow false).flags, pts := t.pts, pc := t.pc, st := .runnable, wakeAt := ac + 1 }

/-- The free context that takes a thread: the lowest-numbered one (DESIGN CHOICE, log entry 43). -/
def Channel.freeCtx (x : Channel) : Option Nat := (List.range 16).find? fun i => (aget x.ctxs i).isNone

/-- CONTEXT_TAKE: a free context takes a slot that waits for one; XMIG completes. -/
def execContextTake (c k : Nat) (s : State) : Host.Outcome State Fault Refusal :=
  answer <|
    let t := s.slot c k
    match t.shipTo, t.reloc with
    | some ch, some (_, _, m) =>
      match if s.routed (devOf c) (ch / 256) then (s.chan ch).freeCtx else none with
      | none => s
      | some i =>
        let s := s.as (.slot c k)
        let s := match t.reply with
          | some e => s.commit { e with writes := [] }
          | none => s
        let ws := match t.reply with
          | some e => e.writes
          | none => t.liveValues m
        let u := s.thread
        let s := s.setThread { u with st := .parked, wait := some .near, reply := none, stopReq := t.stopReq, shipTo := none, reloc := some (ch, i, m) }
        let l := ((s.core c).launch).getD 0
        let w := (s.windowOf ch l u.pc).map (·.1)
        let x := (s.chan ch).setUses w (· + 1)
        s.setChan ch { x with ctxs := aset x.ctxs i { thread := u.shipped ws s.ac, live := m, core := c, slot := k, launch := l, win := w,
                                                      fault := none, returning := false } }
    | _, _ => s

/-- The live registers of a slot written from a context, each filled, also one that was emptied there (DEDUCED, log entry 43). -/
def Slot.landed (t u : Slot) (m : BitVec 48) : Slot :=
  (List.range 48).foldl (fun t i => if liveReg m i then t.fill i ((u.gr i).setWidth 2048) else t) t

/-- FLAGS as a thread brings them home: its origin's FOLLOW stays. -/
def homeFlags (old new : Word) : Word := (new &&& ~~~(0x800 : Word)) ||| (old &&& 0x800)

/-- A context freed. -/
def State.freeCtx (s : State) (ch i : Nat) : State :=
  match aget (s.chan ch).ctxs i with
  | none => s
  | some x =>
    let y := (s.chan ch).setUses x.win (· - 1)
    s.setChan ch { y with ctxs := adel y.ctxs i }

/-- CONTEXT_FAULT_BACK: a context's fault ships its thread back; the origin slot is FAULTED with a record of the relocated
kind (R279). -/
def execContextFaultBack (ch i : Nat) (s : State) : Host.Outcome State Fault Refusal :=
  answer <|
    match aget (s.chan ch).ctxs i with
    | none => s
    | some x =>
      match x.fault with
      | none => s
      | some f =>
        if !s.routed (ch / 256) (devOf x.core) then s
        else
        let s := s.freeCtx ch i
        let t := (s.slot x.core x.slot).landed x.thread x.live
        let t := { t with pc := x.thread.pc, flags := homeFlags t.flags x.thread.flags, pts := max t.pts x.thread.pts, reloc := some (ch, i, x.live) }
        (s.setSlot x.core x.slot t).faultSlot x.core x.slot f 4 (BitVec.ofNat 64 (ch % 256))

/-- XRET. -/
def xretBody (_f : FmtR) (s : State) (_e : Eff) : Res :=
  match s.cur with
  | .ctx ch i =>
    match aget (s.chan ch).ctxs i with
    | some x => .sent (s.setChan ch { s.chan ch with ctxs := aset (s.chan ch).ctxs i { x with returning := true } }) .packets
    | none => .sent s .packets
  | _ => .fault (stepFault .priv 8 0)

/-- The meaning of XRET. -/
def execXret (f : FmtR) (s : State) : Host.Outcome State Fault Refusal := meaning (.xret f) none (xretBody f) s

/-- XRET_ARRIVAL: every packet of the thread applied, it returns to its origin slot (R280); a stop asked for meanwhile takes effect, and ends
following it (R126). -/
def execXretArrival (ch i : Nat) (s : State) : Host.Outcome State Fault Refusal :=
  answer <|
    match aget (s.chan ch).ctxs i with
    | none => s
    | some x =>
      if !x.returning || !s.ctxHolds ch i x .packets || !s.routed (ch / 256) (devOf x.core) then s
      else
        let s := s.freeCtx ch i
        let t := (s.slot x.core x.slot).landed x.thread x.live
        let s := s.setSlot x.core x.slot
          { t with pc := succPc x.thread.pc 1, flags := homeFlags t.flags x.thread.flags, pts := max (max t.pts x.thread.pts) t.near,
                   st := if t.stopReq then .stopped else .runnable, stopReq := false, wait := none, again := none, wakeAt := s.ac + 1, reloc := none }
        if t.stopReq then s.dropFollowers x.core x.slot else s

/-! ## Packets (R281, R282, R284) -/

/-- XUPD and XNRM. -/
def nearIssue (atMemory : Bool) (f : FmtR) (s : State) (e : Eff) : Res :=
  let t := f.ty.toNat
  let n := esize t
  let a := (s.ea f n).toNat
  if a % n != 0 then .fault (flt .align 0 8 a)
  else if apBase ≤ a ∧ a < winBase + 2 ^ 22 then .fault (flt .prot 0 8 a)
  else (s.reach s.cur a n .near).res fun l =>
    match l with
    | .scr _ _ => .fault (flt .prot 0 8 a)
    | .mem pa =>
      let c := s.myCore
      let s := s.noteAccess a l
      let x := s.core c
      let p : Packet := { atMemory := atMemory, core := c, slot := s.mySlot, num := x.nearNext + 1, pts := s.thread.pts, pa := pa, ty := t,
                          op := amoOp f, x := s.rs f.c, conds := x.fenced 6 }
      let s := s.setCore c { x with nearNext := x.nearNext + 1 }
      .done { s with packets := s.packets ++ [p] } e

/-- XUPD. -/
def xupdBody (f : FmtR) : State → Eff → Res := nearIssue true f

/-- The meaning of XUPD: it parks only until EA is checked. -/
def execXupd (f : FmtR) (s : State) : Host.Outcome State Fault Refusal := meaning (.xupd f) (some .near) (xupdBody f) s

/-- XNRM. -/
def xnrmBody (f : FmtR) : State → Eff → Res := nearIssue false f

/-- The meaning of XNRM. -/
def execXnrm (f : FmtR) (s : State) : Host.Outcome State Fault Refusal := meaning (.xnrm f) (some .near) (xnrmBody f) s

/-- A packet applied at its channel: XUPD at memory, the line evicted first when the filter shows it; XNRM at the slice
when it does. The issuer's near mark rises to the write timestamp, which a FENCEX that waits for it learns too (R226). -/
def State.applyPacket (s : State) (p : Packet) : State :=
  let ch := channelPa p.pa
  let ts := s.afterConds p.pts p.conds
  let s := if p.atMemory then (s.evictLine (p.pa / 64)).setPresent (p.pa / 64) false else s
  let n := esize p.ty
  let r := s.chanStore ch p.pa n (amoNew p.op p.ty (s.peek (.mem p.pa) n) p.x.toNat) ts
  let t := r.1.slot p.core p.slot
  let s := r.1.setSlot p.core p.slot { t with near := max t.near r.2 }
  s.setCore p.core ((s.core p.core).noteFence (fun x => match x with
    | .near c n => c == p.core && decide (p.num ≤ n)
    | _ => false) r.2)

/-- NEAR_PACKET_APPLY: a packet reaches its channel and is applied, or deferred at a locked row, or refused while the
deferral queue is full; packets of one thread to one address in issue order, and none at a poisoned line (R403). -/
def execNearPacketApply (i : Nat) (s : State) : Host.Outcome State Fault Refusal :=
  answer <|
    match s.packets[i]? with
    | none => s
    | some p =>
      let same (q : Packet) : Bool := q.core == p.core && q.slot == p.slot && q.pa == p.pa
      let ch := channelPa p.pa
      let x := s.chan ch
      if (s.packets.take i).any same || !s.condsDone p.conds || !s.placeReady (devOf p.core) (.mem p.pa) then s
      else
        let s' := { s with packets := dropAt s.packets i }
        if x.locks.any fun l => l.1 == rowPa p.pa then
          (if x.deferred.length < 32 then s'.setChan ch { x with deferred := x.deferred ++ [p] } else s)
        else s'.applyPacket p

/-! ## Row locks (R283, R284) -/

/-- The row of an address of the context's own channel. -/
def State.myRow (s : State) (a : Nat) : Chk (Nat × Nat × Nat) :=
  match s.cur with
  | .ctx ch i =>
    (s.nearPa a 2).bind fun pa => if channelPa pa != ch then .bad (flt .prot 2 8 a) else .ok (ch, i, rowPa pa)
  | _ => .bad (stepFault .priv 8 0)

/-- XRLK. -/
def xrlkBody (f : FmtR) (s : State) (e : Eff) : Res :=
  (s.myRow (s.rs f.a).toNat).res fun (ch, me, row) =>
    let x := s.chan ch
    match x.locks.find? (fun l => l.1 == row) with
    | some l => if l.2.1 = me then doneS s e f.d 0 else .park (.row ch row)
    | none => if 16 ≤ x.locks.length then doneS s e f.d 1 else doneS (s.setChan ch { x with locks := x.locks ++ [(row, me, s.launchNo)] }) e f.d 0

/-- The meaning of XRLK. -/
def execXrlk (f : FmtR) (s : State) : Host.Outcome State Fault Refusal := meaning (.xrlk f) none (xrlkBody f) s

/-- A row freed: its deferred packets are applied in arrival order, those at a poisoned line once it is rebuilt (R403). -/
def State.freeRow (s : State) (ch row : Nat) : State :=
  let x := s.chan ch
  let p := x.deferred.partition fun q => rowPa q.pa == row
  let q := p.1.partition fun q => s.dev.poisoned.contains (q.pa / 64)
  let s := s.setChan ch { x with locks := x.locks.filter (fun l => l.1 != row), deferred := p.2 }
  q.2.foldl (fun s q => s.applyPacket q) { s with packets := q.1 ++ s.packets }

/-- XRUL. -/
def xrulBody (f : FmtR) (s : State) (e : Eff) : Res :=
  (s.myRow (s.rs f.a).toNat).res fun (ch, me, row) =>
    .done (if (s.chan ch).locks.any fun l => l.1 == row && l.2.1 == me then s.freeRow ch row else s) e

/-- The meaning of XRUL. -/
def execXrul (f : FmtR) (s : State) : Host.Outcome State Fault Refusal := meaning (.xrul f) none (xrulBody f) s

/-- The row locks that a launch's threads took freed (R284). -/
def State.freeLocks (s : State) (ln : Nat) : State :=
  s.channels.foldl (fun s x =>
    (((s.chan x.1).locks.filter fun l => l.2.2 == ln).map (·.1)).foldl (fun s r => s.freeRow x.1 r) s) s

/-- The contexts and windows of a launch freed and emptied, and its threads' row locks (R284). -/
def State.freeNear (s : State) (ln : Nat) : State :=
  let s := s.freeLocks ln
  { s with channels := s.channels.map fun x =>
      (x.1, { x.2 with ctxs := x.2.ctxs.filter (fun z => z.2.launch != ln), windows := x.2.windows.filter (fun w => w.2.launch != ln) }) }

end Sys2Proof.Machine
end

