-- ==== Sys2Proof/Machine/Message.lean ====
section
/-! DEFINITION. Inboxes and messages (R293-R301): arrival, held senders, the spill queue, the gateway relay, and SEND, RECV,
LBACK and ISTAT; the arrival of a register-directed fill (R119). -/

namespace Sys2Proof.Machine

/-! ## A parked thread answered -/

/-- The completion of a thread that waits for an agent's answer, which comes from device `d`; the current thread stays the same. -/
def State.complete (s : State) (d : Nat) (w : Who) (e : Eff) : State :=
  if s.awaits w then ((s.as w).deliverReply d e).as s.cur else s

/-- A status written by the completion of a parked sender to core `c`. -/
def State.answerStatus (s : State) (c : Nat) (x : Option (Who × BitVec 8 × Eff)) (st : Nat) : State :=
  match x with
  | some (w, d, e) => s.complete (devOf c) w { e with writes := e.writes ++ wrS d (BitVec.ofNat 64 st) }
  | none => s

/-! ## The inbox (R287, R294, R295) -/

/-- Offset of the inbox words ARRIVED, TAKEN and LOST. -/
def inboxOff : Nat := 1022 * 4096

/-- A message enters an inbox, before every other one when `front`; ARRIVED rises under the store rule. -/
def Core.enterInbox (c : Core) (m : Msg) (front : Bool) : Core :=
  let r := c.scrStore inboxOff 8 (c.scr.readNat inboxOff 8 + 1) m.ts
  Core.count { r.1 with inbox := if front then m :: r.1.inbox else r.1.inbox ++ [m] } 15 0

/-- The poisoned line that holds back an access to the words of core `c`'s inbox (R403). -/
def State.inboxBad (s : State) (c : Nat) : Option Nat := s.spanBad c inboxOff 24

/-- LOST raised by one. -/
def Core.loseMessage (c : Core) (ts : Nat) : Core := (c.scrStore (inboxOff + 16) 8 (c.scr.readNat (inboxOff + 16) 8 + 1) ts).1

/-- The overflow slot, the highest of the reserve mask, when there is one. -/
def Core.overflowSlot (c : Core) : Option Nat := if c.reserve = 0 then none else some c.reserve.toNat.log2

/-- The overflow slot's ready bit set. -/
def Core.wakeOverflow (c : Core) : Core :=
  match c.overflowSlot with
  | some k => c.setSlot k { c.slot k with ready := true }
  | none => c

/-- Whether a slot waits in LBACK, which is served before any held sender. -/
def Core.lbackWaits (c : Core) : Bool := c.slots.toList.any fun t => t.st == .parked && t.wait == some .inboxRoom

/-- Held messages enter in order of arrival while there is room, and no poisoned line holds them back; the overflow slot is woken when
the inbox becomes full with a sender still held. -/
def State.admitHeld (s : State) (c : Nat) : List MsgFlight → State
  | [] => s.setCore c { s.core c with heldMsgs := [] }
  | f :: fs =>
    let x := s.core c
    if x.inbox.length < 32 ∧ !x.lbackWaits ∧ !x.saved ∧ (s.inboxBad c).isNone then
      let y : Core := { x.enterInbox f.msg false with heldMsgs := fs }
      let y := if y.inbox.length = 32 ∧ !fs.isEmpty then y.wakeOverflow else y
      State.admitHeld ((s.setCore c y).answerStatus c f.sender 0) c fs
    else s.setCore c { x with heldMsgs := f :: fs }

/-- A message arrives at its core: it enters the inbox, or the spill queue of a pre-empted core, and its sender completes;
or it is held, as it is at a poisoned line of the inbox page (R403). -/
def State.arrive (s : State) (f : MsgFlight) : State :=
  let x := s.core f.core
  if x.saved ∧ x.spill.length < 4096 ∧ x.heldMsgs.isEmpty then
    (s.setCore f.core { x with spill := x.spill ++ [f.msg] }).answerStatus f.core f.sender 0
  else if !x.saved ∧ x.inbox.length < 32 ∧ x.heldMsgs.isEmpty ∧ (s.inboxBad f.core).isNone then (s.setCore f.core (x.enterInbox f.msg false)).answerStatus f.core f.sender 0
  else
    let y : Core := { x with heldMsgs := x.heldMsgs ++ [f] }
    s.setCore f.core (if x.heldMsgs.isEmpty && (x.saved || x.inbox.length == 32) then y.wakeOverflow else y)

/-- Whether a message that arrives now is accepted at once. -/
def State.accepts (s : State) (c : Nat) : Bool :=
  let x := s.core c
  x.heldMsgs.isEmpty && if x.saved then decide (x.spill.length < 4096) else decide (x.inbox.length < 32) && (s.inboxBad c).isNone

/-- Whether the way of a message or fill from its sender to core `c` is open (R367). -/
def State.wayOpen (s : State) (x : Option (Who × BitVec 8 × Eff)) (c : Nat) : Bool :=
  match x with
  | some (w, _, _) => s.routed (s.standsOn w) (devOf c)
  | none => true

/-- MESSAGE_ARRIVAL: messages that gateways bring to one core arrive in their order (R294). -/
def execMessageArrival (i : Nat) (s : State) : Host.Outcome State Fault Refusal :=
  answer <|
    match s.msgs[i]? with
    | none => s
    | some f =>
      if (f.sender.isNone && (s.msgs.take i).any fun g => g.sender.isNone && g.core == f.core) || !s.wayOpen f.sender f.core then s
      else { s with msgs := dropAt s.msgs i }.arrive f

/-! ## SEND (R298) -/

/-- A message: payload bytes 0-55, and the header. -/
def message (payload : VReg) (tag : BitVec 32) (kind slot sender : Nat) : Line :=
  let hdr := sender % 2 ^ 20 + slot % 16 * 2 ^ 20 + kind % 16 * 2 ^ 24 + tag.toNat * 2 ^ 32
  BitVec.ofNat 512 (payload.toNat % 2 ^ 448 + hdr * 2 ^ 448)

/-- Whether a core may be sent to: placed in the issuing launch, or a gateway core (R13, R298). -/
def State.sendTo (s : State) (t : Nat) : Chk Nat :=
  if s.isGateway t || (s.isCompute t && (s.core t).launch.isSome && (s.core t).launch == s.myLaunch) then
    (s.wayTo (devOf s.myCore) (devOf t) (flt .prot 2)).bind fun _ => .ok t
  else .bad (flt .prot 2)

/-- READ(A) as a commons core number. -/
def State.target (s : State) (b : BitVec 8) : Chk Nat :=
  let a := (s.rs b).toNat
  if 2 ^ 20 ≤ a then .bad (flt .illegalOperand 2) else .ok a

/-- SEND. -/
def sendBody (f : FmtR) (s : State) (e : Eff) : Res :=
  ((s.target f.a).bind s.sendTo).res fun t =>
    let s := s.setFrom (devOf t)
    let m : Msg := { data := message (s.rv 0 f.c) f.imm 1 s.mySlot s.myCore, ts := s.thread.pts }
    let mine : MsgFlight := { core := t, msg := m, sender := some (s.cur, f.d, e) }
    if s.deferNow = 2 then .sent { s.popDefer with msgs := s.msgs ++ [mine] } .served
    else if s.accepts t then doneS (s.arrive { mine with sender := none }) e f.d 0
    else .sent (s.popDefer.arrive mine) .served

/-- The meaning of SEND. -/
def execSend (f : FmtR) (s : State) : Host.Outcome State Fault Refusal := meaning (.send f) (some .reply) (sendBody f) s

/-- SEND.r: a remote fill of a register; the kind of C is judged before it (R82 step 9). -/
def sendRBody (f : FmtR) (s : State) (e : Eff) : Res :=
  let r := f.imm.toNat / 256 % 128
  (((s.target f.a).bind fun t =>
    if 95 < r then .bad (flt .illegalOperand 7) else .ok t).bind s.sendTo).res fun t =>
    let s := s.setFrom (devOf t)
    let k := f.imm.toNat % 16
    let x : VReg := if r < 64 then (s.rs f.c).setWidth 2048 else s.rv 0 f.c
    let u := s.slot t k
    if (u.port r).isSome then .fault (flt .port 4)
    else
      let m : FillMsg := { core := t, slot := k, reg := r, val := x, ts := s.thread.pts, sender := some (s.cur, f.d, e) }
      if s.deferNow = 2 then .sent { s.popDefer with fills := s.fills ++ [m] } .served
      else
        match s.fillReg t k r x s.thread.pts with
        | some s => doneS s e f.d (if u.st = .idle then 2 else 0)
        | none => .sent { s.popDefer with fills := s.fills ++ [m] } .served

/-- The meaning of SEND.r. -/
def execSendR (f : FmtR) (s : State) : Host.Outcome State Fault Refusal := meaning (.sendR f) (some .reply) (sendRBody f) s

/-- REMOTE_FILL_ARRIVAL: a fill is applied or held, and its sender completes; an occupied holder refuses it for now, a port
faults its sender (R119, R120). -/
def execRemoteFillArrival (i : Nat) (s : State) : Host.Outcome State Fault Refusal :=
  answer <|
    match s.fills[i]? with
    | none => s
    | some m =>
      let u := s.slot m.core m.slot
      if !s.wayOpen m.sender m.core then s
      else
      let s' := { s with fills := dropAt s.fills i }
      if (u.port m.reg).isSome then
        (match m.sender with
         | some (w, _, _) => if s'.awaits w then (s'.as w).raise (flt .port 4) else s'
         | none => s')
      else
        match s'.fillReg m.core m.slot m.reg m.val m.ts with
        | some s => s.answerStatus m.core m.sender (if u.st = .idle then 2 else 0)
        | none => s

/-- SEND.far: the first gateway core accepts the message. The status that D receives is a free value: R298 assigns none on this path (log
entry 91). -/
def sendFarBody (f : FmtR) (s : State) (e : Eff) : Res :=
  (s.target f.a).res fun t =>
    let b := (s.rs f.b).toNat
    if 2048 ≤ b then .fault (flt .illegalOperand 3)
    else
      let m : Msg := { data := message (s.rv 0 f.c) f.imm 1 s.mySlot (2 ^ 20 - 1), ts := s.thread.pts }
      doneS { s with far := s.far ++ [{ commons := b, core := t, msg := m }] } e f.d (Config.farStatus s.ac s.myCore s.mySlot)

/-- The meaning of SEND.far. -/
def execSendFar (f : FmtR) (s : State) : Host.Outcome State Fault Refusal :=
  meaning (.sendFar f) (some .reply) (sendFarBody f) s

/-- GATEWAY_RELAY: the far message `i` leaves on a link toward another commons, is delivered in this one, or is discarded where no
such core exists, those to one core in their order (R294); a number past them names the message that another commons sends next,
which a gateway core accepts, for this commons or to pass it on. -/
def execGatewayRelay (i : Nat) (s : State) : Host.Outcome State Fault Refusal :=
  answer <|
    match s.far[i]? with
    | none =>
      (match s.env.far with
       | m :: ms => { s with far := s.far ++ [m], env := { s.env with far := ms } }
       | [] => s)
    | some m =>
      let s' := { s with far := dropAt s.far i }
      if (s.far.take i).any fun q => q.commons == m.commons && q.core == m.core then s
      else if m.commons = s.dev.commons then
        (if s.isCompute m.core || s.isGateway m.core then { s' with msgs := s'.msgs ++ [{ core := m.core, msg := m.msg, sender := none }] }
         else s')
      else if s.dev.links.any fun l => l.2.route != 0 && l.2.commons != s.dev.commons then
        { s' with dev := { s'.dev with farOut := s'.dev.farOut ++ [m] } }
      else s

/-! ## RECV, LBACK, ISTAT (R299-R301) -/

/-- The oldest message taken: TAKEN rises, and held senders are admitted. -/
def State.takeMessage (s : State) (c : Nat) (ms : List Msg) (ts : Nat) : State :=
  let x := s.core c
  let y := (Core.scrStore { x with inbox := ms } (inboxOff + 8) 8 (x.scr.readNat (inboxOff + 8) 8 + 1) ts).1
  (s.setCore c y).admitHeld c y.heldMsgs

/-- RECV and RECV.nw. -/
def recvForm (nw : Bool) (f : FmtR) (s : State) (e : Eff) : Res :=
  let c := s.myCore
  match (s.core c).inbox with
  | m :: ms => (s.spanClean c inboxOff 24).res fun _ =>
    doneV (s.takeMessage c ms (max s.thread.pts m.ts)) { e with pts := max e.pts m.ts } f.d (m.data.setWidth 2048)
  | [] => if nw then doneV s e f.d 0 else .park .message

/-- RECV. -/
def recvBody (f : FmtR) : State → Eff → Res := recvForm false f

/-- The meaning of RECV. -/
def execRecv (f : FmtR) (s : State) : Host.Outcome State Fault Refusal := meaning (.recv f) none (recvBody f) s

/-- RECV.nw. -/
def recvNwBody (f : FmtR) : State → Eff → Res := recvForm true f

/-- The meaning of RECV.nw. -/
def execRecvNw (f : FmtR) (s : State) : Host.Outcome State Fault Refusal := meaning (.recvNw f) none (recvNwBody f) s

/-- LBACK: a message into the own inbox. -/
def lbackBody (f : FmtR) (s : State) (e : Eff) : Res :=
  let c := s.myCore
  let x := s.core c
  if 32 ≤ x.inbox.length then .park .inboxRoom
  else (s.spanClean c inboxOff 24).res fun _ =>
    let m : Msg := { data := message (s.rv 0 f.c) f.imm 3 s.mySlot c, ts := s.thread.pts }
    -- this slot no longer waits: another LBACK may still, and held senders come after it
    let s := s.setThread { s.thread with wait := none, st := .runnable }
    let y := (s.core c).enterInbox m (f.mod.getLsbD 0)
    let y := if y.inbox.length = 32 ∧ !y.heldMsgs.isEmpty then y.wakeOverflow else y
    .done ((s.setCore c y).admitHeld c y.heldMsgs) e

/-- The meaning of LBACK. -/
def execLback (f : FmtR) (s : State) : Host.Outcome State Fault Refusal := meaning (.lback f) none (lbackBody f) s

/-- The word of ISTAT. -/
def Core.istat (c : Core) : Nat :=
  let ov := match c.overflowSlot with
    | some k => 2 ^ 16 + k * 2 ^ 12
    | none => 0
  c.scr.readNat (inboxOff + 16) 4 * 2 ^ 32 + ov + (if c.heldMsgs.isEmpty then 0 else 256) + c.inbox.length

/-- ISTAT. -/
def istatBody (f : FmtR) (s : State) (e : Eff) : Res :=
  (s.spanClean s.myCore inboxOff 24).res fun _ => doneS s e f.d (BitVec.ofNat 64 (s.core s.myCore).istat)

/-- The meaning of ISTAT. -/
def execIstat (f : FmtR) (s : State) : Host.Outcome State Fault Refusal := meaning (.istat f) none (istatBody f) s

end Sys2Proof.Machine
end

