-- ==== Sys2Proof/Machine/Queue.lean ====
section
/-! DEFINITION. Tasks (R302-R306), general queues (R307, R308), the gateway block queue (R309), in-network reduction (R310,
R311, R339) and LNCH (R312). -/

namespace Sys2Proof.Machine

/-! ## Task deques (R302, R305) -/

/-- One operation on a deque under the store rule of its timestamp pair at clock `pts`. -/
def State.dequeStore (s : State) (c pts : Nat) : State × Nat :=
  let x := s.core c
  let q := s.clampFold (foldOf c) x.dequeTs pts
  let w := max q.2 (x.dequeTs + 1)
  (q.1.setCore c { q.1.core c with dequeTs := w }, w)

/-- The top of a deque taken: the state, the entry, and the timestamp of the operation. -/
def State.takeTop (s : State) (c pts : Nat) : State × Option Task × Nat :=
  let r := s.dequeStore c pts
  let x := r.1.core c
  match x.deque with
  | t :: ts => (r.1.setCore c { x with deque := ts }, some t, r.2)
  | [] => (r.1, none, r.2)

/-- The bottom of a deque popped. -/
def State.popBottom (s : State) (c pts : Nat) : State × Option Task × Nat :=
  let r := s.dequeStore c pts
  let x := r.1.core c
  (r.1.setCore c { x with deque := x.deque.dropLast }, x.deque.getLast?, r.2)

/-- Deques looked at in order, each look an operation of its own: the state, the core and entry found, the timestamp. -/
def State.lookDeques (s : State) (pts : Nat) : List Nat → State × Option (Nat × Task) × Nat
  | [] => (s, none, pts)
  | c :: cs =>
    let r := s.takeTop c pts
    match r.2.1 with
    | some t => (r.1, some (c, t), r.2.2)
    | none => State.lookDeques r.1 (max pts r.2.2) cs

/-- The numbers above a cursor, then the rest: ascending after it, wrapping. -/
def afterWrap (xs : List Nat) (cur : Nat) : List Nat := xs.filter (fun x => decide (cur < x)) ++ xs.filter (fun x => decide (x ≤ cur))

/-- The placed cores of a fold for a launch, in ascending order. -/
def State.placedIn (s : State) (l : Option Nat) (f : Nat) : List Nat := (coresOf f).filter fun c => (s.core c).launch == l

/-- The placed cores of the other folds of a core's pasture. -/
def State.pastureMates (s : State) (l : Option Nat) (c : Nat) : List Nat :=
  ((List.range 16).map fun i => 128 * devOf c + c % 4096 / 128 * 16 + i).flatMap fun f => if f = foldOf c then [] else s.placedIn l f

/-- What a queue controller answers: the register writes, the timestamp, the next PC. -/
structure QueueAns where
  ws : List Wr
  ts : Nat
  pc : Option Word := none
  deriving DecidableEq, Repr

/-- TNEXT's and STEAL's answer. -/
def taskAns (d : BitVec 8) (t : Option Task) (ts : Nat) : QueueAns :=
  match t with
  | some t => { ws := wrS d t.pc ++ wrS (d + 1) t.frame, ts := max ts t.ts }
  | none => { ws := wrS d 0 ++ wrS (d + 1) 0, ts := ts }

/-- The cores that TNEXT looks at after its own: those of the fold after the fold cursor, then those of the pasture (R305). -/
def State.victims (s : State) (c : Nat) : List Nat × List Nat :=
  let x := s.core c
  ((afterWrap (s.placedIn x.launch (foldOf c)) x.foldCursor).filter (· != c), afterWrap (s.pastureMates x.launch c) x.pastCursor)

/-- Whether the controllers of every deque that a TNEXT may look at have nothing queued. -/
def State.searchIdle (s : State) (c : Nat) : Bool :=
  (c :: (s.victims c).1 ++ (s.victims c).2).all fun v => (s.fold (foldOf v)).qctlQ.isEmpty

/-- TNEXT served for core `c` where nothing comes between its looks. -/
def State.serveTnext (s : State) (c pts : Nat) (d : BitVec 8) : State × QueueAns :=
  let r := s.popBottom c pts
  match r.2.1 with
  | some t => (r.1, taskAns d (some t) r.2.2)
  | none =>
    let vs := s.victims c
    let q := r.1.lookDeques (max pts r.2.2) vs.1
    match q.2.1 with
    | some (v, t) => (q.1.setCore c { q.1.core c with foldCursor := v }, taskAns d (some t) q.2.2)
    | none =>
      let p := q.1.lookDeques q.2.2 vs.2
      match p.2.1 with
      | some (v, t) => (p.1.setCore c { p.1.core c with pastCursor := v }, taskAns d (some t) p.2.2)
      | none => (p.1, taskAns d none p.2.2)

/-- SPAWN served: the continuation pushed and the child entered, or status 1 and the successor. -/
def State.serveSpawn (s : State) (c pts : Nat) (child frame succ : Word) (d : BitVec 8) : State × QueueAns :=
  let r := s.dequeStore c pts
  let x := r.1.core c
  if 4096 ≤ x.deque.length then (r.1, { ws := wrS d 1, ts := r.2, pc := some succ })
  else
    (r.1.setCore c { x with deque := x.deque ++ [{ pc := succ, frame := frame, ts := pts }] }, { ws := wrS d 0, ts := r.2, pc := some child })

/-! ## General queues (R307, R308) -/

/-- Whether CAP is valid. -/
def capOk (n : Nat) : Bool := n != 0 && decide (n ≤ 2 ^ 24) && (n &&& (n - 1)) == 0

/-- HEAD, TAIL and CAP of a header in memory. -/
def State.qHead (s : State) (h p : Nat) : Nat := s.mem.readNat (h + 8 * p) 8
def State.qTail (s : State) (h p : Nat) : Nat := s.mem.readNat (h + 32 + 8 * p) 8
def State.qCap (s : State) (h : Nat) : Nat := s.mem.readNat (h + 64) 4

/-- The address of entry `i` of priority `p`. -/
def qEntry (hdr : Word) (cap p i : Nat) : Nat := (hdr + BitVec.ofNat 64 (128 + 8 * (cap * p + i % cap))).toNat

/-- The oldest waiting claim on a header, and the others. -/
def takeClaim (h : Nat) : List Claim → Option (Claim × List Claim)
  | [] => none
  | x :: xs => if x.hdr = h then some (x, xs) else (takeClaim h xs).map fun r => (r.1, x :: r.2)

/-- An operation on a header that changes nothing in it: its access under the store rule. -/
def State.qTouch (s : State) (h pts : Nat) : State × Nat := s.homeWrite (.mem h) 0 0 pts true

/-- The physical address of a header, two lines long, for a thread, and of ring entries; they lie in ordinary memory. -/
def State.qReach (s : State) (w : Who) (a n : Nat) (acc : Acc) : Chk Nat :=
  (s.reach w a n acc).bind fun l => match l with
    | .mem pa => if 64 < n ∧ s.dev.poisoned.contains (pa / 64 + 1) then .wait (.poisoned (pa / 64 + 1)) else .ok pa
    | .scr _ _ => .bad (flt .prot 2 acc.code a)

/-- QPUB served by the header's controller. -/
def State.serveQpub (s : State) (w : Who) (hdr : Word) (val : Word) (pri : Nat) (d : BitVec 8) (pts : Nat) : Chk (State × QueueAns) :=
  (s.qReach w hdr.toNat 128 .atomic).bind fun h =>
    let cap := s.qCap h
    let st (s : State) (ts n : Nat) : Chk (State × QueueAns) := .ok (s, { ws := wrS d (BitVec.ofNat 64 n), ts := ts })
    let fi := homeFold (h / 64)
    if !capOk cap then let r := s.qTouch h pts; st r.1 r.2 2
    else
      match takeClaim h ((s.fold fi).claims) with
      | some (c, rest) =>
        let r := s.qTouch h pts
        let s := r.1.setFold fi { r.1.fold fi with claims := rest }
        st (s.complete (fi / 128) c.who { c.eff with writes := c.eff.writes ++ wrS c.d val ++ wrS (c.d + 1) (BitVec.ofNat 64 pri), pts := max c.eff.pts r.2 }) r.2 0
      | none =>
        let t := s.qTail h pri
        if (t + 2 ^ 64 - s.qHead h pri) % 2 ^ 64 = cap then let r := s.qTouch h pts; st r.1 r.2 1
        else
          (s.qReach w (qEntry hdr cap pri t) 8 .store).bind fun en =>
            let s := s.tlbEnter w (qEntry hdr cap pri t)
            -- one access: header and entry take the same timestamp (R307)
            let r := s.homeWrite (.mem (h + 32 + 8 * pri)) 8 (t + 1) (max pts ((s.tsAt (.mem en)).2 + 1)) true
            let q := r.1.homeWrite (.mem en) 8 val.toNat r.2 true
            st q.1 (max r.2 q.2) 0

/-- The highest priority whose ring is not empty. -/
def State.qBest (s : State) (h : Nat) : Option Nat := [3, 2, 1, 0].find? fun p => s.qTail h p != s.qHead h p

/-- QCLM served by the header's controller; none when the claim is to wait, with the header. -/
def State.serveQclm (s : State) (w : Who) (hdr : Word) (nw : Bool) (d : BitVec 8) (pts : Nat) : Chk (State × Option QueueAns × Nat) :=
  (s.qReach w hdr.toNat 128 .atomic).bind fun h =>
    let cap := s.qCap h
    let st (s : State) (ts : Nat) (x y : Word) : Chk (State × Option QueueAns × Nat) := .ok (s, some { ws := wrS d x ++ wrS (d + 1) y, ts := ts }, h)
    if !capOk cap then let r := s.qTouch h pts; st r.1 r.2 0 (BitVec.ofInt 64 (-2))
    else
      match s.qBest h with
      | some p =>
        let i := s.qHead h p
        (s.qReach w (qEntry hdr cap p i) 8 .load).bind fun en =>
          let s := s.tlbEnter w (qEntry hdr cap p i)
          let v := s.mem.readNat en 8
          let q := s.homeWrite (.mem (h + 8 * p)) 8 (i + 1) (max pts (s.tsAt (.mem en)).1) true
          st (q.1.homeRead (.mem en) q.2 0 true).1 q.2 (BitVec.ofNat 64 v) (BitVec.ofNat 64 p)
      | none =>
        let r := s.qTouch h pts
        if nw then st r.1 r.2 0 (BitVec.ofInt 64 (-1)) else .ok (r.1, none, h)

/-- QSTAT: the four rings, under the load rule. -/
def State.serveQstat (s : State) (w : Who) (hdr : Word) (d : BitVec 8) (pts : Nat) : Chk (State × QueueAns) :=
  (s.qReach w hdr.toNat 128 .load).bind fun h =>
    let p := pts + 1
    let n (k : Nat) : Nat := min 65535 ((s.qTail h k + 2 ^ 64 - s.qHead h k) % 2 ^ 64)
    let r := s.homeRead (.mem h) p 0 true
    .ok (r.1, { ws := wrS d (BitVec.ofNat 64 (n 0 + n 1 * 2 ^ 16 + n 2 * 2 ^ 32 + n 3 * 2 ^ 48)), ts := max p r.2 })

/-! ## Requests to queue controllers -/

/-- The outcome of a request at its controller. -/
inductive Served where
  | answer (s : State) (a : QueueAns)
  | waits (s : State)
  /-- it cannot be served yet -/
  | again
  /-- a claim that finds 64 others waiting -/
  | noRoom
  | fault (f : FaultInfo)
  /-- a search goes on at the controller of fold `fi`, at clock `pts` -/
  | onward (s : State) (fi : Nat) (op : QueueOp) (pts : Nat)

/-- A check's outcome as a request's. -/
def Chk.served {α : Type} (c : Chk α) (f : α → Served) : Served :=
  match c with
  | .ok a => f a
  | .bad x => .fault x
  | .wait _ => .again

/-- A search that has found nothing so far: its next look, or TNEXT's empty answer (R305). -/
def State.lookOn (s : State) (pts : Nat) (d : BitVec 8) (fold past : List Nat) : Served :=
  match fold, past with
  | v :: _, _ => .onward s (foldOf v) (.look d fold past) pts
  | [], v :: _ => .onward s (foldOf v) (.look d [] past) pts
  | [], [] => .answer s (taskAns d none pts)

/-- A look of core `c`'s search at the first deque left. -/
def State.serveLook (s : State) (c pts : Nat) (d : BitVec 8) (fold past : List Nat) : Served :=
  match fold, past with
  | [], [] => .answer s (taskAns d none pts)
  | v :: vs, _ =>
    let r := s.takeTop v pts
    (match r.2.1 with
     | some t => .answer (r.1.setCore c { r.1.core c with foldCursor := v }) (taskAns d (some t) r.2.2)
     | none => r.1.lookOn (max pts r.2.2) d vs past)
  | [], v :: vs =>
    let r := s.takeTop v pts
    (match r.2.1 with
     | some t => .answer (r.1.setCore c { r.1.core c with pastCursor := v }) (taskAns d (some t) r.2.2)
     | none => r.1.lookOn (max pts r.2.2) d [] vs)

/-- TNEXT's first look, at the own deque. -/
def State.serveOwn (s : State) (c pts : Nat) (d : BitVec 8) : Served :=
  let r := s.popBottom c pts
  match r.2.1 with
  | some t => .answer r.1 (taskAns d (some t) r.2.2)
  | none => let vs := s.victims c; r.1.lookOn (max pts r.2.2) d vs.1 vs.2

/-- A request served for thread `w` of core `c` at clock `pts`. A claim that must wait joins the controller's 64 waiting
claims, or waits in the routers. -/
def State.serveQueue (s : State) (w : Who) (c pts : Nat) (e : Eff) (op : QueueOp) : Served :=
  match op with
  | .spawn child frame succ d => let r := s.serveSpawn c pts child frame succ d; .answer r.1 r.2
  | .tnext d => s.serveOwn c pts d
  | .look d fold past => s.serveLook c pts d fold past
  | .steal v d => let r := s.takeTop v pts; .answer r.1 (taskAns d r.2.1 r.2.2)
  | .qpub hdr val pri d => (s.serveQpub w hdr val pri d pts).served fun r => .answer r.1 r.2
  | .qstat hdr d => (s.serveQstat w hdr d pts).served fun r => .answer r.1 r.2
  | .qclm hdr nw d =>
    (s.serveQclm w hdr nw d pts).served fun (s', a, h) =>
      match a with
      | some a => .answer s' a
      | none =>
        let fi := homeFold (h / 64)
        let x := s'.fold fi
        if 64 ≤ x.claims.length then .noRoom
        else .waits (s'.setFold fi { x with claims := x.claims ++ [{ who := w, hdr := h, d := d, pts := pts, eff := e }] })

/-- The effect with a controller's answer. -/
def QueueAns.eff (a : QueueAns) (e : Eff) : Eff := { e with writes := e.writes ++ a.ws, pts := max e.pts a.ts, pc := a.pc }

/-- A request that joins a controller's queue. -/
def State.enqueue (s : State) (fi : Nat) (r : QueueReq) : State := s.setFold fi { s.fold fi with qctlQ := (s.fold fi).qctlQ ++ [r] }

/-- A request sent to the controller of fold `fi`: served at once when nothing is queued there, else queued. -/
def queueIssue (fi : Nat) (op : QueueOp) (s : State) (e : Eff) : Res :=
  let s := s.setFrom (fi / 128)
  let x := s.fold fi
  let queued (s : State) : Res := .sent (s.enqueue fi { who := s.cur, pts := s.thread.pts, eff := e, op := op }) .served
  if s.deferNow = 2 then queued s.popDefer
  else if !x.qctlQ.isEmpty then queued s.popDefer
  else
    match s.serveQueue s.cur s.myCore s.thread.pts e op with
    | .answer s a => .done s (a.eff e)
    | .waits s => .sent s.popDefer .served
    | .again | .noRoom => queued s.popDefer
    | .fault f => .fault f
    | .onward s fi op pts => .sent (s.popDefer.enqueue fi { who := s.cur, pts := pts, eff := e, op := op }) .served

/-- The address of the header of the general queue that a request is for, as its instruction gave it. -/
def QueueOp.hdr? (o : QueueOp) : Option Word :=
  match o with
  | .qpub hdr .. | .qclm hdr .. | .qstat hdr _ => some hdr
  | _ => none

/-- The header of the general queue that a request is for, at its physical address where it can be reached now. -/
def State.hdrOf (s : State) (r : QueueReq) : Option Nat :=
  r.op.hdr?.bind fun hdr =>
    match s.qReach r.who hdr.toNat 128 .load with
    | .ok h => some h
    | _ => none

/-- Whether two requests are for one general queue: one header, or, where one cannot be reached now, one address given. -/
def State.sameQueue (s : State) (r q : QueueReq) : Bool :=
  match s.hdrOf r, s.hdrOf q with
  | some x, some y => x == y
  | _, _ => r.op.hdr?.isSome && r.op.hdr? == q.op.hdr?

/-- Whether a request is a claim. -/
def QueueOp.isClaim (o : QueueOp) : Bool :=
  match o with
  | .qclm .. => true
  | _ => false

/-- A request that cannot be served yet, and the queue behind it: the requests of the same queue, of the claims alone where it is itself a
claim without room, stay behind it, in order of arrival (R29, R30, R308); the others go before it. -/
def State.passed (s : State) (r : QueueReq) (rs : List QueueReq) (claims : Bool) : List QueueReq :=
  let x := rs.partition fun q => s.sameQueue r q && (!claims || q.op.isClaim)
  x.2 ++ r :: x.1

/-- QUEUE_REQUEST_SERVICE: the oldest request of a controller is served; one that cannot be served yet lets those of other queues
pass. -/
def execQueueRequestService (f : Nat) (s : State) : Host.Outcome State Fault Refusal :=
  answer <|
    let x := s.fold f
    match x.qctlQ with
    | [] => s
    | r :: rs =>
      let s' := s.setFold f { x with qctlQ := rs }
      if !s'.awaits r.who then s'
      else
        match s'.serveQueue r.who (s'.as r.who).myCore r.pts r.eff r.op with
        | .answer s a => s.complete (f / 128) r.who (a.eff r.eff)
        | .waits s => s
        | .again => { s.setFold f { x with qctlQ := s.passed r rs false } with env := { s.env with walk := s.env.walk.tail } }
        | .noRoom => s.setFold f { x with qctlQ := s.passed r rs true }
        | .fault g => (s'.as r.who).fail g
        | .onward s fi op pts => s.enqueue fi { r with op := op, pts := pts }

/-! ## The instructions of OP 0x89 -/

/-- Whether the current thread is on a placed compute core. -/
def State.hasDeque (s : State) : Bool :=
  match s.cur with
  | .slot c _ => !s.isGateway c
  | _ => false

/-- SPAWN. -/
def spawnBody (f : FmtR) (s : State) (e : Eff) : Res :=
  let a := s.rs f.a
  match s.targetFault a with
  | some g => .fault { g with opnd := 2 }
  | none =>
    if !s.hasDeque then .fault { flt .prot with fetched := some a }
    else queueIssue (foldOf s.myCore) (.spawn a (s.rs f.b) (succPc s.thread.pc 1) f.d) (s.targetFetch a) e

/-- The meaning of SPAWN. -/
def execSpawn (f : FmtR) (s : State) : Host.Outcome State Fault Refusal := meaning (.spawn f) (some .reply) (spawnBody f) s

/-- The 32 bytes of a join frame after JOIN adds `delta` (R306). -/
def joinFrame (old : Nat) (delta : Int) : Nat :=
  let c := wrapNat 64 (sxInt 64 (imgGet old 0 8) + delta)
  let d := imgPut old 0 8 c
  if c = 0 then imgPut d 8 8 0 else d

/-- JOIN. -/
def joinBody (f : FmtR) (s : State) (e : Eff) : Res :=
  let a := (s.rs f.a).toNat
  let delta := f.imm.toInt
  (s.access a 32 .atomic).res fun l =>
    let r := s.rmwAt a l 32 1 fun old => joinFrame old delta
    let last := wrapNat 64 (sxInt 64 (imgGet r.2 0 8) + delta) == 0 && imgGet r.2 8 8 != 0
    let x : Nat := if last then imgGet r.2 8 8 else 0
    let y : Nat := if last then imgGet r.2 16 8 else 0
    .done r.1 { e with writes := e.writes ++ wrS f.d (BitVec.ofNat 64 x) ++ wrS (f.d + 1) (BitVec.ofNat 64 y) }

/-- The meaning of JOIN. -/
def execJoin (f : FmtR) (s : State) : Host.Outcome State Fault Refusal := meaning (.join f) (some .reply) (joinBody f) s

/-- TNEXT; on a gateway core it finds nothing. -/
def tnextBody (f : FmtR) (s : State) (e : Eff) : Res :=
  if !s.hasDeque then .done s { e with writes := e.writes ++ wrS f.d 0 ++ wrS (f.d + 1) 0 }
  else if s.deferNow ≠ 2 ∧ s.searchIdle s.myCore then let r := s.serveTnext s.myCore s.thread.pts f.d; .done r.1 (r.2.eff e)
  else queueIssue (foldOf s.myCore) (.tnext f.d) s e

/-- The meaning of TNEXT. -/
def execTnext (f : FmtR) (s : State) : Host.Outcome State Fault Refusal := meaning (.tnext f) (some .reply) (tnextBody f) s

/-- STEAL. -/
def stealBody (f : FmtR) (s : State) (e : Eff) : Res :=
  let v := (s.rs f.a).toNat
  let c := s.myCore
  if s.hasDeque && s.isCompute v && (s.core v).launch.isSome && (s.core v).launch == s.myLaunch && pastureOf v == pastureOf c then
    queueIssue (foldOf v) (.steal v f.d) s e
  else .fault (flt .prot 2)

/-- The meaning of STEAL. -/
def execSteal (f : FmtR) (s : State) : Host.Outcome State Fault Refusal := meaning (.steal f) (some .reply) (stealBody f) s

/-! ## The instructions of OP 0x8A -/

/-- The header of a general queue, aligned and checked: the fold of its controller. -/
def State.queueAt (s : State) (f : FmtR) (acc : Acc) : Chk Nat :=
  let a := (s.rs f.a).toNat
  if a % 128 != 0 then .bad (flt .align 2 acc.code a)
  else (s.qReach s.cur a 128 acc).bind fun h => .ok (homeFold (h / 64))

/-- QPUB. -/
def qpubBody (f : FmtR) (s : State) (e : Eff) : Res :=
  (s.queueAt f .atomic).res fun fi => queueIssue fi (.qpub (s.rs f.a) (s.rs f.b) (f.imm.toNat % 4) f.d) (s.tlbEnter s.cur (s.rs f.a).toNat) e

/-- The meaning of QPUB. -/
def execQpub (f : FmtR) (s : State) : Host.Outcome State Fault Refusal := meaning (.qpub f) (some .reply) (qpubBody f) s

/-- QCLM. -/
def qclmBody (f : FmtR) (s : State) (e : Eff) : Res :=
  (s.queueAt f .atomic).res fun fi => queueIssue fi (.qclm (s.rs f.a) (f.mod.getLsbD 0) f.d) (s.tlbEnter s.cur (s.rs f.a).toNat) e

/-- The meaning of QCLM. -/
def execQclm (f : FmtR) (s : State) : Host.Outcome State Fault Refusal := meaning (.qclm f) (some .reply) (qclmBody f) s

/-- QSTAT. -/
def qstatBody (f : FmtR) (s : State) (e : Eff) : Res :=
  (s.queueAt f .load).res fun fi => queueIssue fi (.qstat (s.rs f.a) f.d) (s.tlbEnter s.cur (s.rs f.a).toNat) e

/-- The meaning of QSTAT. -/
def execQstat (f : FmtR) (s : State) : Host.Outcome State Fault Refusal := meaning (.qstat f) (some .reply) (qstatBody f) s

/-! ## The gateway block queue (R309) -/

/-- One operation on a die's gateway queue under the store rule (DEDUCED, log entry 23). -/
def State.gwStore (s : State) (d pts : Nat) : State × Nat :=
  let x := s.die d
  let w := max pts (x.gwTs + 1)
  (s.setDie d { x with gwTs := w }, w)

/-- Waiting claims served while the entry of index NEXT is present. -/
def State.serveGw (s : State) (d ts : Nat) : Nat → State
  | 0 => s
  | n + 1 =>
    let x := s.die d
    match x.gwClaims, aget x.gwq x.gwNext with
    | c :: cs, some v =>
      let s := s.setDie d { x with gwClaims := cs, gwq := adel x.gwq x.gwNext, gwNext := (x.gwNext + 1) % 32768 }
      State.serveGw (s.complete (d / 4) c.who { c.eff with writes := c.eff.writes ++ wrS c.d v ++ wrS (c.d + 1) 0, pts := max c.eff.pts ts }) d ts n
    | _, _ => s

/-- The die of the gateway core that A names, to which a way leads (R367, R401). -/
def State.gwDie (s : State) (f : FmtR) : Chk Nat :=
  let a := (s.rs f.a).toNat
  if s.isGateway a then (s.wayTo (devOf s.myCore) (devOf a) (flt .prot 2)).bind fun _ => .ok (dieOf a) else .bad (flt .prot 2)

/-- QPUB.gw. -/
def qpubGwBody (f : FmtR) (s : State) (e : Eff) : Res :=
  (s.gwDie f).res fun d =>
    let v := s.rs f.b
    let i := v.toNat / 2 ^ 49
    let s := s.setFrom (d / 4)
    let x := s.die d
    let r := s.gwStore d s.thread.pts
    let e := { e with pts := max e.pts r.2 }
    if (aget x.gwq i).isSome ∨ 1024 ≤ (i + 32768 - x.gwNext) % 32768 then doneS r.1 e f.d 1
    else
      let y := r.1.die d
      doneS ((r.1.setDie d { y with gwq := aset y.gwq i v }).serveGw d r.2 y.gwClaims.length) e f.d 0

/-- The meaning of QPUB.gw. -/
def execQpubGw (f : FmtR) (s : State) : Host.Outcome State Fault Refusal := meaning (.qpubGw f) (some .reply) (qpubGwBody f) s

/-- QCLM.gw: on a gateway core only. -/
def qclmGwBody (f : FmtR) (s : State) (e : Eff) : Res :=
  match s.cur with
  | .slot c _ =>
    if !s.isGateway c then .fault (flt .prot)
    else
      let d := dieOf c
      let r := s.gwStore d s.thread.pts
      let x := r.1.die d
      match (if x.gwClaims.isEmpty then aget x.gwq x.gwNext else none) with
      | some v =>
        .done (r.1.setDie d { x with gwq := adel x.gwq x.gwNext, gwNext := (x.gwNext + 1) % 32768 })
          { e with writes := e.writes ++ wrS f.d v ++ wrS (f.d + 1) 0, pts := max e.pts r.2 }
      | none =>
        if f.mod.getLsbD 0 then .done r.1 { e with writes := e.writes ++ wrS f.d 0 ++ wrS (f.d + 1) (BitVec.allOnes 64), pts := max e.pts r.2 }
        else .sent (r.1.popDefer.setDie d { x with gwClaims := x.gwClaims ++ [{ who := s.cur, hdr := 0, d := f.d, pts := s.thread.pts, eff := e }] }) .served
  | _ => .fault (flt .prot)

/-- The meaning of QCLM.gw. -/
def execQclmGw (f : FmtR) (s : State) : Host.Outcome State Fault Refusal := meaning (.qclmGw f) (some .reply) (qclmGwBody f) s

/-- QSTAT.gw: a sample. -/
def qstatGwBody (f : FmtR) (s : State) (e : Eff) : Res :=
  (s.gwDie f).res fun d =>
    let s := s.setFrom (d / 4)
    let x := s.die d
    doneS s e f.d (BitVec.ofNat 64 (x.gwq.length * 2 ^ 16 + x.gwNext))

/-- The meaning of QSTAT.gw. -/
def execQstatGw (f : FmtR) (s : State) : Host.Outcome State Fault Refusal := meaning (.qstatGw f) (some .reply) (qstatGwBody f) s

/-! ## In-network reduction (R311, R339) -/

/-- A tree replaced. -/
def State.setTree (s : State) (t : Nat) (x : Tree) : State := { s with dev := { s.dev with trees := aset s.dev.trees t x } }

/-- Node number `n` of a tree: parent, slot, core. -/
def Tree.node (t : Tree) (n : Nat) : Nat × Nat × Nat := t.nodes.getD n (0xFFF, 0, 0)

/-- The node of a member slot. -/
def Tree.member (t : Tree) (c k : Nat) : Option Nat := (List.range t.nodes.length).find? fun n => (t.node n).2 == (k, c)

/-- Numbers sorted by a key, ascending. -/
def sortByKey (key : Nat → Nat) (xs : List Nat) : List Nat := xs.mergeSort fun a b => decide (key a ≤ key b)

/-- The children of a node, in ascending CORE. -/
def Tree.children (t : Tree) (n : Nat) : List Nat :=
  sortByKey (fun i => (t.node i).2.2) ((List.range t.nodes.length).filter fun i => i != 0 && (t.node i).1 == n)

/-- One step of a reduction: the tree's operation on every element; an f32 step sets no thread's flags (log entry 74). -/
def treeStep (vw ty op : Nat) (a b : VReg) : VReg :=
  let code := match op with
    | 0 => 1 | 1 => 5 | _ => 6
  ofElems ty ((List.range (lanes vw ty)).map fun i => amoNew code ty (elem ty a i) (elem ty b i))

/-- NRED. -/
def nredBody (f : FmtR) (s : State) (e : Eff) : Res :=
  let n := f.imm.toNat % 64
  match aget s.dev.trees n with
  | none => .fault (flt .illegalOperand 7)
  | some t =>
    if t.ty ≠ f.ty.toNat then .fault (flt .illegalOperand 9)
    else
      match (match s.cur with
        | .slot c k => t.member c k
        | _ => none) with
      | none => .fault (flt .prot)
      | some i =>
        -- the partial of this router passes to its parent's; a way that only comes back is waited for there (R367, R401)
        let up := if i = 0 then .ok () else s.wayTo (devOf s.myCore) (devOf (t.node (t.node i).1).2.2) (flt .prot)
        match up with
        | .bad x => .fault x
        | _ =>
        if (aget t.contribs i).isSome then .park (.round n)
        else .done (s.setTree n { t with contribs := aset t.contribs i (s.rv t.ty f.a), ts := max t.ts s.thread.pts }) e

/-- The meaning of NRED. -/
def execNred (f : FmtR) (s : State) : Host.Outcome State Fault Refusal := meaning (.nred f) (some .reply) (nredBody f) s

/-- REDUCTION_COMBINE: a router that has its contribution and its children's partials combines them and passes the result
on; the root's is the total. -/
def execReductionCombine (t n : Nat) (s : State) : Host.Outcome State Fault Refusal :=
  answer <|
    match aget s.dev.trees t with
    | none => s
    | some x =>
      let there := devOf (x.node n).2.2
      let ps := (x.children n).map fun i => if s.routed (devOf (x.node i).2.2) there then aget x.partials i else none
      match aget x.contribs n with
      | none => s
      | some v =>
        if (aget x.partials n).isSome || ps.any (·.isNone) || decide (x.nodes.length ≤ n) then s
        else
          let r := ps.foldl (fun a p => treeStep s.part.vw x.ty x.op a (p.getD 0)) v
          s.setTree t { x with partials := aset x.partials n r, total := if n = 0 then some r else x.total }

/-- REDUCTION_TOTAL_DELIVERY: the total reaches the root register as a remote fill, and the round closes. -/
def execReductionTotalDelivery (t : Nat) (s : State) : Host.Outcome State Fault Refusal :=
  answer <|
    match aget s.dev.trees t with
    | none => s
    | some x =>
      match x.total with
      | none => s
      | some v =>
        let nd := x.node 0
        let c := nd.2.2
        let k := nd.2.1
        let s' := s.setTree t { x with contribs := [], partials := [], ts := 0, total := none }
        if ((s.slot c k).port x.rootreg).isSome then s'.setCore c ((s'.core c).addFixed 12 1)
        else
          match s'.fillReg c k x.rootreg v x.ts with
          | some s => s
          | none => s

/-! ## LNCH (R312) -/

/-- LNCH: the record read, then appended as one operation at the header's home, record and TAIL at one timestamp. -/
def lnchBody (f : FmtR) (s : State) (e : Eff) : Res :=
  let a := (s.rs f.a).toNat
  let b := (s.rs f.b).toNat
  if a % 64 != 0 then .fault (flt .align 2 4 a)
  else if b % 64 != 0 then .fault (flt .align 3 2 b)
  else (s.reach s.cur b 64 .load).res fun lb => (s.reach s.cur a 64 .atomic).res fun la =>
    let h := s.peek la 64
    let head := imgGet h 0 8
    let tail := imgGet h 8 8
    let size := imgGet h 16 4
    let full := (tail + 2 ^ 64 - head) % 2 ^ 64 == size
    let slot := (s.rs f.a + BitVec.ofNat 64 (64 + 64 * (if size = 0 then 0 else tail % size))).toNat
    (if full then .ok la else s.reach s.cur slot 64 .store).res fun ls =>
      let r := s.loadAt b lb 64 1
      if full then
        let q := r.1.rmwAt a la 0 1 id
        doneS q.1 e f.d (BitVec.allOnes 64)
      else
        let q := (r.1.raisePts ((r.1.tsAt ls).2 + 1)).rmwAt (a + 8) (match la with
          | .mem pa => .mem (pa + 8)
          | .scr c o => .scr c (o + 8)) 8 1 (· + 1)
        doneS (q.1.storeAt slot ls 64 1 (imgPut r.2 17 1 1)) e f.d (BitVec.ofNat 64 tail)

/-- The meaning of LNCH. -/
def execLnch (f : FmtR) (s : State) : Host.Outcome State Fault Refusal := meaning (.lnch f) (some .reply) (lnchBody f) s

end Sys2Proof.Machine
end

