-- ==== Sys2Proof/Machine/Table.lean ====
section
/-! DEFINITION. The tables of a launch and of the device (R331, R336-R353): the instructions of OP 0x98, the completion of a
walk that no access waits for, and the freeing of a module. -/

namespace Sys2Proof.Machine

/-! ## Plats and handlers (R336, R337, R347, R348) -/

/-- The launch whose tables an instruction of SUB 0x00-0x04 names: a gateway core, and a system core, has none (R347). -/
def State.tableLaunch (s : State) : Chk Nat :=
  match s.cur with
  | .slot c _ =>
    if s.isGateway c then .bad (flt .prot)
    else match (s.core c).launch with
      | some l => .ok l
      | none => .bad (flt .prot)
  | _ => .bad (flt .prot)

/-- A plat entry of a launch set, or invalid when absent, in the table and in every fold's copy. -/
def State.setPlat (s : State) (l n : Nat) (r : Option Line) : State :=
  let put (xs : List (Nat × Line)) : List (Nat × Line) := match r with
    | some x => aset xs n x
    | none => adel xs n
  match s.launch? l with
  | none => s
  | some x =>
    let s := s.setLaunch l { x with plats := put x.plats }
    { s with folds := s.folds.map fun f => if f.2.launch == some l then (f.1, { f.2 with plats := put f.2.plats }) else f }

/-- The plat number of IMM32[11:0]. -/
def platNoOf (f : FmtR) : Nat := f.imm.toNat % 4096

/-- PLSET. -/
def plsetBody (f : FmtR) (s : State) (e : Eff) : Res :=
  s.tableLaunch.res fun l =>
    let a := (s.rs f.a).toNat
    if a % 64 != 0 then .fault (flt .align 2 2 a)
    else (s.access a 64 .load).res fun loc =>
      let r := s.loadAt a loc 64 1
      let rec_ : Line := BitVec.ofNat 512 r.2
      if !platValid rec_ then doneS r.1 e f.d 1
      else (s.launchWay l).res fun _ => doneS (r.1.setPlat l (platNoOf f) (some rec_)) e f.d 0

/-- The meaning of PLSET. -/
def execPlset (f : FmtR) (s : State) : Host.Outcome State Fault Refusal := meaning (.plset f) (some .reply) (plsetBody f) s

/-- PLGET: 8 bytes of the fold's copy; an entry never set reads as zero bytes. -/
def plgetBody (f : FmtR) (s : State) (e : Eff) : Res :=
  s.tableLaunch.res fun _ =>
    let i := (s.rs f.a).toNat
    if 7 < i then .fault (flt .illegalOperand 2)
    else
      let r := (aget (s.fold (foldOf s.myCore)).plats (platNoOf f)).getD 0
      doneS s e f.d (BitVec.ofNat 64 (lineField r (8 * i) 8))

/-- The meaning of PLGET. -/
def execPlget (f : FmtR) (s : State) : Host.Outcome State Fault Refusal := meaning (.plget f) (some .reply) (plgetBody f) s

/-- PLINV. -/
def plinvBody (f : FmtR) (s : State) (e : Eff) : Res := 
  s.tableLaunch.res fun l => (s.launchWay l).res fun _ => .done (s.setPlat l (platNoOf f) none) e

/-- The meaning of PLINV. -/
def execPlinv (f : FmtR) (s : State) : Host.Outcome State Fault Refusal := meaning (.plinv f) (some .reply) (plinvBody f) s

/-- HTSET. -/
def htsetBody (f : FmtR) (s : State) (e : Eff) : Res :=
  s.tableLaunch.res fun l =>
    let p := s.rs f.a
    let i := f.imm.toNat % 256
    if p != 0 && !isSlotAddr p then doneS s e f.d 1
    else
      match s.launch? l with
      | none => doneS s e f.d 1
      | some x => (s.launchWay l).res fun _ => doneS (s.setLaunch l { x with handlers := aset x.handlers i p, hcount := max x.hcount (i + 1) }) e f.d 0

/-- The meaning of HTSET. -/
def execHtset (f : FmtR) (s : State) : Host.Outcome State Fault Refusal := meaning (.htset f) (some .reply) (htsetBody f) s

/-! ## Reduction trees (R338, R349) -/

/-- The nodes of a descriptor, from its bytes after 16. -/
def treeNodes (d n : Nat) : List (Nat × Nat × Nat) :=
  (List.range n).map fun i => let w := imgGet d (8 * i) 8; (w / 2 ^ 24 % 4096, w / 2 ^ 20 % 16, w % 2 ^ 20)

/-- Whether the first 16 bytes of a descriptor are valid (R338). -/
def treeHeadOk (d : Nat) : Bool :=
  let ty := imgGet d 0 1
  let root := imgGet d 2 1
  let n := imgGet d 4 2
  (ty == 0x03 || ty == 0x04 || ty == 0x12) && decide (imgGet d 1 1 ≤ 2) && decide (64 ≤ root) && decide (root ≤ 95)
    && imgGet d 3 1 == 0 && decide (1 ≤ n) && decide (n ≤ 4096) && imgGet d 6 10 == 0

/-- Whether a list holds a number twice. -/
def hasTwice : List Nat → Bool
  | [] => false
  | x :: xs => xs.contains x || hasTwice xs

/-- Whether the nodes are valid for a launch (R338). -/
def State.treeNodesOk (s : State) (l d n : Nat) : Bool :=
  let ns := treeNodes d n
  let slots := ((s.launch? l).map (·.desc.slots)).getD 0
  ((List.range n).all fun i => imgGet d (8 * i) 8 / 2 ^ 36 == 0 && let p := (ns.getD i (0, 0, 0)).1; if i = 0 then p == 0xFFF else decide (p < i))
    && !hasTwice (ns.map (·.2.2))
    && ns.all fun x => s.isCompute x.2.2 && (s.core x.2.2).launch == some l && decide (x.2.1 < slots)

/-- Whether a tree has an open round (R311). -/
def Tree.isOpen (t : Tree) : Bool := !t.contribs.isEmpty || t.total.isSome

/-- TRSET. -/
def trsetBody (f : FmtR) (s : State) (e : Eff) : Res :=
  s.tableLaunch.res fun l =>
    let a := (s.rs f.a).toNat
    let n := f.imm.toNat % 64
    if a % 64 != 0 then .fault (flt .align 2 2 a)
    else (s.reachSpan a 16 .load).res fun hs =>
      let r := s.loadSpan a hs
      let d := r.2
      let cnt := imgGet d 4 2
      if !treeHeadOk d then doneS r.1 e f.d 1
      else (r.1.reachSpan (a + 16) (8 * cnt) .load).res fun ls =>
        let q := r.1.loadSpan (a + 16) ls
        let old := aget s.dev.trees n
        if !q.1.treeNodesOk l q.2 cnt then doneS q.1 e f.d 1
        else if (old.map Tree.isOpen).getD false then doneS q.1 e f.d 2
        else if (old.map fun t => t.owner != l).getD false then doneS q.1 e f.d 3
        else (s.launchWay l).res fun _ =>
          doneS (q.1.setTree n { owner := l, ty := imgGet d 0 1, op := imgGet d 1 1, rootreg := imgGet d 2 1, nodes := treeNodes q.2 cnt, contribs := [], partials := [], ts := 0, total := none }) e f.d 0

/-- The meaning of TRSET. -/
def execTrset (f : FmtR) (s : State) : Host.Outcome State Fault Refusal := meaning (.trset f) (some .reply) (trsetBody f) s

/-- TRSET.clr. -/
def trsetClrBody (f : FmtR) (s : State) (e : Eff) : Res :=
  s.tableLaunch.res fun l =>
    let n := f.imm.toNat % 64
    match aget s.dev.trees n with
    | some t =>
      if t.owner != l then doneS s e f.d 3
      else if t.isOpen then doneS s e f.d 2
      else (s.launchWay l).res fun _ => doneS { s with dev := { s.dev with trees := adel s.dev.trees n } } e f.d 0
    | none => doneS s e f.d 3

/-- The meaning of TRSET.clr. -/
def execTrsetClr (f : FmtR) (s : State) : Host.Outcome State Fault Refusal := meaning (.trsetClr f) (some .reply) (trsetClrBody f) s

/-! ## Translation (R343, R344, R350, R351) -/

/-- A launch that is not Retired. -/
def State.liveLaunch (s : State) (n : Nat) : Option Launch := (s.launch? n).filter fun l => l.st != .retired

/-- The word of XLAT for a leaf. -/
def xlatWord (l : Leaf) (va : Nat) : Nat :=
  let bit (i j : Nat) : Nat := if l.pte.getLsbD i then 2 ^ j else 0
  2 ^ 63 + bit 2 62 + bit 3 61 + bit 4 60 + bit 5 59 + bit 6 58 + l.level * 2 ^ 56 + l.pa va

/-- A translation in an address space through the TLBs that serve core `c`, or by a walk from a root, for no slot; a valid leaf enters
those TLBs (R343). -/
def State.translateFor (s : State) (c sp root va : Nat) : State × Option Leaf :=
  match s.tlbHit c sp va with
  | some l => (if (tlbFind (s.core c).tlb sp va).isSome then s else s.enterLeaf c sp va l, some l)
  | none =>
    let l := s.walkFrom va 3 root
    let s := s.touchWalk (s.walkPath va 3 root)
    (match l with
     | some l => s.enterLeaf c sp va l
     | none => s, l)

/-- XLAT: never a fault for its address. A system core's goes through the TLBs of the device's first core (log entry 13). -/
def xlatBody (f : FmtR) (s : State) (e : Eff) : Res :=
  let a := (s.rs f.a).toNat
  let ans (s : State) (l : Option Leaf) : Res :=
    doneS s e f.d (match l with
      | some l => BitVec.ofNat 64 (xlatWord l a)
      | none => 0)
  match s.cur with
  | .sys _ =>
    match s.liveLaunch (s.rs f.b).toNat with
    | none => doneS s e f.d 3
    | some l =>
      let c := s.tlbCore s.cur
      let sp := (s.rs f.b).toNat
      if !canonical a then ans s none
      else
        match if (s.tlbHit c sp a).isSome then none else s.missWait c sp l.root a with
        | some x => .park x
        | none => let r := s.translateFor c sp l.root a; ans r.1 r.2
  | w => if canonical a then (s.translate w a true).res fun l => ans (s.tlbEnter w a) l else ans s none

/-- The meaning of XLAT. -/
def execXlat (f : FmtR) (s : State) : Host.Outcome State Fault Refusal := meaning (.xlat f) (some .reply) (xlatBody f) s

/-- The pending misses of a die that a test of TLB entries leaves: what their walks find would be dropped (R344). -/
def Die.dropMisses (d : Die) (drop : TlbEnt → Bool) : List Miss := d.misses.filter fun m => !drop ⟨m.space, 0, m.page, 0⟩

/-- A walker of pasture `p` that has become free begins the next miss that waits for one. -/
def State.nextWalk (s : State) (p : Nat) : State :=
  match s.dies.find? fun d => d.2.misses.any fun m => m.pasture == p && !m.walking with
  | none => s
  | some (d, x) =>
    match x.misses.findIdx? fun m => m.pasture == p && !m.walking with
    | none => s
    | some i => s.setDie d { x with misses := x.misses.modify i fun m => { m with walking := true } }

/-- Entries of every TLB that a test drops, and the walks whose results it drops: each frees its walker for the next miss that waits. -/
def State.dropTlbs (s : State) (drop : TlbEnt → Bool) : State :=
  let keep (l : List TlbEnt) : List TlbEnt := l.filter fun x => !drop x
  let ended := s.dies.flatMap fun d => d.2.misses.filter fun m => m.walking && drop ⟨m.space, 0, m.page, 0⟩
  let kept : State :=
    { s with
           cores := s.cores.map fun c => (c.1, { c.2 with tlb := keep c.2.tlb }),
           folds := s.folds.map fun f => (f.1, { f.2 with tlb := keep f.2.tlb }),
           dies := s.dies.map fun d => (d.1, { d.2 with tlb := keep d.2.tlb, tlbG := keep d.2.tlbG, misses := d.2.dropMisses drop }) }
  ended.foldl (fun s m => s.nextWalk m.pasture) kept

/-- Every TLB entry. -/
def State.tlbAll (s : State) : List TlbEnt :=
  (s.cores.flatMap fun c => c.2.tlb) ++ (s.folds.flatMap fun f => f.2.tlb) ++ s.dies.flatMap fun d => d.2.tlb ++ d.2.tlbG

/-- Whether a physical address lies in the page of one of these entries. -/
def inPages (es : List TlbEnt) (pa : Nat) : Bool :=
  es.any fun e => decide (ptePa e.leaf ≤ pa) && decide (pa < ptePa e.leaf + 2 ^ pageBits e.level)

/-- The threads that a state holds: of slots, of contexts, of the system cores. -/
def State.threads (s : State) : List Who :=
  (s.cores.flatMap fun c => (List.range 16).map fun k => Who.slot c.1 k) ++ (s.channels.flatMap fun x => x.2.ctxs.map fun y => Who.ctx x.1 y.1)
    ++ (List.range 8).map .sys

/-- The accesses under way that were translated with one of these entries (R344): packets, overlays whose lines have not arrived,
stalled fetches, waiting claims, vector accesses in progress, drains that have lines left to write. -/
def State.translated (s : State) (es : List TlbEnt) : List Cond :=
  let access (w : Who) : Cond := .access w (s.as w).thread.lastIssue
  (((s.packets ++ s.channels.flatMap fun x => x.2.deferred).filter fun p => inPages es p.pa).map fun p => .near p.core p.num)
    ++ (s.channels.flatMap fun x => (x.2.windows.filter fun w => !w.2.arrived && w.2.src.any fun ln => inPages es (64 * ln)).map fun w => .overlay x.1 w.1 w.2.base)
    ++ (s.cores.flatMap fun c => (List.range 16).filterMap fun k => ((c.2.slot k).fetchWait.filter fun ln => inPages es (64 * ln)).map fun ln => .fetch c.1 k ln)
    ++ (s.folds.flatMap fun x => (x.2.claims.filter fun y => inPages es y.hdr).map fun y => access y.who)
    ++ (s.threads.filter fun w => match (s.as w).thread.vec with
        | some v => v.todo.any fun u => match u.2.2 with
          | .mem pa => inPages es pa
          | .scr .. => false
        | none => false).map access
    ++ s.cores.filterMap fun c => (c.2.mrun.filter fun op => (op.left.getD []).any fun l => l.any fun u => match u.loc with
        | .mem pa => inPages es pa
        | .scr .. => false).map fun op => .matrix c.1 op.num

/-- A TLBINV of the entries that a test names: dropped, and completed once no access translated with one of them is left. -/
def tlbinvDone (f : FmtR) (drop : TlbEnt → Bool) (s : State) (e : Eff) : Res :=
  let cs := s.translated (s.tlbAll.filter drop)
  let s := s.dropTlbs drop
  if cs.isEmpty then doneS s e f.d 0
  else .sent (s.setThread { s.thread with reply := some { e with writes := e.writes ++ wrS f.d 0 } }) (.settled cs)

/-- The address space a TLBINV names: the launch's, or on a system core that of the launch in B; none is status 3. -/
def State.tlbSpace (s : State) (f : FmtR) : Option Nat :=
  match s.cur with
  | .sys _ => (s.liveLaunch (s.rs f.b).toNat).map fun _ => (s.rs f.b).toNat
  | w => some (s.space w)

/-- TLBINV.a. -/
def tlbinvABody (f : FmtR) (s : State) (e : Eff) : Res :=
  match s.tlbSpace f with
  | none => doneS s e f.d 3
  | some sp =>
    let a := (s.rs f.a).toNat
    (s.launchWay sp).res fun _ => tlbinvDone f (fun x => x.space == sp && a % 2 ^ 57 / 2 ^ pageBits x.level == x.page) s e

/-- The meaning of TLBINV.a. -/
def execTlbinvA (f : FmtR) (s : State) : Host.Outcome State Fault Refusal := meaning (.tlbinvA f) (some .reply) (tlbinvABody f) s

/-- TLBINV.l. -/
def tlbinvLBody (f : FmtR) (s : State) (e : Eff) : Res :=
  match s.tlbSpace f with
  | none => doneS s e f.d 3
  | some sp => (s.launchWay sp).res fun _ => tlbinvDone f (fun x => x.space == sp) s e

/-- The meaning of TLBINV.l. -/
def execTlbinvL (f : FmtR) (s : State) : Host.Outcome State Fault Refusal := meaning (.tlbinvL f) (some .reply) (tlbinvLBody f) s

/-- TLBINV.g, of a system core: every entry of every launch; a B that names no live launch is status 3 here too (R347). -/
def tlbinvGBody (f : FmtR) (s : State) (e : Eff) : Res :=
  match s.liveLaunch (s.rs f.b).toNat with
  | none => doneS s e f.d 3
  | some _ => (s.launchesWay fun _ => true).res fun _ => tlbinvDone f (fun _ => true) s e

/-- The meaning of TLBINV.g. -/
def execTlbinvG (f : FmtR) (s : State) : Host.Outcome State Fault Refusal := meaning (.tlbinvG f) (some .reply) (tlbinvGBody f) s

/-! ## Walks (R331, R343) -/

/-- The threads that wait for a walk. -/
def State.walkers (s : State) (d space page : Nat) : List Who := s.threads.filter fun w => (s.as w).thread.wait == some (.walk d space page)

/-- A walk that ends: its entries read at their homes; a valid leaf enters the TLBs of every merged requester, counted as misses of
their slots and one walk of each core (R343, R363); an invalid result is delivered as they issue again. -/
def State.endWalk (s : State) (d : Nat) (m : Miss) (va : Nat) : State :=
  let ws := s.walkers d m.space m.page
  let s := s.touchWalk (s.walkPath va 3 m.root)
  let s := match s.walkFrom va 3 m.root with
    | none => s
    | some l =>
      let s := ws.foldl (fun (s : State) w => (s.countFor w 13).enterLeaf (s.tlbCore w) m.space va l) s
      (ws.map s.tlbCore).eraseDups.foldl (fun (s : State) c => s.setCore c ((s.core c).count 14 0)) s
  let x := s.die d
  (s.setDie d { x with misses := x.misses.filter fun y => !(y.space == m.space && y.page == m.page) }).nextWalk m.pasture

/-- The slot of core `c` that runs ahead into the page of `va`: the first whose PC, or the line after it, lies there (R123; log entry
77). -/
def State.aheadSlot (s : State) (c va : Nat) : Nat :=
  ((List.range 16).find? fun k =>
    let t := s.slot c k
    let at_ (a : Nat) : Bool := a % 2 ^ 57 / 65536 == va % 2 ^ 57 / 65536
    t.st != .idle && t.st != .ended && !t.follow && (at_ (t.pc.toNat / 64 * 64) || at_ (t.pc.toNat / 64 * 64 + 64))).getD 16

/-- A run-ahead fetch's translation by core `c`, charged to the slot that runs ahead; while the pending misses have no room it is
dropped (R123, R343). -/
def State.aheadWalk (s : State) (c va : Nat) : State :=
  let w : Who := .slot c 0
  let sp := s.space w
  let hit := (s.tlbHit c sp va).isSome
  if (tlbFind (s.core c).tlb sp va).isSome || (!hit && decide (256 ≤ (s.die (dieOf c)).misses.length)) then s
  else
    let k := s.aheadSlot c va
    let s := s.setCore c ((s.core c).count 13 k)
    let s := if hit then s else s.setCore c ((s.core c).count 14 k)
    (s.translateFor c sp (s.rootOf w) va).1

/-- TLB_WALK_COMPLETION: the walk for the page of `va` that core `c`'s die has pending for its launch ends, once none of its entries
is poisoned; or one that no access waits for, of run-ahead fetch or IPF (R123, R134, R343). -/
def execTlbWalkCompletion (c : Nat) (va : Word) (s : State) : Host.Outcome State Fault Refusal :=
  answer <|
    let d := dieOf c
    let sp := s.space (.slot c 0)
    let poisoned (root : Nat) : Bool := (s.walkPath va.toNat 3 root).any fun a => s.dev.poisoned.contains (a / 64)
    match (s.die d).misses.find? fun m => m.space == sp && m.page == va.toNat % 2 ^ 57 / 65536 with
    | some m => if !m.walking || poisoned m.root then s else s.endWalk d m va.toNat
    | none =>
      if (s.core c).launch.isSome && canonical va.toNat && !poisoned (s.rootOf (.slot c 0)) then s.aheadWalk c va.toNat else s

/-! ## Modules (R345, R346, R352, R353) -/

/-- Module table entry `m`. -/
def State.moduleAt (s : State) (m : Nat) : Module := (aget s.dev.modules m).getD {}

/-- That entry replaced. -/
def State.setModule (s : State) (m : Nat) (x : Module) : State := { s with dev := { s.dev with modules := aset s.dev.modules m x } }

/-- Whether two byte ranges overlap. -/
def rangesMeet (a n b m : Nat) : Bool := n != 0 && m != 0 && decide (a < b + m) && decide (b < a + n)

/-- What MODLD answers: the number of a FREE entry, or the code it refuses with. -/
def State.modldCode (s : State) (dbg : Bool) (base d : Nat) : Except Nat Nat :=
  let text := imgGet d 8 8
  let image := imgGet d 16 8
  let units := imgGet d 24 4
  let vwmin := imgGet d 28 4
  let present := if s.part.full then 3 else 0
  match (List.range 256).find? fun m => (s.moduleAt m).st == 0 with
  | none => .error 1
  | some m =>
    if imgGet d 36 28 != 0 || decide (image < text) then .error 2
    else if units &&& present != units || decide (s.part.vw < vwmin) then .error 3
    else if s.dev.modules.any fun x => x.2.st != 0 && rangesMeet base text x.2.textbase.toNat x.2.textsize.toNat then .error 4
    else if dbg && !s.dev.debugok then .error 5
    else .ok m

/-- MEASi extended with a digest (R398). -/
def Device.extend (d : Device) (i : Nat) (x : BitVec 512) : Device :=
  let bytes (y : BitVec 512) : List Byte := (List.range 64).map fun j => y.extractLsb' (8 * j) 8
  { d with meas := d.meas.setIfInBounds i (Config.shake256 (bytes ((d.meas[i]?).getD 0) ++ bytes x)) }

/-- Code lines of a byte range dropped from every instruction cache. -/
def State.dropCode (s : State) (base n : Nat) : State :=
  let keep (l : List (Nat × Line)) : List (Nat × Line) := l.filter fun x => !(decide (base / 64 ≤ x.1) && decide (64 * x.1 < base + n))
  { s with cores := s.cores.map fun c => (c.1, { c.2 with l1i := keep c.2.l1i }),
           folds := s.folds.map fun f => (f.1, { f.2 with l2i := keep f.2.l2i }),
           dies := s.dies.map fun d => (d.1, { d.2 with l3i := keep d.2.l3i }) }

/-- MODLD and MODLD.dbg: the record read, the entry made, no older line of TEXT left in an instruction cache, MEAS2 extended with the digest of the signature record that follows
the module record, when signed modules are required (R112, R398). -/
def modldForm (dbg : Bool) (f : FmtR) (s : State) (e : Eff) : Res :=
  let base := s.rs f.a
  let b := (s.rs f.b).toNat
  (s.reachSpan b 64 .load).res fun ls =>
    let r := s.loadSpan b ls
    match r.1.modldCode dbg base.toNat r.2 with
    | .error n => doneS r.1 e f.d (BitVec.ofNat 64 (2 ^ 63 + n))
    | .ok m =>
      -- the DIGEST of the signature record (R112)
      (if s.dev.reqsign then r.1.reachSpan (b + 72) 64 .load else .ok []).res fun ld =>
      let q := r.1.loadSpan (b + 72) ld
      let x : Module := { base := base, imagesize := BitVec.ofNat 64 (imgGet r.2 16 8), textbase := base, textsize := BitVec.ofNat 64 (imgGet r.2 8 8), record := s.rs f.b, use := 0, st := 1, debug := dbg, version := BitVec.ofNat 32 (imgGet r.2 4 4), units := BitVec.ofNat 32 (imgGet r.2 24 4) }
      let s' := (q.1.dropCode base.toNat (imgGet r.2 8 8)).setModule m x
      let s' := if s.dev.reqsign then { s' with dev := s'.dev.extend 2 (BitVec.ofNat 512 q.2) } else s'
      doneS s' e f.d (BitVec.ofNat 64 m)

/-- MODLD. -/
def modldBody (f : FmtR) : State → Eff → Res := modldForm false f

/-- The meaning of MODLD. -/
def execModld (f : FmtR) (s : State) : Host.Outcome State Fault Refusal := meaning (.modld f) (some .reply) (modldBody f) s

/-- MODLD.dbg. -/
def modldDbgBody (f : FmtR) : State → Eff → Res := modldForm true f

/-- The meaning of MODLD.dbg. -/
def execModldDbg (f : FmtR) (s : State) : Host.Outcome State Fault Refusal := meaning (.modldDbg f) (some .reply) (modldDbgBody f) s

/-- MODUL. -/
def modulBody (f : FmtR) (s : State) (e : Eff) : Res :=
  let m := f.imm.toNat % 256
  let x := s.moduleAt m
  match x.st with
  | 0 => doneS s e f.d 1
  | 1 =>
    let s := s.setModule m { x with st := 2 }
    .sent (s.setThread { s.thread with reply := some { e with writes := e.writes ++ wrS f.d 0 } }) (.moduleFree m)
  | _ => doneS s e f.d 2

/-- The meaning of MODUL. -/
def execModul (f : FmtR) (s : State) : Host.Outcome State Fault Refusal := meaning (.modul f) (some .reply) (modulBody f) s

/-- The threads whose MODUL waits for module `m` have their answer on its way. -/
def State.answerModul (s : State) (m : Nat) : State :=
  (s.threads.filter fun w => (s.as w).thread.wait == some (.moduleFree m)).foldl (fun (s : State) w =>
    let x := s.as w
    (x.setThread { x.thread with wait := some .reply }).as s.cur) s

/-- MODULE_FREE: an UNLOADING module that no launch uses leaves every instruction cache, its entry is FREE, and its MODUL is
answered. -/
def execModuleFree (m : Nat) (s : State) : Host.Outcome State Fault Refusal :=
  answer <|
    let x := s.moduleAt m
    if x.st = 2 ∧ x.use = 0 then ((s.dropCode x.textbase.toNat x.textsize.toNat).setModule m {}).answerModul m else s

end Sys2Proof.Machine
end

