-- ==== Sys2Proof/Machine/Counter.lean ====
section
/-! DEFINITION. Counters (R354-R364): barriers, the timer, clocks and performance counters, the instructions of OP 0xA0, and
what one ac of the arithmetic clock does to each core. -/

namespace Sys2Proof.Machine

/-! ## Barriers (R355-R358) -/

/-- Barrier `b` of a launch replaced. -/
def State.setBarrier (s : State) (l b : Nat) (x : Barrier) : State :=
  match s.launch? l with
  | some y => s.setLaunch l { y with barriers := aset y.barriers b x }
  | none => s

/-- A member's arrival count. -/
def Barrier.count (x : Barrier) (m : Nat × Nat) : Option Nat := (x.members.find? fun y => y.1 == m).map (·.2)

/-- A member's arrival count set. -/
def Barrier.setCount (x : Barrier) (m : Nat × Nat) (n : Nat) : Barrier :=
  { x with members := (m, n) :: x.members.filter fun y => y.1 != m }

/-- The least arrival count over the members; a barrier with none keeps its phase. -/
def Barrier.least (x : Barrier) : Nat :=
  match x.members with
  | [] => x.phase
  | y :: ys => ys.foldl (fun m z => min m z.2) y.2

/-- T(k), `t0` being T(0). -/
def Barrier.mark (x : Barrier) (t0 k : Nat) : Nat := if k = 0 then t0 else (aget x.marks k).getD t0

/-- The phase `k` completed: T(k) from T(k-1) and the arrivals numbered up to k. -/
def Barrier.complete (t0 : Nat) (x : Barrier) (k : Nat) : Barrier :=
  let t := x.arrivals.foldl (fun m a => if a.1 ≤ k then max m a.2 else m) (x.mark t0 (k - 1))
  { x with phase := k, marks := aset x.marks k t }

/-- RECOMPUTE (R356): P rises to the least arrival count, phase by phase. -/
def Barrier.recompute (t0 : Nat) (x : Barrier) : Barrier :=
  let p := x.least
  let y := (List.range' (x.phase + 1) (p - x.phase)).foldl (Barrier.complete t0) x
  { y with arrivals := y.arrivals.filter fun a => decide (y.phase < a.1) }

/-- The device of a launch's barrier agent, that of the fold of ordinal 0 (R354). -/
def Launch.barDev (l : Launch) : Nat := l.folds.headD 0 / 128

/-- The launch and the barrier that a barrier instruction names, to whose agent a way leads (R367, R401). -/
def State.barrierOf (s : State) (f : FmtR) : Chk (Nat × Launch × Nat × Barrier) :=
  s.tableLaunch.bind fun l =>
    let b := f.imm.toNat % 64
    match s.launch? l with
    | none => .bad (flt .prot)
    | some x =>
      if x.desc.barriers ≤ b then .bad (flt .illegalOperand 7)
      else (s.wayTo (devOf s.myCore) x.barDev (flt .prot)).bind fun _ => .ok (l, x, b, s.barrier l b)

/-- The current slot as a member. -/
def State.me (s : State) : Nat × Nat := (s.myCore, s.mySlot)

/-- A slot as a barrier member. -/
def memberOfWho : Who → Nat × Nat
  | .slot c k => (c, k)
  | _ => (0, 16)

/-- An arrival made by member `m`, whose count is `n`, at clock `pts`. -/
def Barrier.arrive (x : Barrier) (t0 : Nat) (m : Nat × Nat) (n pts : Nat) : Barrier :=
  Barrier.recompute t0 { x.setCount m (n + 1) with arrivals := (n + 1, pts) :: x.arrivals }

/-- The first waiting arrival whose member has room (R356), and the others. -/
def Barrier.nextLate (x : Barrier) : Option (BarWait × List BarWait) :=
  (x.late.findIdx? fun w => ((x.count (memberOfWho w.who)).map fun n => decide (n < x.phase + 3)).getD false).bind fun i =>
    (x.late[i]?).map fun w => (w, dropAt x.late i)

/-- An operation that a barrier's agent held is answered: its thread completes, on a pre-empted core in its saved context (R358). -/
def State.answerBar (s : State) (l : Nat) (w : BarWait) (e : Eff) : State :=
  ((s.as w.who).deliverReply (((s.launch? l).map (·.barDev)).getD s.dev.devnum) e).as s.cur

/-- The arrivals that wait at a barrier served in order while there is room, at most `n` (R356). -/
def State.serveLate (s : State) (l b t0 : Nat) : Nat → State
  | 0 => s
  | n + 1 =>
    let x := s.barrier l b
    match x.nextLate with
    | none => s
    | some (w, rest) =>
      let k := (x.count (memberOfWho w.who)).getD 0
      let s := s.setBarrier l b (Barrier.arrive { x with late := rest } t0 (memberOfWho w.who) k w.pts)
      State.serveLate (s.answerBar l w { w.eff with writes := w.eff.writes ++ wrS w.d (BitVec.ofNat 64 (k + 1)) }) l b t0 n

/-- What a barrier's agent does after an operation on it: waiting arrivals that have room, then the BARWs whose phase has come. -/
def State.serveBarrier (s : State) (l b t0 : Nat) : State :=
  let s := s.serveLate l b t0 (s.barrier l b).late.length
  let x := s.barrier l b
  let p := x.waits.partition fun w => decide (w.phase ≤ x.phase)
  p.1.foldl (fun s w => s.answerBar l w { w.eff with pts := max w.eff.pts (x.mark t0 w.phase) }) (s.setBarrier l b { x with waits := p.2 })

/-- BARA, arriving; an arrival that would lead by 4 is held at the agent (R356). -/
def baraBody (f : FmtR) (s : State) (e : Eff) : Res :=
  (s.barrierOf f).res fun (l, y, b, x) =>
    let s := s.setFrom y.barDev
    match x.count s.me with
    | none => .fault (flt .prot)
    | some n =>
      if n = x.phase + 3 then
        let w : BarWait := { who := s.cur, d := f.d, pts := s.thread.pts, eff := e }
        .sent (s.popDefer.setBarrier l b { x with late := x.late ++ [w] }) (.lead b)
      else
        let s := s.setBarrier l b (x.arrive y.launchTs s.me n s.thread.pts)
        doneS (s.serveBarrier l b y.launchTs) e f.d (BitVec.ofNat 64 (n + 1))

/-- The meaning of BARA. -/
def execBara (f : FmtR) (s : State) : Host.Outcome State Fault Refusal := meaning (.bara f) (some .reply) (baraBody f) s

/-- BARA.join. -/
def baraJoinBody (f : FmtR) (s : State) (e : Eff) : Res :=
  (s.barrierOf f).res fun (l, y, b, x) =>
    let s := s.setFrom y.barDev
    match x.count s.me with
    | some n => doneS s e f.d (BitVec.ofNat 64 n)
    | none => doneS (s.setBarrier l b (x.setCount s.me x.phase)) e f.d (BitVec.ofNat 64 x.phase)

/-- The meaning of BARA.join. -/
def execBaraJoin (f : FmtR) (s : State) : Host.Outcome State Fault Refusal := meaning (.baraJoin f) (some .reply) (baraJoinBody f) s

/-- BARA.leave. -/
def baraLeaveBody (f : FmtR) (s : State) (e : Eff) : Res :=
  (s.barrierOf f).res fun (l, y, b, x) =>
    let s := s.setFrom y.barDev
    match x.count s.me with
    | none => doneS s e f.d (BitVec.ofNat 64 x.phase)
    | some _ =>
      let x := Barrier.recompute y.launchTs { x with members := x.members.filter fun m => m.1 != s.me }
      doneS ((s.setBarrier l b x).serveBarrier l b y.launchTs) e f.d (BitVec.ofNat 64 x.phase)

/-- The meaning of BARA.leave. -/
def execBaraLeave (f : FmtR) (s : State) : Host.Outcome State Fault Refusal := meaning (.baraLeave f) (some .reply) (baraLeaveBody f) s

/-- BARW, held at the agent until the phase has come. -/
def barwBody (f : FmtR) (s : State) (e : Eff) : Res :=
  (s.barrierOf f).res fun (l, y, b, x) =>
    let s := s.setFrom y.barDev
    let t := (s.rs f.a).toNat
    if x.phase < t then
      let w : BarWait := { who := s.cur, phase := t, pts := s.thread.pts, eff := e }
      .sent (s.popDefer.setBarrier l b { x with waits := x.waits ++ [w] }) (.phase b t)
    else .done s { e with pts := max e.pts (x.mark y.launchTs t) }

/-- The meaning of BARW. -/
def execBarw (f : FmtR) (s : State) : Host.Outcome State Fault Refusal := meaning (.barw f) (some .reply) (barwBody f) s

/-- The member that BARQ.m names. -/
def State.memberOf (s : State) (l : Nat) (a : Word) : Chk (Nat × Nat) :=
  let n := a.toNat
  let c := n % 2 ^ 20
  let k := n / 2 ^ 20 % 16
  if 2 ^ 24 ≤ n ∨ !s.isCompute c ∨ (s.core c).launch != some l ∨ (s.core c).nslots ≤ k then .bad (flt .illegalOperand 2) else .ok (c, k)

/-- The BARQ status word. -/
def Barrier.status (x : Barrier) (m : Nat × Nat) : Nat :=
  x.phase % 2 ^ 56 * 2 ^ 8 + match x.count m with
    | some n => 4 + (n - x.phase) % 4
    | none => 0

/-- BARQ and BARQ.m. -/
def barqBody (f : FmtR) (s : State) (e : Eff) : Res :=
  (s.barrierOf f).res fun (l, y, _, x) =>
    let s := s.setFrom y.barDev
    (if f.mod.getLsbD 0 then s.memberOf l (s.rs f.a) else .ok s.me).res fun m => doneS s e f.d (BitVec.ofNat 64 (x.status m))

/-- The meaning of BARQ. -/
def execBarq (f : FmtR) (s : State) : Host.Outcome State Fault Refusal := meaning (.barq f) (some .reply) (barqBody f) s

/-! ## Performance counters (R361-R364) -/

/-- CTRSEL. -/
def ctrselBody (f : FmtR) (s : State) (e : Eff) : Res :=
  let x := s.rs f.a
  let i := f.imm.toNat % 8
  let c := s.myCore
  let y := s.core c
  if x.toNat / 2 ^ 25 != 0 || decide (15 < x.toNat % 256) then .fault (flt .illegalOperand 2)
  else
    let y' : Core := { y with ctrCfg := y.ctrCfg.setIfInBounds i (x &&& ~~~(0x1000000 : Word)), ctrs := if x.getLsbD 24 then y.ctrs.setIfInBounds i 0 else y.ctrs }
    doneS (s.setCore c y') e f.d ((y.ctrCfg[i]?).getD 0)

/-- The meaning of CTRSEL. -/
def execCtrsel (f : FmtR) (s : State) : Host.Outcome State Fault Refusal := meaning (.ctrsel f) none (ctrselBody f) s

/-- CTRRD. -/
def ctrrdBody (f : FmtR) (s : State) (e : Eff) : Res :=
  let y := s.core s.myCore
  doneS s e f.d (BitVec.ofNat 64 (if f.mod.getLsbD 0 then (y.fixed[f.imm.toNat % 16]?).getD 0 else (y.ctrs[f.imm.toNat % 8]?).getD 0))

/-- The meaning of CTRRD. -/
def execCtrrd (f : FmtR) (s : State) : Host.Outcome State Fault Refusal := meaning (.ctrrd f) none (ctrrdBody f) s

/-! ## The timer (R359) -/

/-- An expiry: EXPIRIES counted and stored to the event word with a writer PTS of 0, and the period reloaded. -/
def Core.expire (c : Core) : Core :=
  if !c.expired then c
  else
    let c := { c with expiries := c.expiries + 1, expired := false, timer := c.period }
    (c.scrStore (c.event.toNat - winBase) 8 c.expiries 0).1

/-- The poisoned line that an expiry of core `c` is to store to, which holds it back (R403). -/
def State.expiryHeld (s : State) (c : Nat) : Option Nat :=
  let x := s.core c
  let ln := scrLine c (x.event.toNat - winBase)
  if x.expired && s.dev.poisoned.contains ln then some ln else none

/-- What an instruction that an expiry comes before waits for. -/
def State.afterExpiry (s : State) (c : Nat) : Chk Unit :=
  match s.expiryHeld c with
  | some ln => .wait (.poisoned ln)
  | none => .ok ()

/-- TIMSET; an expiry of the same ac comes first. -/
def timsetBody (f : FmtR) (s : State) (e : Eff) : Res :=
  let n := (s.rs f.a).toNat
  let a := (s.rs f.b).toNat
  let c := s.myCore
  let y := (s.core c).expire
  let per := f.mod.getLsbD 0
  if n != 0 && !(decide (winBase ≤ a) && decide (a < winBase + 4096 * y.scrPages)) then .fault (flt .prot 3 0 a)
  else if n != 0 && a % 8 != 0 then .fault (flt .align 3 0 a)
  else if n != 0 && per && decide (n < 64) then .fault (flt .illegalOperand 2)
  else (s.afterExpiry c).res fun _ => doneS (s.setCore c { y with timer := n, period := if per then n else 0, event := s.rs f.b }) e f.d (BitVec.ofNat 64 y.timer)

/-- The meaning of TIMSET. -/
def execTimset (f : FmtR) (s : State) : Host.Outcome State Fault Refusal := meaning (.timset f) none (timsetBody f) s

/-- TIMER_EXPIRY: a timer that has reached 0. -/
def execTimerExpiry (c : Nat) (s : State) : Host.Outcome State Fault Refusal :=
  answer (if (s.core c).expired && !(s.core c).saved && (s.expiryHeld c).isNone then s.setCore c (s.core c).expire else s)

/-! ## Clocks (R360) -/

/-- TSTMP. -/
def tstmpBody (f : FmtR) (s : State) (e : Eff) : Res :=
  let p := if f.mod.getLsbD 0 then max s.thread.pts (s.rs f.a).toNat else s.thread.pts
  doneS s { e with pts := max e.pts p } f.d (BitVec.ofNat 64 p)

/-- The meaning of TSTMP. -/
def execTstmp (f : FmtR) (s : State) : Host.Outcome State Fault Refusal := meaning (.tstmp f) none (tstmpBody f) s

/-- Device time in ns: an ac is 0.4 ns (R3). -/
def State.deviceTime (s : State) : Nat := s.ac * 2 / 5

/-- CLKRD. -/
def clkrdBody (f : FmtR) (s : State) (e : Eff) : Res :=
  doneS s e f.d (BitVec.ofNat 64 (if f.mod.getLsbD 0 then ((s.core s.myCore).fixed[0]?).getD 0 else s.deviceTime))

/-- The meaning of CLKRD. -/
def execClkrd (f : FmtR) (s : State) : Host.Outcome State Fault Refusal := meaning (.clkrd f) none (clkrdBody f) s

/-! ## One ac (R359, R361, R362) -/

/-- One ac of a core that is placed and not pre-empted: its cycles, its waiting slots, its timer. -/
def State.tickCore (s : State) (c : Nat) (x : Core) : Core :=
  if (x.launch.isNone && !s.isGateway c) || x.saved then x
  else
    let x := x.slots.toList.foldl (s.countSlot c) (x.addFixed 0 1)
    if x.timer = 0 then x else { x with timer := x.timer - 1, expired := x.expired || x.timer == 1 }

/-- A correction in an SRAM array counted: arrays below 2^20 are of the core of that number, those above of a slice (R403; log
entry 66). -/
def State.sramFix (s : State) (a : Nat) : State :=
  if a < 2 ^ 20 then s.setCore a ((s.core a).addFixed 11 1)
  else s.setFold (a - 2 ^ 20) { s.fold (a - 2 ^ 20) with ecc := (s.fold (a - 2 ^ 20)).ecc + 1 }

/-- The correction that the environment makes in this ac (R361, R403). -/
def State.takeFix (s : State) : State :=
  match s.env.fixes with
  | [] => s
  | 0 :: xs => { s with env := { s.env with fixes := xs } }
  | (n + 1) :: xs => State.sramFix { s with env := { s.env with fixes := xs } } n

/-- The skew events at scratchpads that are still to be reported (R366). -/
def State.reportDue (s : State) : State :=
  { s with cores := s.cores.map fun c => (c.1, { c.2 with skewDue := 0 }),
           dev := { s.dev with syslog := s.dev.syslog ++ s.cores.flatMap fun c => List.replicate c.2.skewDue ((c.2.launch).getD 0, skewMark) } }

/-- One ac of the arithmetic clock; the skew events at scratchpads in it are reported (R366). -/
def State.tick (s : State) : State :=
  let s := s.takeFix.reportDue
  { s with ac := s.ac + 1, cores := s.cores.map fun c => (c.1, s.tickCore c.1 c.2) }

end Sys2Proof.Machine
end

