-- ==== Sys2Proof/Machine/System.lean ====
section
/-! DEFINITION. Pre-emption and resumption (R23, R313, R375, R378-R383): saving and restoring a core, releasing folds, the
instructions PRMT and RESM, and the escalation of a shepherd's fault or a debug break. -/

namespace Sys2Proof.Machine

/-! ## Saving a core (R378) -/

/-- The streams of slot `k` at a save: appends written, also those that a fence still holds back; elements read ahead discarded. -/
def State.settleStreams (s : State) (c k : Nat) : State :=
  (s.slot c k).ports.foldl (fun s p =>
    match p.2.kind with
    | .output => s.writeAll c k p.1 p.2.buf.length
    | .input =>
      let t := s.slot c k
      match t.port p.1 with
      | some q => s.setSlot c k (t.setPort p.1 { q with buf := [], asked := 0, fault := none })
      | none => s
    | _ => s) s

/-- A slot as the save leaves it (R378, R379): out of follow mode; an instruction that waits on its own core's state, or for its
line, is saved not issued; one whose reply travels stays parked. -/
def Slot.saved (t : Slot) : Slot :=
  let t := if t.fetchWait.isSome then { t with fetchWait := none, again := none } else t
  let unissued : Bool := match t.wait with
    | some .follow => true
    | some w => w.isLocal && t.reply.isNone
    | none => false
  let t := if (t.st = .parked ∨ t.st = .held) ∧ unissued then { t with reply := none, wait := none, again := none, st := .runnable } else t
  { t.setFollow false with followBuf := [], bell := none }

/-- A weight slot as the save leaves it (R182). -/
def WSlot.saved (w : WSlot) : WSlot :=
  if w.valid = 0 then w else { w with reload := true, panels := Vector.replicate 4 0, scales := Vector.replicate 4 0 }

/-- Messages held at a core that is now saved enter its spill queue, their senders completing. -/
def State.spillHeld (s : State) (c : Nat) : State :=
  let x := s.core c
  let n := 4096 - x.spill.length
  let s := s.setCore c { x with spill := x.spill ++ (x.heldMsgs.take n).map (·.msg), heldMsgs := x.heldMsgs.drop n }
  (x.heldMsgs.take n).foldl (fun s f => s.answerStatus c f.sender 0) s

/-- A quiet core saved, in the order of R378. -/
def State.saveCore (s : State) (c : Nat) : State :=
  let s := (List.range 16).foldl (fun s k => (s.settleStreams c k).dropFollowers c k) s
  let x := s.core c
  let x := { x with slots := x.slots.map Slot.saved, wslots := x.wslots.map WSlot.saved }
  let s := s.setCore c x.withdraw
  let s := (s.ejectBay c 0).ejectBay c 1
  let s := s.setCore c { s.core c with pinned := [], l1 := [], saved := true, stopping := false }
  s.spillHeld c

/-! ## Restoring a core (R381) -/

/-- Slots that a fault stopped outside their shepherd's reach, runnable again (R375, R376). -/
def State.unbreak (s : State) (c : Nat) : State :=
  (s.core c).broke.foldl (fun s k => if (s.slot c k).st = .faulted then s.returnSlot c k 0 else s) s

/-- The entries of the device exception queue for a core that is resumed or whose launch ends, taken by Evoven Resident. -/
def State.takeExceptions (s : State) (c : Nat) : State :=
  { s with dev := { s.dev with excq := s.dev.excq.filter fun e => !(e.ccore == c && e.record.kind != 6) } }

/-- A saved core restored. -/
def State.resumeCore (s : State) (c : Nat) : State :=
  let s := (s.unbreak c).takeExceptions c
  let x := s.core c
  let held : List MsgFlight := x.spill.map fun m => { core := c, msg := m, sender := none }
  let x := { x with saved := false, broke := [], spill := [], heldMsgs := held ++ x.heldMsgs, lastSlot := 15 }
  let s := (s.setCore c x).admitHeld c x.heldMsgs
  -- a message is held at once where the saved inbox was full (R295)
  let s := if x.inbox.length = 32 ∧ !x.heldMsgs.isEmpty then s.setCore c (s.core c).wakeOverflow else s
  s.setCore c ((s.core c).unspillCapsules ((((s.core c).launch.bind s.launch?).map (·.handlers)).getD []))

/-! ## Cores and folds under other numbers (R247, R382) -/

/-- A thread renamed. -/
def renameWho (f : Nat → Nat) : Who → Who
  | .slot c k => .slot (f c) k
  | w => w

/-- A condition renamed. -/
def Cond.rename (f g : Nat → Nat) : Cond → Cond
  | .copy c n => .copy (f c) n
  | .field c d n => .field (f c) (g d) n
  | .stream c k r b n => .stream (f c) k r b n
  | .matrix c n => .matrix (f c) n
  | .key c n => .key (f c) n
  | .near c n => .near (f c) n
  | .thread ts => .thread ts
  | .access w a => .access (renameWho f w) a
  | .fetch c k ln => .fetch (f c) k ln
  | .overlay ch w b => .overlay ch w b

/-- A wait renamed. -/
def Wait.rename (f g : Nat → Nat) : Wait → Wait
  | .page c p => .page (f c) p
  | .poisoned ln => .poisoned (renameLine f ln)
  | .fence cs => .fence (cs.map (Cond.rename f g))
  | .settled cs => .settled (cs.map (Cond.rename f g))
  | w => w

/-- A place of an access renamed. -/
def Loc.rename (f : Nat → Nat) : Loc → Loc
  | .scr c o => .scr (f c) o
  | l => l

/-- A thread's own waits, stream fences and vector access renamed. -/
def Slot.rename (f g : Nat → Nat) (t : Slot) : Slot :=
  { t with wait := t.wait.map (Wait.rename f g),
           ports := t.ports.map fun p => (p.1, { p.2 with conds := p.2.conds.map fun y => (y.1, y.2.rename f g) }),
           vec := t.vec.map fun v => { v with todo := v.todo.map fun u => (u.1, u.2.1, u.2.2.rename f) } }

/-- A sender renamed. -/
def renameSender (f : Nat → Nat) (x : Option (Who × BitVec 8 × Eff)) : Option (Who × BitVec 8 × Eff) := x.map fun y => (renameWho f y.1, y.2)

/-- A copy command renamed. -/
def CopyCmd.rename (f g : Nat → Nat) (m : CopyCmd) : CopyCmd := { m with core := f m.core, conds := m.conds.map (Cond.rename f g) }

/-- What a core holds of others' work renamed: its threads' waits, its copy engine's commands, its fences, messages held for it. -/
def Core.rename (f g : Nat → Nat) (x : Core) : Core :=
  let cq := x.cq.map fun e => match e with
    | .cmd m => CopyEntry.cmd (m.rename f g)
    | .walk d k pc ts cs => CopyEntry.walk d k pc ts (cs.map (Cond.rename f g))
  { x with slots := x.slots.map (Slot.rename f g), cq := cq, crun := x.crun.map fun r => { r with cmd := r.cmd.rename f g }, cover := x.cover.map fun r => { r with cmd := r.cmd.rename f g }, fences := x.fences.map fun y => (y.1, y.2.map (Cond.rename f g)),
           heldMsgs := x.heldMsgs.map fun m => { m with core := f m.core, sender := renameSender f m.sender } }

/-- A field command renamed. -/
def FieldCmd.rename (f g : Nat → Nat) (m : FieldCmd) : FieldCmd :=
  { m with core := f m.core, conds := m.conds.map (Cond.rename f g),
           kind := match m.kind with
             | .mode n c k e d => .mode n (f c) k e d
             | k => k }

/-- A queued request's deques renamed. -/
def QueueOp.rename (f : Nat → Nat) : QueueOp → QueueOp
  | .steal v d => .steal (f v) d
  | .look d a b => .look d (a.map f) (b.map f)
  | o => o

/-- A barrier's members and the operations it holds renamed. -/
def Barrier.rename (f : Nat → Nat) (x : Barrier) : Barrier :=
  { x with members := x.members.map fun m => ((f m.1.1, m.1.2), m.2), late := x.late.map fun w => { w with who := renameWho f w.who },
           waits := x.waits.map fun w => { w with who := renameWho f w.who } }

/-- A fold's queued work renamed. -/
def Fold.rename (f g : Nat → Nat) (x : Fold) : Fold :=
  { x with fq := x.fq.map (FieldCmd.rename f g), frun := x.frun.map fun r => { r with cmd := r.cmd.rename f g },
           agentQ := x.agentQ.map fun r => { r with who := renameWho f r.who },
           agentWait := x.agentWait.map fun r => { r with who := renameWho f r.who },
           qctlQ := x.qctlQ.map fun r => { r with who := renameWho f r.who, op := r.op.rename f },
           claims := x.claims.map fun r => { r with who := renameWho f r.who } }

/-- A packet renamed. -/
def Packet.rename (f g : Nat → Nat) (p : Packet) : Packet := { p with core := f p.core, conds := p.conds.map (Cond.rename f g) }

/-- A channel's contexts and packets renamed. -/
def Channel.rename (f g : Nat → Nat) (x : Channel) : Channel :=
  { x with ctxs := x.ctxs.map fun y => (y.1, { y.2 with core := f y.2.core, thread := y.2.thread.rename f g }),
           deferred := x.deferred.map (Packet.rename f g) }

/-- Every mention, in work in flight, in trees and in barriers, of cores by `f` and of folds by `g`, and the cores and folds themselves moved: what the
device keeps track of while a launch changes its folds. -/
def State.rename (s : State) (f g : Nat → Nat) : State :=
  { s with cores := s.cores.foldl (fun l x => aset l (f x.1) (x.2.rename f g)) [],
           folds := s.folds.map fun x => (x.1, x.2.rename f g),
           channels := s.channels.map fun x => (x.1, x.2.rename f g),
           kmaps := s.kmaps.map fun m => (m.1, { m.2 with stale := m.2.stale.map fun y => (g y.1, y.2) }),
           posted := s.posted.map fun p => { p with core := f p.core, conds := p.conds.map (Cond.rename f g) },
           packets := s.packets.map (Packet.rename f g),
           chain := s.chain.map fun r => { r with core := f r.core, conds := r.conds.map (Cond.rename f g) },
           fills := s.fills.map fun m => { m with core := f m.core, sender := renameSender f m.sender },
           msgs := s.msgs.map fun m => { m with core := f m.core, sender := renameSender f m.sender },
           sysc := s.sysc.map fun r => { r with who := renameWho f r.who, conds := r.conds.map (Cond.rename f g) },
           dev := { s.dev with
             poisoned := s.dev.poisoned.map (renameLine f),
             trees := s.dev.trees.map fun t => (t.1, { t.2 with nodes := t.2.nodes.map fun x => (x.1, x.2.1, f x.2.2) }),
             sysThreads := s.dev.sysThreads.map (Slot.rename f g),
             launches := s.dev.launches.map fun l => (l.1, { l.2 with barriers := l.2.barriers.map fun b => (b.1, b.2.rename f) }) } }

/-- The core that a core of fold list `old` becomes under fold list `new`. -/
def moveCore (old new : List Nat) (c : Nat) : Nat :=
  match posOf (foldOf c) old with
  | some i => match new[i]? with
    | some f => 4096 * (f / 128) + 8 * (f % 128) + c % 8
    | none => c
  | none => c

/-- The fold that a fold becomes. -/
def moveFold (old new : List Nat) (f : Nat) : Nat :=
  match posOf f old with
  | some i => (new[i]?).getD f
  | none => f

/-! ## Fields of released folds (R247) -/

/-- A fold's saved field and queue, at a number no device has. -/
def Fold.away (x : Fold) : Fold := { x with lines := [], agentQ := [], agentWait := [], qctlQ := [], claims := [], l2i := [], tlb := [], spare := none }

/-- What stays with the slice when its field is saved: cache, agents, the spare; no field. -/
def Fold.left (x : Fold) : Fold :=
  { x with launch := none, laneBase := 0, lanes := [], fq := [], frun := none, facc := 0, fseq := 0, gmark := 0, gmarks := [],
           fflags := 0, fhalted := false, plats := [], maps := [], qways := 0 }

/-- A saved field brought to a slice. -/
def Fold.restored (x a : Fold) : Fold :=
  { x with launch := a.launch, laneBase := a.laneBase, lanes := a.lanes, fq := a.fq, frun := a.frun, facc := a.facc, fseq := a.fseq,
           gmark := a.gmark, gmarks := a.gmarks, fflags := a.fflags, fhalted := a.fhalted, plats := a.plats, maps := a.maps, qways := a.qways }

/-- A core that nothing of a launch is left on: its code cache and its usable banks stay. -/
def Core.bare (x : Core) : Core := { Core.initial with l1i := x.l1i, banks := x.banks, nslots := popBits 16 x.banks.toNat }

/-- A slot as its launch's end leaves it: its registers, and its state where it had stopped (R8, R115). -/
def Slot.left (t : Slot) : Slot :=
  { t with st := if t.st == .runnable || t.st == .parked || t.st == .held then .idle else t.st, wait := none, reply := none, stopReq := false,
           fetchWait := none, entry := false, bell := none, followBuf := [], ports := [], hold := none, posted := [], near := 0, subst := none,
           reloc := none, shipTo := none, again := none, vec := none, peer := none, outgoing := none }

/-- A core as a launch's end leaves it: what retirement does not change, which the next placement sets, stays (R8). -/
def Core.freed (x : Core) : Core :=
  { x.bare with slots := x.slots.map Slot.left, tiles := x.tiles, tags := x.tags, wslots := x.wslots, scr := x.scr, pageTs := x.pageTs,
                launchTs := x.launchTs, eseq := x.eseq, emarks := x.emarks }

/-- The folds of a pre-empted launch released: cores, fields and what is in flight for them stand under other numbers until the
launch is placed again. -/
def State.release (s : State) (n : Nat) : State :=
  match s.launch? n with
  | none => s
  | some l =>
    let old := l.folds
    let new := (List.range old.length).map fun i => 128 * awayDev n + i
    let cs := coresOfPlacement old l.desc.cores
    let left := (old.flatMap coresOf).map fun c => (c, (s.core c).bare)
    let s := s.rename (moveCore old new) (moveFold old new)
    let s := left.foldl (fun s x => s.setCore x.1 x.2) s
    let s := old.foldl (fun s f =>
      let s := (s.setFold (moveFold old new f) (s.fold f).away).setWays f 0
      s.setFold f (s.fold f).left) s
    let s := { s with dies := s.dies.map fun (d : Nat × Die) => (d.1, { d.2 with misses := d.2.misses.filter fun m => m.space != n }) }
    s.setLaunch n { (s.launch? n).getD l with folds := new, released := some cs }

/-! ## PRMT and RESM (R313) -/

/-- A core's work in progress that a release waits for: the field command under way (R247). -/
def State.quietFolds (s : State) (fs : List Nat) : Bool := fs.all fun f => (s.fold f).frun.isNone || (s.fold f).fhalted

/-- Issue stopped on cores (R378 step 1). -/
def State.stopCores (s : State) (cs : List Nat) : State :=
  cs.foldl (fun s c => s.setCore c { s.core c with stopping := true }) s

/-- The core of this device that PRMT and RESM name. -/
def State.ownCore (s : State) (a : Word) : Option Nat :=
  let c := 4096 * s.dev.devnum + a.toNat
  if a.toNat < 4096 ∧ (s.isCompute c ∨ s.isGateway c) then some c else none

/-- Whether the launch of a core is on its way out, so that nothing of it is to be saved: also one that an abort has put in Retiring, its
shepherd not ended (DEDUCED, log entry 50). -/
def State.coreEnding (s : State) (c : Nat) : Bool :=
  match (s.core c).launch with
  | none => true
  | some l => (s.slot c 0).st == .ended || ((s.launch? l).map fun x => x.st == .retiring || x.st == .retired).getD true

/-- PRMT of one core; messages held at it while it gets quiet enter its spill queue, since their senders may be its own slots (R378 steps 2
and 7). -/
def prmtBody (f : FmtR) (s : State) (e : Eff) : Res :=
  match s.ownCore (s.rs f.a) with
  | none => doneS s e f.d 3
  | some c =>
    if (s.core c).saved then doneS s e f.d 2
    else if s.coreEnding c then doneS s e f.d 1
    else if s.quietCore c then doneS (s.saveCore c) e f.d 0
    else .sent ((s.stopCores [c]).spillHeld c) (.quiet [c])

/-- The meaning of PRMT. -/
def execPrmt (f : FmtR) (s : State) : Host.Outcome State Fault Refusal := meaning (.prmt f) (some .reply) (prmtBody f) s

/-- A reply that a wait brings. -/
def awaitStatus (s : State) (e : Eff) (d : BitVec 8) (n : Nat) (w : Wait) : Res :=
  .sent (s.setThread { s.thread with reply := some { e with writes := e.writes ++ wrS d (BitVec.ofNat 64 n) } }) w

/-- PRMT.l: every core of a launch, with `.rel` its folds released. Each core is saved as it gets quiet, so that messages held at it,
whose senders may be cores of the launch that are still to be saved, enter its spill queue (R378 steps 2 and 7); while none is quiet,
those held at the stopped cores enter at once. -/
def prmtLBody (f : FmtR) (s : State) (e : Eff) : Res :=
  let n := (s.rs f.a).toNat
  match s.liveLaunch n with
  | none => doneS s e f.d 3
  | some l =>
    match l.st with
    | .retiring => awaitStatus s e f.d 0 (.launchDone n)
    | .preempted => doneS s e f.d 2
    | .running =>
      let cs := coresOfPlacement l.folds l.desc.cores
      let live := cs.filter fun c => !(s.core c).saved && !s.coreEnding c
      let rel := f.mod.getLsbD 1
      -- its last shepherd has ended: it is Retiring (R16, R23)
      if cs.all fun c => (s.slot c 0).st == .ended then awaitStatus s e f.d 0 (.launchDone n)
      else if live.all s.quietCore && (!rel || s.quietFolds l.folds) then
        let s := live.foldl State.saveCore s
        let s := cs.foldl (fun s c => s.setCore c { s.core c with saved := true }) s
        let s := s.setLaunch n { (s.launch? n).getD l with st := .preempted }
        doneS (if rel then s.release n else s) e f.d 0
      else
        let quiet := live.filter s.quietCore
        let rest := live.filter fun c => !s.quietCore c
        let s := if quiet.isEmpty then live.foldl State.spillHeld s else quiet.foldl State.saveCore s
        .sent (s.stopCores rest) (.quiet rest)
    | _ => doneS s e f.d 1

/-- The meaning of PRMT.l. -/
def execPrmtL (f : FmtR) (s : State) : Host.Outcome State Fault Refusal := meaning (.prmtL f) (some .reply) (prmtLBody f) s

/-- Whether the launch of a core has been aborted. -/
def State.coreAborted (s : State) (c : Nat) : Bool := (((s.core c).launch.bind s.launch?).map (·.aborted)).getD false

/-- RESM of one core; a launch pre-empted as a whole on kept folds is Running again, and one aborted meanwhile gives 3. -/
def resmBody (f : FmtR) (s : State) (e : Eff) : Res :=
  match s.ownCore (s.rs f.a) with
  | none => doneS s e f.d 3
  | some c =>
    if !(s.core c).saved then doneS s e f.d 2
    else if s.coreAborted c then doneS s e f.d 3
    else
      let s := s.resumeCore c
      match (s.core c).launch with
      | some n => match s.launch? n with
        | some l => doneS (if l.st = .preempted then s.setLaunch n { l with st := .running } else s) e f.d 0
        | none => doneS s e f.d 0
      | none => doneS s e f.d 0

/-- The meaning of RESM. -/
def execResm (f : FmtR) (s : State) : Host.Outcome State Fault Refusal := meaning (.resm f) (some .reply) (resmBody f) s

/-- RESM.l. -/
def resmLBody (f : FmtR) (s : State) (e : Eff) : Res :=
  let n := (s.rs f.a).toNat
  match s.liveLaunch n with
  | none => doneS s e f.d 3
  | some l =>
    if l.aborted then doneS s e f.d 3
    else if l.st ≠ .preempted then doneS s e f.d 2
    else
      match l.released with
      | none =>
        let s := ((coresOfPlacement l.folds l.desc.cores).filter fun c => (s.core c).saved).foldl State.resumeCore s
        doneS (s.setLaunch n { (s.launch? n).getD l with st := .running }) e f.d 0
      | some _ => awaitStatus (s.setLaunch n { l with st := .placing }) e f.d 0 (.launchRunning n)

/-- The meaning of RESM.l. -/
def execResmL (f : FmtR) (s : State) : Host.Outcome State Fault Refusal := meaning (.resmL f) (some .reply) (resmLBody f) s

/-! ## Escalation (R375, R376) -/

/-- The records of a core that go to the device exception queue while it has room: MSI-X vector 1 signals a KIND 5. -/
def State.enterExceptions (s : State) (c : Nat) : List FaultRec → State
  | [] => s.setCore c { s.core c with escal := [] }
  | r :: rs =>
    if s.dev.excq.length < 4096 then
      let x : ExcEntry := { record := r, launch := ((s.core c).launch).getD 0, ccore := c, time := s.deviceTime }
      let d := s.dev
      State.enterExceptions { s with dev := { d with excq := d.excq ++ [x], excCount := d.excCount + 1, msix := if r.kind = 5 then 1 :: d.msix else d.msix } } c rs
    else s.setCore c { s.core c with escal := r :: rs }

/-- SHEPHERD_FAULT_ESCALATION: a core whose slot 0 has faulted, or that a debug break stops, is pre-empted, and its records
enter the device exception queue. -/
def execShepherdFaultEscalation (c : Nat) (s : State) : Host.Outcome State Fault Refusal :=
  answer <|
    let x := s.core c
    if x.escal.isEmpty then s
    else if x.saved then s.enterExceptions c x.escal
    else if s.quietCore c then (s.saveCore c).enterExceptions c x.escal
    else s.spillHeld c

end Sys2Proof.Machine
end

