-- ==== Sys2Proof/Machine/Launch.lean ====
section
/-! DEFINITION. Launches (R16-R23, R35, R99, R101, R110, R287-R292, R346, R417): the dispatcher's take of a record, placement,
retirement, and the abort that the system cores order. -/

namespace Sys2Proof.Machine

/-! ## Reads in a launch's address space by the dispatcher -/

/-- The leaf of an address in an address space, from its tables. -/
def State.rootLeaf (s : State) (root va : Nat) : Option Leaf := if canonical va then s.walkFrom va 3 root else none

/-- The physical address of a byte of ordinary memory in an address space. -/
def State.rootPa (s : State) (root va : Nat) : Option Nat :=
  (s.rootLeaf root va).bind fun l => if l.pte.getLsbD 5 || l.pte.getLsbD 6 then none else some (l.pa va)

/-- The first address of a page of map memory. -/
def State.rootMapPage (s : State) (root va : Nat) : Option Nat :=
  (s.rootLeaf root va).bind fun l => if l.pte.getLsbD 5 then some (l.pa va) else none

/-- The `n` bytes from `va`, page piece by page piece; none where a page is not ordinary memory. -/
def State.readVa (s : State) (root va n : Nat) : Nat → Option Nat
  | 0 => some 0
  | pages + 1 =>
    if n = 0 then some 0
    else
      let k := min n (65536 - va % 65536)
      match s.rootPa root va with
      | none => none
      | some pa => (State.readVa s root (va + k) (n - k) pages).map fun r => s.mem.readNat pa k + r * 2 ^ (8 * k)

/-- The lines of the `n` bytes from `va` in an address space. -/
def State.rootLines (s : State) (root va n : Nat) : List Nat :=
  if n = 0 then [] else (List.range ((va + n - 1) / 64 - va / 64 + 1)).filterMap fun i => (s.rootPa root (64 * (va / 64 + i))).map (· / 64)

/-- `n` bytes of a table. -/
def State.readTable (s : State) (root va n : Nat) : Option Nat := s.readVa root va n (n / 65536 + 2)

/-! ## Descriptors (R110) -/

/-- A kernel descriptor's fields. -/
def descOf (d : Nat) : Desc :=
  { entry := BitVec.ofNat 64 (imgGet d 0 8), folds := imgGet d 8 2, cores := imgGet d 10 1, slots := imgGet d 11 1, fieldways := imgGet d 12 1,
    scrpages := imgGet d 13 1, barriers := imgGet d 14 1, fused := imgGet d 15 1 % 2 == 1, reserve := BitVec.ofNat 16 (imgGet d 16 2),
    pastures := imgGet d 18 1, devices := imgGet d 19 1 + 1, nplat := imgGet d 20 2, nmap := imgGet d 22 2, nhandler := imgGet d 24 2,
    plattab := BitVec.ofNat 64 (imgGet d 32 8), maptab := BitVec.ofNat 64 (imgGet d 40 8), handtab := BitVec.ofNat 64 (imgGet d 48 8),
    scrimg := BitVec.ofNat 64 (imgGet d 56 8), scrsize := imgGet d 64 4 }

/-- Whether the bytes are a descriptor: every field within its range and reserved bytes 0. -/
def descValid (d : Nat) : Bool :=
  let x := descOf d
  decide (1 ≤ x.folds) && decide (x.folds ≤ 128) && decide (1 ≤ x.cores) && decide (x.cores ≤ 8) && decide (1 ≤ x.slots) && decide (x.slots ≤ 16)
    && [0, 2, 4, 8, 12].contains x.fieldways && decide (1 ≤ x.scrpages) && decide (x.scrpages ≤ 64) && decide (x.barriers ≤ 64)
    && decide (imgGet d 15 1 ≤ 1) && !x.reserve.getLsbD 0 && decide (1 ≤ x.pastures) && decide (x.pastures ≤ 8) && decide (x.pastures ≤ x.folds)
    && decide (x.nplat ≤ 4096) && decide (x.nmap ≤ 256) && decide (x.nhandler ≤ 256) && decide (x.scrsize ≤ 4096 * x.scrpages)
    && imgGet d 26 6 == 0 && imgGet d 72 56 == 0

/-- The published or unloading module whose image, at the physical addresses by which MODLD names it (log entry 30), holds a
descriptor. -/
def State.moduleOf (s : State) (root va : Nat) : Option (Nat × Module) :=
  (s.rootPa root va).bind fun pa =>
    s.dev.modules.find? fun m => m.2.st != 0 && decide (m.2.base.toNat ≤ pa) && decide (pa + 128 ≤ m.2.base.toNat + m.2.imagesize.toNat)

/-! ## Completion (R21, R22) -/

/-- The completion word stored in a launch's address space at clock `ts`; none when the store cannot be made,
at a poisoned line too (R403). -/
def State.storeWord (s : State) (n root va v ts : Nat) : Option State :=
  if apBase ≤ va ∧ va < winBase then
    let t := (va - apBase) / 2 ^ 22
    let off := (va - apBase) % 2 ^ 22
    if (s.core t).launch = some n ∧ off / 4096 < (s.core t).scrPages ∧ !s.dev.poisoned.contains (scrLine t off) then some (s.homeWrite (.scr t off) 8 v ts true).1 else none
  else
    match s.rootLeaf root va with
    | none => none
    | some l => if (leafCheck l .store va).isSome || s.dev.poisoned.contains (l.pa va / 64) then none else some (s.homeWrite (.mem (l.pa va)) 8 v ts true).1

/-- Whether the line of RETSEQ of a launch's queue is poisoned, so that the launch cannot complete (R403). -/
def State.retHeld (s : State) (l : Launch) : Bool := s.dev.poisoned.contains ((((s.dev.rings[l.ring]?).map (·.hdr)).getD 0 + 24) / 64)

/-- RETSEQ of a launch's queue raised, and the completion word stored above `ts`; Evoven Resident is told when it cannot be. -/
def State.completeLaunch (s : State) (n : Nat) (l : Launch) (st : BitVec 8) (ts : Nat) : State :=
  let hdr := ((s.dev.rings[l.ring]?).map (·.hdr)).getD 0
  let seq := s.mem.readNat (hdr + 24) 8 + 1
  let a := l.cword.toNat
  let s :=
    if a = 0 ∨ a % 8 ≠ 0 then s
    else
      match s.storeWord n l.root a (seq % 2 ^ 56 * 2 ^ 8 + st.toNat) (ts + 1) with
      | some s => s
      | none => { s with dev := { s.dev with syslog := s.dev.syslog ++ [(n, st.toNat)] } }
  (s.homeWrite (.mem (hdr + 24)) 8 seq (ts + 1) true).1

/-- The module of a launch used once less (R346). -/
def State.unuse (s : State) (m : Option Nat) : State :=
  match m with
  | some m => let x := s.moduleAt m; s.setModule m { x with use := x.use - 1 }
  | none => s

/-! ## LAUNCH_RECORD_TAKE (R289-R291, R417) -/

/-- Records of a pasture that its dispatcher holds pending. -/
def State.pendingOf (s : State) (home : Nat) : Nat := (s.dev.launches.filter fun l => l.2.st == .queued && l.2.home == home).length

/-- Whether a record is one the dispatcher refuses. -/
def State.refuses (s : State) (prio devbase : Nat) (cword : Word) (d : Option Nat) (m : Option (Nat × Module)) : Bool :=
  match d, m with
  | some d, some m =>
    let x := descOf d
    decide (3 < prio) || m.2.st != 1 || !descValid d || (x.devices != 1 && decide (256 < devbase + x.devices)) || cword.toNat % 8 != 0
      || ((s.dev.devnum :: if x.devices = 1 then [] else (List.range x.devices).map (devbase + ·)).any fun d => decide (s.capaSlots d < x.slots))
  | _, _ => true

/-- Whether a registered ring holds a complete record. -/
def State.ringReady (s : State) (r : Ring) : Bool :=
  let head := s.mem.readNat r.hdr 8
  let size := s.mem.readNat (r.hdr + 16) 4
  head != s.mem.readNat (r.hdr + 8) 8 && size != 0 && s.mem.readNat (r.hdr + 64 + 64 * (head % size) + 17) 1 == 1

/-- How far ring `i` stands after the one that its dispatcher took from last, in rotation (R291). -/
def State.ringOrder (s : State) (p i : Nat) : Nat :=
  let n := s.dev.rings.length
  match aget s.dev.ringTurn p with
  | some j => (i + 2 * n - j - 1) % n
  | none => i

/-- Whether another ring of its pasture with a record comes before ring `i` in rotation. -/
def State.ringWaits (s : State) (p i : Nat) : Bool :=
  (List.range s.dev.rings.length).any fun j => match s.dev.rings[j]? with
    | some r => j != i && r.pasture == p && s.ringReady r && decide (s.ringOrder p j < s.ringOrder p i)
    | none => false

/-- The write timestamp of the raise of TAIL that appended record `head` (R417): the first past it, or the header line's where no
raise was seen. -/
def State.tailTs (s : State) (r : Ring) (head : Nat) : Nat :=
  match r.tails.find? fun t => 0 < (t.1 + 2 ^ 64 - head) % 2 ^ 64 ∧ (t.1 + 2 ^ 64 - head) % 2 ^ 64 ≤ 65536 with
  | some t => t.2
  | none => (s.tsAt (.mem r.hdr)).1

/-- The greatest write timestamp of the writes that made a record's line (R417): as they were seen, or that of the line. -/
def State.recordTs (s : State) (r : Ring) (a : Nat) : Nat := (aget r.wrote (a / 64)).getD (s.tsAt (.mem a)).1

/-- The raises of TAIL and the writes that later records still need, past record `head` at `a`. -/
def Ring.past (r : Ring) (head a : Nat) : Ring :=
  { r with wrote := adel r.wrote (a / 64), tails := r.tails.filter fun t => decide (1 < (t.1 + 2 ^ 64 - head) % 2 ^ 64) && decide ((t.1 + 2 ^ 64 - head) % 2 ^ 64 ≤ 65536) }

/-- The launch number after `n`, of 32 bits and never 0. -/
def nextNumber (n : Nat) : Nat := n % (2 ^ 32 - 1) + 1

/-- The first launch number from `n` on that no live launch bears (R292; log entry 87). -/
def State.unusedFrom (s : State) : Nat → Nat → Nat
  | 0, n => n
  | k + 1, n => if (s.liveLaunch n).isSome then State.unusedFrom s k (nextNumber n) else n

/-- LAUNCH_RECORD_TAKE: the oldest valid record of a registered ring, in its turn, is taken into the pending table, or retired at
once; not while a line that the dispatcher reads is poisoned (R403). -/
def execLaunchRecordTake (i : Nat) (s : State) : Host.Outcome State Fault Refusal :=
  answer <|
    match s.dev.rings[i]? with
    | none => s
    | some r =>
      let head := s.mem.readNat r.hdr 8
      let tail := s.mem.readNat (r.hdr + 8) 8
      let size := s.mem.readNat (r.hdr + 16) 4
      let a := r.hdr + 64 + 64 * (if size = 0 then 0 else head % size)
      let d := s.mem.readNat a 64
      let home := 8 * s.dev.devnum + r.pasture
      let held (lines : List Nat) : Bool := !s.dev.poisoned.isEmpty && lines.any s.dev.poisoned.contains
      if held [r.hdr / 64] || held [a / 64] || held (s.rootLines r.root (imgGet d 0 8) 128) then s
      else if s.dev.stage != 4 || s.dev.errcode != 0 || s.dev.removed || head == tail || size == 0 || imgGet d 17 1 != 1 || decide (64 ≤ s.pendingOf home)
          || s.ringWaits r.pasture i then s
      else
        let lts := max (s.recordTs r a) (s.tailTs r head)
        let ts := max lts (s.tsAt (.mem r.hdr)).1
        let va := imgGet d 0 8
        let dd := s.readTable r.root va 128
        let m := s.moduleOf r.root va
        let n := s.unusedFrom (s.dev.launches.length + 1) s.dev.nextLaunch
        let bad := s.refuses (imgGet d 16 1) (imgGet d 18 1) (BitVec.ofNat 64 (imgGet d 8 8)) dd m
        let l : Launch :=
          { st := if bad then .retired else .queued, prio := imgGet d 16 1, arrival := s.ac, raisedAt := s.ac, ring := i, recAddr := a,
            cword := BitVec.ofNat 64 (imgGet d 8 8), devbase := imgGet d 18 1, desc := (dd.map descOf).getD {},
            params := (List.range 4).map fun j => BitVec.ofNat 64 (imgGet d (32 + 8 * j) 8), launchTs := lts, root := r.root, home := home,
            folds := [], gathered := [], status := if bad then 3 else 0, module := if bad then none else m.map (·.1),
            debug := (m.map (·.2.debug)).getD false, plats := [], maps := [], handlers := [], hcount := 0, barriers := [], transit := [],
            park := 0, parkMark := 0, aborted := false, released := none }
        let s := (s.homeWrite (.mem (a + 17)) 1 0 ts true).1
        let s := (s.homeWrite (.mem r.hdr) 8 (head + 1) ts true).1
        let s := { s with dev := { s.dev with nextLaunch := nextNumber n, ringTurn := aset s.dev.ringTurn r.pasture i, rings := s.dev.rings.set i (((s.dev.rings[i]?).getD r).past head a) } }
        if bad then (s.completeLaunch n l 3 ts).setLaunch n l
        else
          match m with
          | some x => (s.setModule x.1 { x.2 with use := x.2.use + 1 }).setLaunch n l
          | none => s.setLaunch n l

/-- LAUNCH_PRIORITY_RAISE: a record that has waited 2^24 ac rises a level (R17). -/
def execLaunchPriorityRaise (n : Nat) (s : State) : Host.Outcome State Fault Refusal :=
  answer <|
    match s.launch? n with
    | some l =>
      if l.st = .queued ∧ l.prio < 3 ∧ l.raisedAt + 2 ^ 24 ≤ s.ac then s.setLaunch n { l with prio := l.prio + 1, raisedAt := s.ac } else s
    | none => s

/-! ## Placement (R18, R20, R99, R101, R292) -/

/-- The folds a launch may be given, in the dispatcher's order (R292); of other devices, those that there is a route to (R367). -/
def State.candidates (s : State) (l : Launch) : List Nat :=
  let per := 16
  let inPasture (p : Nat) : List Nat := (List.range per).map fun i => 16 * p + i
  let mine := (List.range s.part.pastures).map fun p => 8 * s.dev.devnum + p
  let own := inPasture l.home ++ (mine.filter (· != l.home)).flatMap inPasture
  let others := (List.range l.desc.devices).map (l.devbase + ·)
  own ++ if l.desc.devices = 1 then [] else
    (others.filter fun d => d != s.dev.devnum && decide (d < 256) && s.routed s.dev.devnum d).flatMap fun d => (List.range s.part.folds).map fun i => 128 * d + i

/-- Whether launch `n` comes before launch `m`: a higher priority, or the older of one priority (R17). -/
def Launch.before (l : Launch) (n : Nat) (x : Launch) (m : Nat) : Bool :=
  decide (x.prio < l.prio) || (x.prio == l.prio && (decide (l.arrival < x.arrival) || (l.arrival == x.arrival && decide (n < m))))

/-- Whether the dispatcher places launch `n` next, or goes on gathering its folds (R17, R18). -/
def State.mayPlace (s : State) (n : Nat) (l : Launch) : Bool :=
  match l.st with
  | .placing => s.dev.launches.all fun x => x.1 == n || x.2.home != l.home || x.2.st != .placing || l.before n x.2 x.1
  | .queued =>
    s.dev.launches.all fun x =>
      x.1 == n || x.2.home != l.home ||
        match x.2.st with
        | .queued => l.before n x.2 x.1
        | .placing => decide (x.2.prio < l.prio)
        | _ => true
  | _ => false

/-- The start message (R292). -/
def startMessage (l : Launch) (n ordinal : Nat) : Line :=
  let p (i : Nat) : Nat := (l.params.getD i 0).toNat * 2 ^ (64 * i)
  let x := p 0 + p 1 + p 2 + p 3 + l.recAddr % 2 ^ 64 * 2 ^ 256 + n % 2 ^ 32 * 2 ^ 320 + ordinal % 2 ^ 32 * 2 ^ 352
    + l.desc.folds * l.desc.cores % 2 ^ 32 * 2 ^ 384
  message (BitVec.ofNat 2048 x) 0 2 0 (2 ^ 20 - 1)

/-- The pinned pages at placement: the reserved positions, and the kernel pages there is room for. -/
def pinnedAt (scrPages : Nat) : List Nat := List.range' 1016 8 ++ List.range (min scrPages 56)

/-- A core as placement starts it, every slot's PC the kernel's entry (R115) and its shepherd runnable there. -/
def Core.placed (x : Core) (l : Launch) (n ordinal c img : Nat) : Core :=
  let t : Slot := { Slot.initial with pts := l.launchTs, pc := l.desc.entry }
  let scr := (Memory.writeNat [] 0 (min l.desc.scrsize (4096 * l.desc.scrpages)) img).writeNat inboxOff 8 1
  { x.bare with
    launch := some n, ordinal := ordinal, nslots := l.desc.slots, root := l.root,
    slots := (Vector.replicate 16 t).setIfInBounds 0 { t with st := .runnable, entry := true },
    scr := scr, scrPages := l.desc.scrpages, launchTs := l.launchTs, pinned := pinnedAt l.desc.scrpages,
    inbox := [{ data := startMessage l n ordinal, ts := l.launchTs }], foldCursor := c, pastCursor := c, reserve := l.desc.reserve }

/-- A fold as placement lends and resets it. -/
def State.placeFold (s : State) (n : Nat) (l : Launch) (f : Nat) : State :=
  let w := if s.part.full then l.desc.fieldways else 0
  let s := s.setWays f w
  let x := s.fold f
  s.setFold f { x with launch := some n, qways := w, laneBase := 0, lanes := [], fq := [], frun := none, facc := 0, fseq := 0, gmark := 0,
                       gmarks := [], fflags := 0, fhalted := false, plats := l.plats, maps := [] }

/-- Map `i` of a descriptor created empty and bound (R101); an invalid record, or a REGION that is not aligned map memory, leaves the
entry unbound (log entry 76). -/
def State.placeMap (s : State) (n : Nat) (l : Launch) (tab i : Nat) : State :=
  let r := imgGet tab (64 * i) 64
  let region := recField r 32 8
  let pages := (List.range (regionPages (recField r 8 4))).map fun j => s.rootMapPage l.root (region + 65536 * j)
  match pages.head?.join with
  | some pa =>
    if !recValid r || region % 65536 != 0 || pages.any (·.isNone) then s
    else
      let q := s.createMap r pa l.launchTs (pages.map (·.getD 0))
      match q.1.kmap? pa with
      | some m => q.1.bindMap n (recField r 0 1) (some (m.copy pa))
      | none => q.1
  | none => s

/-- Where Evoven Resident reserves park queue `i` of a home stack: 4 MiB each from the top of the stack down. -/
def parkAddr (home i : Nat) : Nat := home * 2 ^ 36 + stackBytes - 2 ^ 22 * (i + 1)

/-- The park queue of a launch that is placed: the first that no other live launch has (R314; log entry 16). -/
def State.parkFor (s : State) (home n : Nat) : Nat :=
  let used (a : Nat) : Bool := s.dev.launches.any fun x => x.1 != n && x.2.st != .retired && x.2.park == a
  parkAddr home (((List.range s.dev.launches.length).find? fun i => !used (parkAddr home i)).getD s.dev.launches.length)

/-- A launch whose folds are all held starts: tables bound, start messages queued, shepherds runnable; a table or image that is not
ordinary memory of the launch counts as empty (log entry 75). -/
def State.placeFresh (s : State) (n : Nat) (l : Launch) : State :=
  let plats := ((s.readTable l.root l.desc.plattab.toNat (64 * l.desc.nplat)).map fun t =>
    (List.range l.desc.nplat).map fun i => (i, BitVec.ofNat 512 (imgGet t (64 * i) 64))).getD []
  let hands := ((s.readTable l.root l.desc.handtab.toNat (8 * l.desc.nhandler)).map fun t =>
    (List.range l.desc.nhandler).map fun i => (i, BitVec.ofNat 64 (imgGet t (8 * i) 8))).getD []
  let img := if l.desc.scrimg = 0 then 0 else (s.readTable l.root l.desc.scrimg.toNat l.desc.scrsize).getD 0
  let park := s.parkFor l.home n
  let l := { l with st := .running, folds := l.gathered, gathered := [], plats := plats, handlers := hands, hcount := l.desc.nhandler, park := park }
  let s := l.folds.foldl (fun s f => s.placeFold n l f) (s.setLaunch n l)
  let s := (s.writeLines park (256 * 2 ^ 128) l.launchTs 1).1
  let cs := coresOfPlacement l.folds l.desc.cores
  let s := ((List.range cs.length).foldl (fun s k => let c := cs.getD k 0; s.setCore c ((s.core c).placed l n k c img)) s).startCursors n
  let tab := (s.readTable l.root l.desc.maptab.toNat (64 * l.desc.nmap)).getD 0
  (List.range l.desc.nmap).foldl (fun s i => s.placeMap n l tab i) s

/-- The places of an image that name old cores rewritten (R382): its CORE stations and its ORIGIN. -/
def rewriteImage (g : Nat → Nat) (d : Nat) : Nat :=
  let o := imgGet d 8 4
  let d := imgPut d 8 4 (o - o % 2 ^ 20 + g (o % 2 ^ 20))
  (List.range (imgGet d 16 1)).foldl (fun d i =>
    let w := imgStation d i
    if w / 2 ^ 20 % 16 = 0 then imgPut d (64 + 8 * i) 8 (w - w % 2 ^ 20 + g (w % 2 ^ 20)) else d) d

/-- A capsule rewritten. -/
def Capsule.rewrite (g : Nat → Nat) (x : Capsule) : Capsule :=
  { x with data := BitVec.ofNat 67584 (rewriteImage g x.data.toNat), exclude := x.exclude.map g,
           place := match x.place with
             | .core c => .core (g c)
             | p => p }

/-- A launch whose folds were released takes its new folds: fields restored, cores renamed by ordinal with their places in trees and
barriers, capsules rewritten, and every core resumed (R247, R382). -/
def State.placeAgain (s : State) (n : Nat) (l : Launch) (was : List Nat) : State :=
  let old := l.folds
  let new := l.gathered
  let now := coresOfPlacement new l.desc.cores
  let g (c : Nat) : Nat := match posOf c was with
    | some k => now.getD k c
    | none => c
  let kept := now.map fun c => (c, s.core c)
  let s := new.foldl (fun s f =>
    let a := s.fold (moveFold new old f)
    let s := s.setWays f a.ways
    s.setFold f ((s.fold f).restored a)) s
  let s := { s with folds := old.foldl adel s.folds }
  let s := s.rename (moveCore old new) (moveFold old new)
  let s := kept.foldl (fun s x => s.setCore x.1 { s.core x.1 with banks := x.2.banks, l1i := x.2.l1i, capSpill := (s.core x.1).capSpill.map (Capsule.rewrite g) }) s
  let s := was.foldl State.takeExceptions s
  let s := s.setLaunch n { (s.launch? n).getD l with st := .running, folds := new, gathered := [], released := none, transit := l.transit.map (Capsule.rewrite g) }
  (now.filter fun c => (s.core c).saved).foldl State.resumeCore s

/-- The lines of the tables and the image that placement reads. -/
def State.launchLines (s : State) (l : Launch) : List Nat :=
  if l.released.isSome then []
  else s.rootLines l.root l.desc.plattab.toNat (64 * l.desc.nplat) ++ s.rootLines l.root l.desc.handtab.toNat (8 * l.desc.nhandler)
    ++ s.rootLines l.root l.desc.maptab.toNat (64 * l.desc.nmap)
    ++ if l.desc.scrimg = 0 then [] else s.rootLines l.root l.desc.scrimg.toNat l.desc.scrsize

/-- LAUNCH_PLACEMENT: the dispatcher gathers free folds for its next record; once all are held, the launch runs. -/
def execLaunchPlacement (n : Nat) (s : State) : Host.Outcome State Fault Refusal :=
  answer <|
    match s.launch? n with
    | none => s
    | some l =>
      if !s.mayPlace n l then s
      else
        let free := (s.candidates l).filter fun f => (s.fold f).launch.isNone
        let got := free.take (l.desc.folds - l.gathered.length)
        let s := got.foldl (fun s f => s.setFold f { s.fold f with launch := some n }) s
        let l := { l with st := .placing, gathered := l.gathered ++ got }
        if l.gathered.length < l.desc.folds || (!s.dev.poisoned.isEmpty && (s.launchLines l).any s.dev.poisoned.contains) then s.setLaunch n l
        else
          match l.released with
          | none => s.placeFresh n l
          | some was => s.placeAgain n l was

/-! ## Retirement (R21, R248, R284, R330) -/

/-- The cores of a launch's folds. -/
def Launch.members (l : Launch) : List Nat := l.folds.flatMap coresOf

/-- The greatest timestamp of a slot's writes: also of an instruction whose completion is still to come, or that has made some of its
units. -/
def Slot.mark (t : Slot) : Nat :=
  let m := t.posted.foldl (fun m p => max m p.2) (max t.pts t.near)
  max (max m ((t.reply.map (·.pts)).getD 0)) ((t.vec.map (·.pts)).getD 0)

/-- The greatest timestamp of the writes of a core's slots and units, also of commands and operations under way. -/
def Core.mark (x : Core) : Nat :=
  let m := max x.lastE (max x.cmark (max x.smark x.mmark))
  let m := (x.crun.toList ++ x.cover).foldl (fun m r => max m r.mark) (max m ((x.mrun.map (·.mark)).getD 0))
  x.slots.toList.foldl (fun m t => max m t.mark) m

/-- The greatest timestamp that the launch's writes can carry, those to its park queue among them (R21). -/
def State.launchMark (s : State) (l : Launch) : Nat :=
  let m := l.members.foldl (fun m c => max m (s.core c).mark) (max l.launchTs l.parkMark)
  l.folds.foldl (fun m f => max m (max (s.fold f).gmark (((s.fold f).frun.map (·.mark)).getD 0))) m

/-- Whether every write that a launch has sent is applied, and its copy engines and fields have nothing left. -/
def State.drained (s : State) (l : Launch) : Bool :=
  let cs := l.members
  let mine (c : Nat) : Bool := cs.contains c
  let who (w : Who) : Bool := match w with
    | .slot c _ => mine c
    | _ => false
  (s.posted.all fun p => !mine p.core) && (s.packets.all fun p => !mine p.core)
    && (s.channels.all fun x => x.2.deferred.all fun p => !mine p.core) && (s.chain.all fun r => !mine r.core)
    && (cs.all fun c => let x := s.core c
          x.cq.isEmpty && x.crun.isNone && x.cover.isEmpty && x.cwalk.isNone
            && x.slots.toList.all fun t => t.ports.all fun p => p.2.kind != .output || p.2.buf.isEmpty || p.2.fault.isSome)
    && (l.folds.all fun f => (s.fold f).fq.isEmpty && (s.fold f).frun.isNone)
    && s.folds.all fun x => (x.2.agentQ.all fun r => !who r.who) && (x.2.agentWait.all fun r => !who r.who) && x.2.qctlQ.all fun r => !who r.who

/-- Messages spilled at the launch's cores, and messages and fills held or in flight for them, or from them, discarded, far messages that a
gateway has for them too: LOST rises at the target (R296). -/
def State.dropFlights (s : State) (cs : List Nat) : State :=
  let mine (x : Option (Who × BitVec 8 × Eff)) : Bool := match x with
    | some (.slot c _, _, _) => cs.contains c
    | _ => false
  let spilled := cs.flatMap fun c => (s.core c).spill.map fun m => { core := c, msg := m, sender := none : MsgFlight }
  let gone := spilled ++ (s.msgs ++ s.cores.flatMap fun x => x.2.heldMsgs).filter fun m => cs.contains m.core || mine m.sender
  let lost := s.fills.filter fun m => cs.contains m.core || mine m.sender
  let far := s.far.filter fun m => m.commons == s.dev.commons && cs.contains m.core
  let gone := gone ++ far.map fun m => { core := m.core, msg := m.msg, sender := none }
  let keepM (l : List MsgFlight) : List MsgFlight := l.filter fun m => !(cs.contains m.core || mine m.sender)
  let s := { s with msgs := keepM s.msgs, far := s.far.filter fun m => !far.contains m, fills := s.fills.filter fun m => !(cs.contains m.core || mine m.sender),
                    cores := s.cores.map fun x => (x.1, { x.2 with heldMsgs := keepM x.2.heldMsgs }) }
  let s := gone.foldl (fun s m =>
    let s := if mine m.sender then s else s.answerStatus m.core m.sender 0
    s.setCore m.core ((s.core m.core).loseMessage m.msg.ts)) s
  lost.foldl (fun s m => if mine m.sender then s else s.answerStatus m.core m.sender 2) s

/-- What a launch leaves behind taken away: its cores and folds freed, its tables and in-flight requests dropped. -/
def State.scrub (s : State) (n : Nat) (l : Launch) : State :=
  let cs := l.members
  let who (w : Who) : Bool := match w with
    | .slot c _ => cs.contains c
    | _ => false
  let s := ((s.freeNear n).dropFlights cs).reportDue
  let s := s.dropTlbs fun e => e.space == n
  let s := { s with
    chain := s.chain.filter fun r => !(cs.contains r.core || r.space == n),
    sysc := s.sysc.filter fun r => !who r.who,
    folds := s.folds.map fun x => (x.1, { x.2 with agentQ := x.2.agentQ.filter (fun r => !who r.who), agentWait := x.2.agentWait.filter (fun r => !who r.who), qctlQ := x.2.qctlQ.filter (fun r => !who r.who),
                                                   claims := x.2.claims.filter fun r => !who r.who }),
    kmaps := s.kmaps.map fun m => (m.1, { m.2 with stale := m.2.stale.filter fun y => y.2.1 != n }),
    dev := { s.dev with poisoned := s.dev.poisoned.filter (fun ln => ln < scrLines || !cs.contains ((ln - scrLines) / 65536)), excq := s.dev.excq.filter (fun e => e.launch != n), trees := s.dev.trees.filter fun t => t.2.owner != n } }
  let s := l.folds.foldl (fun s f => let s := s.setWays f 0; s.setFold f (s.fold f).left) s
  let s := l.gathered.foldl (fun s f => s.setFold f { s.fold f with launch := none }) s
  let s := cs.foldl (fun s c => s.setCore c (s.core c).freed) s
  if l.released.isSome then { s with cores := cs.foldl adel s.cores, folds := l.folds.foldl adel s.folds } else s

/-- A launch ended with a status: capsules parked, the completion word written above every write, everything freed. -/
def State.finishLaunch (s : State) (n : Nat) (st : BitVec 8) : State :=
  match s.launch? n with
  | none => s
  | some l =>
    let s := s.parkAll n (if st = 0 then 5 else 3)
    let l := (s.launch? n).getD l
    let s := s.completeLaunch n l st (s.launchMark l)
    let s := (s.scrub n l).unuse l.module
    s.setLaunch n { l with st := .retired, status := st, folds := [], gathered := [], barriers := [], transit := [], released := none }

/-- LAUNCH_RETIREMENT: a launch whose shepherds have all ended, or that is Retiring, is Retired once its work has completed; its row
locks are freed before, so that deferred packets are applied (R284). -/
def execLaunchRetirement (n : Nat) (s : State) : Host.Outcome State Fault Refusal :=
  answer <|
    match s.launch? n with
    | none => s
    | some l =>
      let ended := (coresOfPlacement l.folds l.desc.cores).all fun c => (s.slot c 0).st == .ended
      if l.st = .retiring ∨ (l.st = .running ∧ ended) then
        let s := (s.freeLocks n).setLaunch n { l with st := .retiring }
        if s.drained l && !s.retHeld l then s.finishLaunch n l.status else s
      else s

/-! ## Abort (R23) -/

/-- A slot as an abort leaves it: an instruction that has had no effect, that performs its units one by one, or whose capsule waits for
the transit store, goes no further. -/
def Slot.cut (t : Slot) : Slot :=
  if t.again.isSome || t.vec.isSome || t.outgoing.isSome then
    { t with st := .stopped, wait := none, reply := none, again := none, vec := none, outgoing := none, fetchWait := none }
  else t

/-- The work that an abort discards: copy entries and field commands not begun or HALTED, those under way, which stop at the end of
their chunk or line, and claims; its contexts stop, and their locks and windows are freed (R284). -/
def State.abandonWork (s : State) (n : Nat) (l : Launch) : State :=
  let cs := l.members
  let mark := s.channels.foldl (fun m x => x.2.ctxs.foldl (fun m y => if y.2.launch = n then max m y.2.thread.mark else m) m) (s.launchMark l)
  let s := cs.foldl (fun s c => s.setCore c { s.core c with stopping := true, slots := (s.core c).slots.map Slot.cut, cq := [], crun := none, cover := [], cwalk := none, chalted := false, mq := [], mrun := none }) s
  let s := (s.freeNear n).setLaunch n { l with parkMark := mark, aborted := true }
  let mine (w : Who) : Bool := match w with
    | .slot c _ => cs.contains c
    | _ => false
  let claim (r : QueueReq) : Bool := mine r.who && match r.op with
    | .qclm .. => true
    | _ => false
  let s := { s with folds := s.folds.map fun (x : Nat × Fold) => (x.1, { x.2 with qctlQ := x.2.qctlQ.filter (fun r => !claim r), claims := x.2.claims.filter fun r => !mine r.who }) }
  let s := l.folds.foldl (fun s f => s.setFold f { s.fold f with fq := [], frun := none, fhalted := false }) s
  { s with chain := s.chain.filter fun r => !(cs.contains r.core || r.space == n) }

/-- A launch aborted with a status: also one that waits in Retiring for a HALTED engine or sequencer (R21, R236). -/
def State.abortLaunch (s : State) (n : Nat) (st : BitVec 8) : State :=
  match s.launch? n with
  | none => s
  | some l =>
    match l.st with
    | .retired => s
    | .queued => if s.retHeld l then s.setLaunch n { l with st := .retiring, status := st, aborted := true } else s.finishLaunch n st
    | _ =>
      if l.aborted then s
      else
      let s := s.abandonWork n l
      let s := s.setLaunch n { (s.launch? n).getD l with st := .retiring, status := st }
      if s.drained l && !s.retHeld l then s.finishLaunch n st else s

/-- LAUNCH_ABORT, by the system cores: status 0x01, or, of a Running launch, 0x02 after a shepherd's fault (R22, R23, R375). -/
def execLaunchAbort (n : Nat) (st : BitVec 8) (s : State) : Host.Outcome State Fault Refusal :=
  answer (s.abortLaunch n (if st = 2 ∧ (s.launch? n).map (·.st) = some .running then 2 else 1))

end Sys2Proof.Machine
end

