-- ==== Sys2Proof/Machine/Trap.lean ====
section
/-! DEFINITION. Software traps, SYSC and the fault queue's reader (R384-R387), and Evoven Resident's answers to SYSC (R390). -/

namespace Sys2Proof.Machine

/-! ## TRAP and BRKP (R385) -/

/-- The SW_TRAP fault of TRAP and BRKP. -/
def swTrap (f : FmtR) (info : Word) (brk : Bool) : FaultInfo :=
  { code := .swTrap, step := 10, info := info, tcode := BitVec.ofNat 16 f.imm.toNat, brk := brk }

/-- TRAP. -/
def trapBody (f : FmtR) (s : State) (_e : Eff) : Res := .fault (swTrap f (s.rs f.a) false)

/-- The meaning of TRAP. -/
def execTrap (f : FmtR) (s : State) : Host.Outcome State Fault Refusal := meaning (.trap f) none (trapBody f) s

/-- BRKP. -/
def brkpBody (f : FmtR) (_s : State) (_e : Eff) : Res := .fault (swTrap f 0 true)

/-- The meaning of BRKP. -/
def execBrkp (f : FmtR) (s : State) : Host.Outcome State Fault Refusal := meaning (.brkp f) none (brkpBody f) s

/-! ## SYSC (R386) -/

/-- The device exception queue entry of a SYSC: KIND 6. -/
def State.syscEntry (s : State) (f : FmtR) : ExcEntry :=
  { record := { pc := s.thread.pc, addr := s.rs f.a, info := s.rs f.b, code := 0, kind := 6,
                sflags := BitVec.ofNat 8 (s.mySlot % 16 + if s.thread.hold.isSome then 64 else 0),
                detail := BitVec.ofNat 32 (f.imm.toNat % 2 ^ 16 * 2 ^ 16) },
    launch := s.myLaunch.getD 0, ccore := s.myCore, time := s.deviceTime }

/-- SYSC. -/
def syscBody (f : FmtR) (s : State) (e : Eff) : Res :=
  if 4096 ≤ s.dev.excq.length then .park .excRoom
  else
    let d := s.dev
    let r : SysReq := { who := s.cur, call := f.imm.toNat % 2 ^ 16, a := s.rs f.a, b := s.rs f.b, d := f.d, eff := e }
    .sent { s with sysc := s.sysc ++ [r], dev := { d with excq := d.excq ++ [s.syscEntry f], excCount := d.excCount + 1 } } .served

/-- The meaning of SYSC. -/
def execSysc (f : FmtR) (s : State) : Host.Outcome State Fault Refusal := meaning (.sysc f) none (syscBody f) s

/-! ## FLTRD (R387) -/

/-- FLTRD and FLTRD.peek: one access to the fault queue page under the store rule; PTS rises to what TAIL was last written at, by a
record that the access admits too. A system core has no fault queue. -/
def fltrdForm (peek : Bool) (f : FmtR) (s : State) (e : Eff) : Res :=
  let put (a b c d : Nat) : List Wr :=
    wrS f.d (BitVec.ofNat 64 a) ++ wrS (f.d + 1) (BitVec.ofNat 64 b) ++ wrS (f.d + 2) (BitVec.ofNat 64 c) ++ wrS (f.d + 3) (BitVec.ofNat 64 d)
  match s.cur with
  | .slot c _ =>
    let x := s.core c
    let q := x.frq
    if x.unpinned 1023 then .park (.page c 1023)
    else (s.spanClean c frqOff 24).res fun _ =>
    if q.1 = q.2.1 then
      let r := x.scrStore frqOff 0 0 s.thread.pts
      .done (s.setCore c r.1) { e with writes := e.writes ++ put 0 0 0 0, pts := max e.pts (r.1.pageTsOf 1023).1 }
    else
      let o := frqOff + 64 + 32 * (q.2.1 % 16)
      (s.spanClean c o 32).res fun _ =>
      let w (i : Nat) : Nat := x.scr.readNat (o + 8 * i) 8
      let r := if peek then x.scrStore frqOff 0 0 s.thread.pts else x.scrStore (frqOff + 8) 8 (q.2.1 + 1) s.thread.pts
      let y := if peek || (s.tailBad c).isSome then r.1 else r.1.admitWaiting r.2
      .done (s.setCore c y) { e with writes := e.writes ++ put (w 0) (w 1) (w 2) (w 3), pts := max e.pts (y.pageTsOf 1023).1 }
  | _ => .done s { e with writes := e.writes ++ put 0 0 0 0 }

/-- FLTRD. -/
def fltrdBody (f : FmtR) : State → Eff → Res := fltrdForm false f

/-- The meaning of FLTRD. -/
def execFltrd (f : FmtR) (s : State) : Host.Outcome State Fault Refusal := meaning (.fltrd f) (some .reply) (fltrdBody f) s

/-- FLTRD.peek. -/
def fltrdPeekBody (f : FmtR) : State → Eff → Res := fltrdForm true f

/-- The meaning of FLTRD.peek. -/
def execFltrdPeek (f : FmtR) (s : State) : Host.Outcome State Fault Refusal := meaning (.fltrdPeek f) (some .reply) (fltrdPeekBody f) s

/-! ## Evoven Resident's calls (R390) -/

/-- The entries of a table at a level (R340). -/
def walkEntries (level : Nat) : Nat :=
  match level with
  | 3 => 4096 | 2 => 2048 | _ => 512

/-- Whether a leaf under a table that `is` holds of maps a part of the 64 KiB page at `p`. -/
def State.tableMaps (s : State) (is : Word → Bool) (p : Nat) : Nat → Nat → Bool
  | level, table => (List.range (walkEntries level)).any fun i =>
    let e : Word := BitVec.ofNat 64 (s.mem.readNat (table + 8 * i) 8)
    if !e.getLsbD 0 then false
    else if e.getLsbD 1 then is e && s.leafOk e level && decide (ptePa e < p + 65536) && decide (p < ptePa e + 2 ^ pageBits level)
    else match level with
      | 0 => false
      | l + 1 => State.tableMaps s is p l (ptePa e)

/-- Whether a leaf of some address space that `is` holds of maps a part of the 64 KiB page at `p`. -/
def State.mappedAs (s : State) (is : Word → Bool) (p : Nat) : Bool :=
  (((s.dev.launches.filter fun l => l.2.st != .retired).map fun l => l.2.root) ++ s.dev.rings.map (·.root) ++ s.cores.map fun c => c.2.root).eraseDups.any
    fun root => root != 0 && s.tableMaps is p 3 root

/-- Whether a 64 KiB page holds a part of the TEXT of a module, whose addresses are physical (log entry 30). -/
def State.textPage (s : State) (p : Nat) : Bool :=
  s.dev.modules.any fun m => m.2.st != 0 && rangesMeet p 65536 m.2.textbase.toNat m.2.textsize.toNat

/-- Whether a page holds code: a leaf of some address space maps it with X, or a part of it is TEXT (R342, R390). -/
def State.isCode (s : State) (p : Nat) : Bool := s.mappedAs (·.getLsbD 4) p || s.textPage p

/-- The L1 copies of the 64 KiB page at `p` dropped from every core. -/
def State.dropCopies (s : State) (p : Nat) : State :=
  { s with cores := s.cores.map fun c => (c.1, { c.2 with l1 := c.2.l1.filter fun y => y.ln / 1024 != p / 65536 }) }

/-- Whether a page is in use: a leaf of some address space maps it, a part of it is TEXT, or a map lies in it (R205, R342, R390). -/
def State.inUse (s : State) (p : Nat) : Bool := s.mappedAs (fun _ => true) p || s.textPage p || s.kmaps.any fun m => m.2.pages.contains p

/-- A page that Evoven Resident takes from its free pages, none that is in use, and zeroes by stores at clock `ts`, so that no copy of
what it held before is left: the state, the page and the clock. -/
def State.takePage (s : State) (ts : Nat) : Option (State × Nat × Nat) :=
  (s.env.pages.find? fun p => p % 65536 == 0 && s.paOk p && !s.inUse p).map fun p =>
    let s := s.dropCopies p
    let r := State.writeLines { s with env := { s.env with pages := s.env.pages.erase p } } p 0 ts 1024
    (r.1, p, max ts r.2)

/-- The entries that a walk of the system core's thread meets, read as loads at clock `ts` (R389). -/
def State.readWalk (s : State) (root va ts : Nat) : State × Nat :=
  (s.walkPath va 3 root).foldl (fun r a => let q := r.1.homeRead (.mem a) (r.2 + 1) 0 true; (q.1, max (r.2 + 1) q.2)) (s, ts)

/-- The entries of the pages of a range read. -/
def State.readWalks (s : State) (root ts : Nat) (ps : List Nat) : State × Nat :=
  ps.foldl (fun r p => State.readWalk r.1 root (65536 * p) r.2) (s, ts)

/-- A page-table entry stored by the system core's thread at clock `ts`. -/
def State.putPte (s : State) (pa v ts : Nat) : State × Nat := s.homeWrite (.mem pa) 8 v ts true

/-- The page of a range that MAP meets. -/
inductive PageIs where
  | free
  | plain
  | other
  deriving DecidableEq, Repr

/-- What stands at an address: nothing, a page with R and W set and X clear, or anything else. -/
def State.pageIs (s : State) (root va : Nat) : PageIs :=
  match s.walkFrom va 3 root with
  | none => .free
  | some l =>
    if l.pte.getLsbD 2 && l.pte.getLsbD 3 && !l.pte.getLsbD 4 && !l.pte.getLsbD 5 && !l.pte.getLsbD 6 && !s.isCode (l.pa va) then .plain else .other

/-- A leaf made for an address, with the tables above it: the state and the clock; none when memory runs out. -/
def State.mapAt (s : State) (va ts : Nat) : Nat → Nat → Option (State × Nat)
  | level, table =>
    let a := table + 8 * walkIndex level va
    let e : Word := BitVec.ofNat 64 (s.mem.readNat a 8)
    match level with
    | 0 => (s.takePage ts).map fun r => r.1.putPte a (r.2.1 + 15) r.2.2
    | l + 1 =>
      if e.getLsbD 0 && !e.getLsbD 1 && e.extractLsb' 47 17 == 0 && e.extractLsb' 7 9 == 0 && s.paOk (ptePa e)
      then State.mapAt s va ts l (ptePa e)
      else
        match s.takePage ts with
        | none => none
        | some r => let q := r.1.putPte a (r.2.1 + 1) r.2.2; State.mapAt q.1 va q.2 l r.2.1

/-- The pages of a range made, those already plain kept. -/
def State.mapRange (s : State) (root ts : Nat) : List Nat → Option (State × Nat)
  | [] => some (s, ts)
  | p :: ps =>
    match s.pageIs root (65536 * p) with
    | .plain => State.mapRange s root ts ps
    | _ => match s.mapAt (65536 * p) ts 3 root with
      | some r => State.mapRange r.1 root r.2 ps
      | none => none

/-- The 64 KiB pages of a range, rounded out; none when it leaves the canonical addresses. -/
def pageRange (a n : Nat) : Option (List Nat) :=
  if n = 0 then some []
  else if 2 ^ 64 < a + n ∨ !canonical a ∨ !canonical (a + n - 1) ∨ (a < 2 ^ 56 ∧ 2 ^ 56 < a + n) then none
  else some (List.range' (a / 65536) ((a + n - 1) / 65536 - a / 65536 + 1))

/-- MAP: the result, and the state. -/
def State.residentMap (s : State) (root a n ts : Nat) : State × Nat × Nat :=
  match pageRange a n with
  | none => (s, 1, ts)
  | some ps =>
    let q := s.readWalks root ts ps
    if ps.any fun p => s.pageIs root (65536 * p) == .other then (q.1, 1, q.2)
    else match q.1.mapRange root q.2 ps with
      | some r => (r.1, 0, r.2)
      | none => (q.1, 2, q.2)

/-- The address of the leaf entry of a 64 KiB page, with the page. -/
def State.leafAt (s : State) (va : Nat) : Nat → Nat → Option (Nat × Nat)
  | level, table =>
    let a := table + 8 * walkIndex level va
    let e : Word := BitVec.ofNat 64 (s.mem.readNat a 8)
    if !e.getLsbD 0 then none
    else
      match level with
      | 0 => some (a, ptePa e)
      | l + 1 => if e.getLsbD 1 then none else State.leafAt s va l (ptePa e)

/-- UNMAP: every page of the range must be one that MAP gives; their entries are cleared and their TLB entries dropped. The result
comes, and the pages are free again, once the accesses translated with one of them have completed (R344). -/
def State.residentUnmap (s : State) (space root a n ts : Nat) : State × Nat × Nat × List Cond × List Nat :=
  match pageRange a n with
  | none => (s, 1, ts, [], [])
  | some ps =>
    let ls := ps.map fun p => (p, s.leafAt (65536 * p) 3 root)
    let rd := s.readWalks root ts ps
    if ls.any fun x => x.2.isNone || s.pageIs root (65536 * x.1) != .plain then (rd.1, 1, rd.2, [], [])
    else
      let gone (e : TlbEnt) : Bool := e.space == space && ls.any fun x => 65536 * x.1 % 2 ^ 57 / 2 ^ pageBits e.level == e.page
      let cs := s.translated (s.tlbAll.filter gone ++ ls.map fun x => ⟨space, 0, x.1, BitVec.ofNat 64 ((x.2.map (·.2)).getD 0)⟩)
      let r := ls.foldl (fun r x => match x.2 with
        | some y => State.putPte r.1 y.1 0 r.2
        | none => r) rd
      (r.1.dropTlbs gone, 0, r.2, cs, ls.filterMap fun x => x.2.map (·.2))

/-- Bytes of a thread's address space as Evoven Resident reads or writes them, line by line. -/
def State.residentPlaces (s : State) (c k va n : Nat) (acc : Acc) : Nat → State × Chk (List (Nat × Loc))
  | 0 => (s, .ok [])
  | lines + 1 =>
    if n = 0 then (s, .ok [])
    else
      let m := min n (64 - va % 64)
      let r := s.pathReach c k va m acc
      match r.2 with
      | .ok l =>
        let q := State.residentPlaces r.1 c k (va + m) (n - m) acc lines
        (q.1, q.2.bind fun ls => .ok ((m, l) :: ls))
      | .bad f => (r.1, .bad f)
      | .wait w => (r.1, .wait w)

/-- The bytes at checked places, loaded by the system core's thread at clock `ts` (R389): the state, the clock, and the bytes as one
number. -/
def State.residentLoads (s : State) (ts : Nat) : List (Nat × Loc) → State × Nat × Nat
  | [] => (s, ts, 0)
  | (n, l) :: ls =>
    let r := s.homeRead l (ts + 1) 0 true
    let q := State.residentLoads r.1 (max (ts + 1) r.2) ls
    (q.1, q.2.1, s.peek l n + q.2.2 * 2 ^ (8 * n))

/-- Bytes written at checked places. -/
def State.residentPut (s : State) (ts : Nat) : List (Nat × Loc) → Nat → State × Nat
  | [], _ => (s, ts)
  | (n, l) :: ls, v =>
    let r := s.homeWrite l n (v % 2 ^ (8 * n)) ts true
    State.residentPut r.1 (max ts r.2) ls (v / 2 ^ (8 * n))

/-- Little-endian bytes as a number. -/
def leNat : List Byte → Nat
  | [] => 0
  | b :: bs => b.toNat + 256 * leNat bs

/-- The 64 bytes of a digest. -/
def lineBytes (x : Line) : List Byte := (List.range 64).map fun j => x.extractLsb' (8 * j) 8

/-- An ATTEST quote (R398): the nonce, MEAS0-MEAS3, DEVID, and the signature over their digest. -/
def Device.quote (d : Device) (nonce : Line) : List Byte :=
  let body := lineBytes nonce ++ (d.meas.toList.flatMap lineBytes) ++ lineBytes Config.devId
  body ++ Config.falconSign (Config.shake256 body)

/-- Evoven Resident's answer to a call: its result with the PTS of its thread, once the conditions hold, and the pages it has free then; none, when the call does not
return; or not now, while a line that the call reads or writes is not at hand. -/
inductive Reply where
  | value (v : Word) (ts : Nat) (cs : List Cond) (pages : List Nat)
  | never
  | later
  deriving DecidableEq, Repr

/-- A result without conditions. -/
def Reply.num (n ts : Nat) : Reply := .value (BitVec.ofNat 64 n) ts [] []

/-- ATTEST. -/
def State.residentAttest (s : State) (c k a b ts : Nat) : State × Reply :=
  let p := s.residentPlaces c k a 64 .load 3
  match p.2 with
  | .bad _ => (p.1, .num 1 ts)
  | .wait _ => (s, .later)
  | .ok ls =>
    let g := p.1.residentLoads ts ls
    let ts := g.2.1
    let q := g.1.dev.quote (BitVec.ofNat 512 g.2.2)
    let w := g.1.residentPlaces c k b q.length .store (q.length + 1)
    match w.2 with
    | .bad _ => (w.1, .num 1 ts)
    | .wait _ => (s, .later)
    | .ok lw => let r := w.1.residentPut ts lw (leNat q); (r.1, .num 0 r.2)

/-- LOG. -/
def State.residentLog (s : State) (n c k a len ts : Nat) : State × Reply :=
  if 4096 < len then (s, .num 1 ts)
  else
    let p := s.residentPlaces c k a len .load (len + 1)
    match p.2 with
    | .bad _ => (p.1, .num 1 ts)
    | .wait _ => (s, .later)
    | .ok ls =>
      let g := p.1.residentLoads ts ls
      ({ g.1 with dev := { g.1.dev with syslog := g.1.dev.syslog ++ [(n, g.2.2)] } }, .num 0 g.2.1)

/-- Whether system core 0 can read the entries of a range's pages now (R367, R403). -/
def State.walksReady (s : State) (root a n : Nat) : Bool :=
  ((pageRange a n).getD []).all fun p => (s.entryWait s.dev.devnum (s.walkPath (65536 * p) 3 root)).isNone

/-- What Evoven Resident does for a call: the state, and its answer. -/
def State.residentCall (s : State) (r : SysReq) (ts : Nat) : State × Reply :=
  let root := s.rootOf r.who
  let sp := s.space r.who
  let a := r.a.toNat
  let b := r.b.toNat
  let ck := match r.who with
    | .slot c k => (c, k)
    | _ => (4096 * s.dev.devnum, 0)
  let n := ((s.core ck.1).launch).getD 0
  match r.call with
  | 0x00 => (s, .value Config.residentVersion ts [] [])
  | 0x01 => if s.walksReady root a b then let x := s.residentMap root a b ts; (x.1, .num x.2.1 x.2.2) else (s, .later)
  | 0x02 =>
    if s.walksReady root a b then
      let x := s.residentUnmap sp root a b ts
      (x.1, .value (BitVec.ofNat 64 x.2.1) x.2.2.1 x.2.2.2.1 x.2.2.2.2)
    else (s, .later)
  | 0x03 => s.residentAttest ck.1 ck.2 a b ts
  | 0x04 =>
    let s := { s with dev := { s.dev with syslog := s.dev.syslog ++ [(n, a % 256)] } }
    (s.abortLaunch n 1, .never)
  | 0x0C => s.residentLog n ck.1 ck.2 a b ts
  | _ => (s, .value (BitVec.allOnes 64) ts [] [])

/-- The exception entry of an answered SYSC taken. -/
def State.takeSysc (s : State) (r : SysReq) : State :=
  let c := (s.as r.who).myCore
  let k := (s.as r.who).mySlot
  { s with dev := { s.dev with excq := s.dev.excq.filter fun e => !(e.record.kind == 6 && e.ccore == c && e.record.sflags.toNat % 16 == k) } }

/-- The PTS of system core 0's thread set. -/
def State.setResidentPts (s : State) (ts : Nat) : State :=
  let d := s.dev
  { s with dev := { d with sysThreads := d.sysThreads.setIfInBounds 0 { (d.sysThreads[0]?).getD Slot.initial with pts := ts } } }

/-- The reply to a SYSC completes it, and pages that Evoven Resident has free again join its others. -/
def State.replySysc (s : State) (r : SysReq) (v : Word) (ts : Nat) (pages : List Nat) : State :=
  State.complete { s with env := { s.env with pages := s.env.pages ++ pages } } s.dev.devnum r.who { r.eff with writes := r.eff.writes ++ wrS r.d v, pts := max r.eff.pts ts }

/-- SYSC_REPLY: Evoven Resident answers the `i`-th waiting SYSC; the reply carries the PTS of system core 0's thread. -/
def execSyscReply (i : Nat) (s : State) : Host.Outcome State Fault Refusal :=
  answer <|
    match s.sysc[i]? with
    | none => s
    | some r =>
      let s' := { s with sysc := dropAt s.sysc i }
      let pts := ((s.dev.sysThreads[0]?).getD Slot.initial).pts
      match r.result with
      | some v => if s.condsDone r.conds then s'.replySysc r v pts r.pages else s
      | none =>
        let q := (s'.takeSysc r).residentCall r pts
        match q.2 with
        | .later => s
        | .never => q.1
        | .value v ts cs pages =>
          let s := q.1.setResidentPts ts
          if s.condsDone cs then s.replySysc r v ts pages else { s with sysc := s.sysc ++ [{ r with result := some v, conds := cs, pages := pages }] }

end Sys2Proof.Machine
end

