-- ==== Sys2Proof/Machine/HostPort.lean ====
section
/-! DEFINITION. The host (R391-R395): the memory BAR and its window, the register BAR, as steps that the host causes. -/

namespace Sys2Proof.Machine

/-! ## The memory BAR (R392, R393) -/

/-- The physical address of a BAR offset when the host may reach its line: in a visible page, and neither map memory, scratch backing
nor TEXT (R392). -/
def State.hostPa (s : State) (off : Nat) : Option Nat :=
  let pa := s.dev.winbase.toNat + off
  if off < stackBytes ∧ s.dev.hostVisible.contains (pa / 65536) ∧ (s.kmaps.all fun m => !m.2.pages.contains (pa / 65536 * 65536)) ∧
    !s.env.hidden.contains (pa / 65536) ∧ !s.textPage (pa / 65536 * 65536) ∧
    !s.mappedAs (fun e => e.getLsbD 5 || e.getLsbD 6) (pa / 65536 * 65536)
  then some pa else none

/-- The parts of a BAR range, one for each 64-byte line: offset and length. -/
def barParts (off n : Nat) : List (Nat × Nat) :=
  if n = 0 then []
  else
    (List.range ((off + n - 1) / 64 - off / 64 + 1)).map fun i =>
      let a := max off (64 * (off / 64 + i))
      (a, min (off + n) (64 * (off / 64 + i) + 64) - a)

/-- Bytes as a little-endian number. -/
def natOf : List Byte → Nat
  | [] => 0
  | b :: bs => b.toNat + 256 * natOf bs

/-- The low `n` bytes of a number. -/
def bytesOf : Nat → Nat → List Byte
  | 0, _ => []
  | n + 1, v => BitVec.ofNat 8 (v % 256) :: bytesOf n (v / 256)

/-- Whether an access of the host can be served now: no line that it may reach is poisoned (R403), and none before it is held. -/
def State.hostReady (s : State) (off n : Nat) : Bool :=
  s.dev.hostHeld.isEmpty && (barParts off n).all fun p => match s.hostPa p.1 with
    | some pa => !s.dev.poisoned.contains (pa / 64)
    | none => true

/-- An AER error logged. -/
def State.logAer (s : State) : State := { s with dev := { s.dev with aer := s.dev.aer + 1 } }

/-- One part of a host write: a store by the host's clock, or discarded and logged. -/
def State.hostStore (s : State) (off n v : Nat) : State :=
  match s.hostPa off with
  | none => s.logAer
  | some pa =>
    let r := s.homeWrite (.mem pa) n v s.dev.hostPts true
    { r.1 with dev := { r.1.dev with hostPts := max r.1.dev.hostPts r.2 } }

/-- One part of a host read: a load with λ = 0 by the host's clock, or all ones and logged. -/
def State.hostLoad (s : State) (off n : Nat) : State × List Byte :=
  match s.hostPa off with
  | none => (s.logAer, List.replicate n 0xFF)
  | some pa =>
    let p := s.dev.hostPts + 1
    let r := s.homeRead (.mem pa) p 0 true
    ({ r.1 with dev := { r.1.dev with hostPts := max p r.2 } }, bytesOf n (s.mem.readNat pa n))

/-- An access that cannot complete stands behind a poisoned line; none in service cleans one. -/
def State.holdHost (s : State) (a : HostAcc) : State := { s with dev := { s.dev with hostHeld := s.dev.hostHeld ++ [a] } }

/-- HOST_WRITE: a write of the host, line by line in ascending order. -/
def execHostWrite (off : Nat) (bytes : List Byte) (s : State) : Host.Outcome State Fault Refusal :=
  answer <|
    if !s.hostReady off bytes.length then s.holdHost { off := off, data := some bytes, n := bytes.length }
    else (barParts off bytes.length).foldl (fun s p => s.hostStore p.1 p.2 (natOf ((bytes.drop (p.1 - off)).take p.2))) s

/-- HOST_READ: a read of the host; what it returns is kept in `hostReads`. -/
def execHostRead (off n : Nat) (s : State) : Host.Outcome State Fault Refusal :=
  answer <|
    if !s.hostReady off n then s.holdHost { off := off, data := none, n := n }
    else
      let r := (barParts off n).foldl (fun (r : State × List Byte) p => let q := r.1.hostLoad p.1 p.2; (q.1, r.2 ++ q.2)) (s, [])
      { r.1 with dev := { r.1.dev with hostReads := r.1.dev.hostReads ++ [r.2] } }

/-! ## The register BAR (R394) -/

/-- WINBASE after a write of `v`: a value that breaks the rules of R392 is discarded. -/
def State.setWinbase (s : State) (v : Word) : State :=
  let x := v.toNat
  if x / 2 ^ 47 = 0 ∧ x / 2 ^ 39 % 256 = s.dev.devnum ∧ x / 2 ^ 36 % 8 < s.part.pastures ∧ x % 2 ^ 36 = 0
  then { s with dev := { s.dev with winbase := v } } else s

/-- WINBASE_WRITE. -/
def execWinbaseWrite (v : BitVec 64) (s : State) : Host.Outcome State Fault Refusal := answer (s.setWinbase v)

/-- REGISTER_BAR_WRITE: discarded, but for WINBASE. -/
def execRegisterBarWrite (off : Nat) (v : BitVec 64) (s : State) : Host.Outcome State Fault Refusal :=
  answer (if off = 0x18 then s.setWinbase v else s)

/-- STATUS. -/
def State.statusReg (s : State) : Nat :=
  (if s.dev.stage = 4 then s.dev.devnum else 0) * 2 ^ 16 + s.dev.errcode * 2 ^ 8 + s.dev.stage

/-- The published CAPA word, as it is on a core that is no spare. -/
def State.capaBar (s : State) : Nat :=
  if s.dev.published then
    (s.spareFolds s.dev.devnum).length * 2 ^ 32 + s.capaSlots s.dev.devnum * 2 ^ 12 + s.part.vwlog * 2 ^ 8 + (if s.part.full then 3 else 0)
  else 0

/-- Eight bytes of a 512-bit register. -/
def regWord (x : BitVec 512) (i : Nat) : Nat := (x.extractLsb' (64 * (i % 8)) 64).toNat

/-- What a host read of the 8 bytes at an offset of the register BAR returns. -/
def State.barReg (s : State) (off : Nat) : Nat :=
  if off = 0x00 then s.part.code + Config.stepping.toNat * 2 ^ 16
  else if off = 0x08 then s.capaBar
  else if off = 0x10 then s.statusReg
  else if off = 0x18 then s.dev.winbase.toNat
  else if off = 0x20 then s.deviceTime
  else if off = 0x28 then s.dev.excCount
  else if 0x40 ≤ off ∧ off < 0x140 then regWord ((s.dev.meas[(off - 0x40) / 64]?).getD 0) ((off - 0x40) / 8)
  else if 0x200 ≤ off ∧ off < 0x240 then regWord Config.devId ((off - 0x200) / 8)
  else 0

end Sys2Proof.Machine
end

