-- ==== Sys2Proof/Machine/Service.lean ====
section
/-! DEFINITION. Boot, Jarper Links and service (R396-R406): device reset, link events, spares and repair, data errors, firmware
update, removal and over-temperature. -/

namespace Sys2Proof.Machine

/-! ## Boot (R394-R398) -/

/-- STAGE set, which MSI-X vector 0 signals. -/
def Device.enterStage (d : Device) (n : Nat) : Device := if d.stage = n then d else { d with stage := n, msix := 0 :: d.msix }

/-- Boot has failed, or the device halts. -/
def Device.halt (d : Device) (err : Nat) : Device := { d with errcode := err }.enterStage 15

/-- Whether a signature by a key of the fused list counts. -/
def Device.keyOk (d : Device) (keyid : Nat) (sigOk : Bool) : Bool :=
  decide (keyid < 8) && d.keys.getLsbD keyid && !d.revoked.getLsbD keyid && sigOk

/-- The image slot the ROM starts: the active one, then the other. -/
def Device.bootSlot (d : Device) : Option Nat :=
  [d.activeImage, 1 - d.activeImage].find? fun i => let x := (d.images[i]?).getD {}; d.keyOk x.keyid x.sigOk

/-- Whether the configuration record counts (R397). -/
def State.confOk (s : State) (r : ConfRec) : Bool :=
  let f := r.raw.readNat
  s.dev.keyOk r.keyid r.sigOk && f 0 4 == 0x01435645 && f 4 4 == 1 && f 8 8 / 4 == 0 && decide (f 16 2 < 2048) && f 19 1 == 0
    && decide (f 20 4 ≤ s.part.power) && f 28 4068 == 0

/-- The values Evoven Resident runs with, and MEAS1 extended with the digest of a record that counts. -/
def State.configure (s : State) : Device :=
  let d := s.dev
  match d.conf.filter s.confOk with
  | some r =>
    let f := r.raw.readNat
    { d.extend 1 r.digest with reqsign := f 8 1 % 2 == 1, debugok := f 8 1 / 2 % 2 == 1, commons := f 16 2, devnum := f 18 1, powercap := f 20 4, rowlimit := f 24 4 }
  | none => { d with reqsign := true, debugok := false, commons := 0, devnum := 0, powercap := s.part.power, rowlimit := 64 }

/-- A port's width by its good lanes (R399 step 2). -/
def Link.widthOf (l : Link) : Nat :=
  let n := popBits 18 l.good.toNat
  if 16 ≤ n then 16 else if 8 ≤ n then 8 else 0

/-- A port that is down. -/
def Link.down (l : Link) : Link := { l with width := 0, rate := 0, route := 0 }

/-- A port after detection, lane choice, rate training and the identity exchange (R399). -/
def Link.trained (l : Link) (commons : Nat) : Link :=
  if l.widthOf = 0 ∨ !([56, 112, 224].contains l.partnerRate) ∨ !l.idOk then l.down
  else { l with width := l.widthOf, rate := l.partnerRate, route := if l.commons = commons then 1 else 2 }

/-- Whether port `q` names the same device number of this commons as a partner that is another device. -/
def Link.clashes (l q : Link) : Bool := l.route == 1 && q.route == 1 && l.dev == q.dev && l.id != q.id

/-- Port `p` of a part with `n` ports brought up (R9): a device number found twice brings both ports down and is recorded (R399). -/
def Device.bringUp (n : Nat) (d : Device) (p : Nat) : Device :=
  match if p < n then aget d.links p else none with
  | none => d
  | some l =>
    let l := l.trained d.commons
    let twins := d.links.filter fun q => q.1 != p && l.clashes q.2
    if (l.route = 1 ∧ l.dev = d.devnum) ∨ !twins.isEmpty then
      let links := twins.foldl (fun m q => aset m q.1 q.2.down) (aset d.links p l.down)
      { d with links := links, syslog := d.syslog ++ [(p, l.dev)] }
    else { d with links := aset d.links p l }

/-- The device as device reset finds it: what fuses, flash and wiring hold stays (log entry 1). -/
def Device.cleared (d : Device) : Device :=
  { Device.initial with
    keys := d.keys, revoked := d.revoked, images := d.images, activeImage := d.activeImage, conf := d.conf,
    links := d.links.map fun p => (p.1, p.2.down), sparedRows := d.sparedRows, laneSpares := d.laneSpares, sramSpares := d.sramSpares,
    rowErrors := d.rowErrors, syslog := d.syslog, hostReads := d.hostReads, aer := d.aer, msix := d.msix, removed := d.removed }

/-- A core after device reset: its register banks are what they are. -/
def Core.resetHard (x : Core) : Core := { Core.initial with banks := x.banks, nslots := popBits 16 x.banks.toNat }

/-- A fold after device reset: its spare stays mapped. -/
def Fold.resetHard (x : Fold) : Fold := { Fold.initial with spare := x.spare }

/-- The state from which the boot ROM starts: HBM is not cleared. -/
def State.hardReset (s : State) : State :=
  { State.reset with
    part := s.part, mem := s.mem, env := s.env, agenda := s.agenda, dev := s.dev.cleared,
    cores := s.cores.map fun c => (c.1, c.2.resetHard), folds := s.folds.map fun f => (f.1, f.2.resetHard) }

/-- Faulty register banks mapped out: the core's slots are numbered over the usable ones (R396, R402, R418). -/
def State.mapBanks (s : State) : State :=
  s.env.banks.foldl (fun s x => s.setCore x.1 { s.core x.1 with banks := x.2, nslots := popBits 16 x.2.toNat }) s

/-- The least number of usable banks over the compute cores of the part on device `d`: CAPA SLOTS (R117, R402). -/
def State.leastBanks (s : State) (d : Nat) : Nat :=
  (List.range s.part.cores).foldl (fun m n => min m (popBits 16 (s.core (4096 * d + n)).banks.toNat)) 16

/-- The launch queues registered: at most 16 of a pasture of the part, in order (R288). -/
def ringsOf (pastures : Nat) : List Ring → List Ring → List Ring
  | acc, [] => acc
  | acc, r :: rs =>
    if r.pasture < pastures ∧ (acc.filter fun x => x.pasture == r.pasture).length < 16 then ringsOf pastures (acc ++ [{ r with tails := [] }]) rs
    else ringsOf pastures acc rs

/-- PASTURE written in the header of each registered queue (R288). -/
def State.markRings (s : State) (rs : List Ring) : State := rs.foldl (fun s r => (s.homeWrite (.mem (r.hdr + 20)) 1 r.pasture 0 true).1) s

/-- The stages after the image is verified: HBM and register banks, links, CAPA and launch queues (R396). -/
def State.bootResident (s : State) : State :=
  if s.env.hbmBad then { s with dev := s.dev.halt 2 }
  else
    let s := State.mapBanks { s with dev := s.configure.enterStage 2 }
    let d := ((s.dev.links.map (·.1)).foldl (Device.bringUp s.part.ports) s.dev).enterStage 3
    let rs := ringsOf s.part.pastures [] s.env.rings
    let s := State.markRings { s with dev := d } rs
    { s with dev := { s.dev with published := true, slotsAt := aset s.dev.slotsAt d.devnum (s.leastBanks d.devnum), rings := rs, hostVisible := s.env.visible }.enterStage 4 }

/-- The boot ROM (R396). -/
def State.boot (s : State) : State :=
  let d := s.dev
  if d.keys = 0 then { s with dev := d.halt 3 }
  else
    match d.bootSlot with
    | none => { s with dev := d.halt 1 }
    | some i => State.bootResident { s with dev := Device.enterStage { d.extend 0 ((d.images[i]?).getD {}).digest with activeImage := i } 1 }

/-- Configuration records given to Evoven Resident in service: it writes those whose signatures verify, and the next reset finds the last
(R397). -/
def State.writeConfs (s : State) : State :=
  let ok := if s.dev.stage = 4 then s.env.confs.filter fun r => s.dev.keyOk r.keyid r.sigOk else []
  { s with dev := { s.dev with conf := ok.getLast?.or s.dev.conf }, env := { s.env with confs := [] } }

/-- DEVICE_RESET: power-on, device reset or function-level reset, and the boot that follows. -/
def execDeviceReset (s : State) : Host.Outcome State Fault Refusal := answer s.writeConfs.hardReset.boot

/-! ## Jarper Links (R367, R399-R401) -/

/-- LINK_BRINGUP. -/
def execLinkBringup (port : Nat) (s : State) : Host.Outcome State Fault Refusal := answer { s with dev := s.dev.bringUp s.part.ports port }

/-- LINK_LANE_FAILURE: the lane is lost, and a port in service retrains on a spare, at 8 lanes, or goes down (R400). -/
def execLinkLaneFailure (port lane : Nat) (s : State) : Host.Outcome State Fault Refusal :=
  answer <|
    match aget s.dev.links port with
    | none => s
    | some l =>
      let l := { l with good := l.good &&& ~~~(BitVec.twoPow 18 lane) }
      let l := if l.width = 0 then l else if l.widthOf = 0 then l.down else { l with width := l.widthOf }
      { s with dev := { s.dev with links := aset s.dev.links port l } }

/-- LINK_REQUEST_RETRY: a far message lost on its link is held by its gateway again while no route leaves this commons; on another
route it is sent again, and its duplicate discarded. Other requests stay where they are in flight until their route returns. -/
def execLinkRequestRetry (i : Nat) (s : State) : Host.Outcome State Fault Refusal :=
  answer <|
    match s.dev.farOut[i]? with
    | none => s
    | some m =>
      if s.dev.links.any fun l => l.2.route != 0 && l.2.width != 0 && l.2.commons != s.dev.commons then s
      else { s with dev := { s.dev with farOut := dropAt s.dev.farOut i }, far := m :: s.far }

/-! ## Errors, spares and repair (R402, R403) -/

/-- Whether a clean copy of a line exists: its slice holds it unmodified beside memory, or an L1 holds its present value. -/
def State.cleanCopy (s : State) (ln : Nat) : Bool :=
  (match aget (s.fold (homeFold ln)).lines ln with
   | some x => !x.dirty
   | none => false)
    || s.cores.any fun c => match l1Find c.2.l1 ln with
      | some x => x.wts == (s.tsAt (.mem (64 * ln))).1
      | none => false

/-- Whether a check waits for a poisoned line. -/
def Chk.poison {α : Type} (c : Chk α) (ln : Nat) : Bool :=
  match c with
  | .wait (.poisoned n) => n == ln
  | _ => false

/-- Whether the copy engine of core `c` stands at a poisoned line. -/
def State.copyPoison (s : State) (c : Nat) (x : Core) (ln : Nat) : Bool :=
  match x.crun with
  | some r => if r.chunks.isEmpty then (s.copyWord c r.cmd r.mark).poison ln
    else match s.copyMove c with
      | some (none, i) => (s.popPick.copyStep c r i).poison ln
      | _ => false
  | none => (s.copyStart c).poison ln || match x.cwalk with
    | some w => !w.fresh && (s.walkAsk c w).poison ln
    | none => false

/-- Whether a stream on register `r` of slot `k` stands at a poisoned line. -/
def State.streamPoison (s : State) (c k r : Nat) (p : Port) (ln : Nat) : Bool :=
  let n := s.perPop r p
  match p.kind with
  | .input => (s.streamRead c k p p.pts (p.span (p.done + n * p.buf.length) n)).poison ln
  | .output => (p.unwritten.take (p.askWrites (128 - (s.core c).asked))).any fun j =>
    (s.streamWrite c k p p.pts (p.appendElems r ((p.ahead + j) * n) n ((p.buf[j]?).getD ⟨0, 0⟩).val)).poison ln
  | _ => false

/-- Whether the matrix unit of core `c` stands at a poisoned line. -/
def State.matrixPoison (s : State) (c : Nat) (x : Core) (ln : Nat) : Bool :=
  match x.mrun.or x.mq.head? with
  | none => false
  | some op =>
    match op.kind with
    | .mma _ _ _ sl _ _ _ => let w := x.wslot sl; w.reload && (s.readColumn c op w.plat w.origin w.count).poison ln
    | .wbld _ org _ l _ _ n => (s.readColumn c op l org n).poison ln
    | .mload _ org l =>
      let o := origin2 org
      (s.platReads c op.slot (platOf l) op.pts ((List.range 32).map fun n => [o.1 + n, o.2 + op.got.length / 32, 0, 0])).poison ln
    | .mdrain t ty org l rows cols mult shift zout => (s.drainLines c op (platOf l) org (drained32 (x.tile t) ty rows cols mult shift zout)).poison ln
    | .wbinv _ => false

/-- Whether work of core `c` on a path stands at a poisoned line. -/
def State.pathPoison (s : State) (c : Nat) (x : Core) (ln : Nat) : Bool :=
  s.copyPoison c x ln || s.matrixPoison c x ln
    || (match (s.fold (foldOf c)).frun with
        | some r =>
          let r := s.fieldAt (foldOf c) r
          r.cmd.core == c && s.lanesLeft (foldOf c) r != 0 && (s.fieldLane (foldOf c) r).poison ln
        | none => false)
    || (List.range 16).any fun k => (x.slot k).ports.any fun p => s.streamPoison c k p.1 p.2 ln

/-- Whether a thread waits for a poisoned line: its instruction, its fetch, or the next unit of its vector access. -/
def Slot.poison (t : Slot) (ln : Nat) : Bool :=
  t.wait == some (.poisoned ln) || t.fetchWait == some ln || (t.vec.bind fun v => v.todo.head?.map fun u => u.2.2.line) == some ln

/-- Whether the request at the head of an agent's queue stands at a poisoned line. -/
def State.agentPoison (s : State) (r : MapReq) (ln : Nat) : Bool :=
  match r.ops, s.kmap? r.region with
  | (g, o) :: _, some m => (m.linesOf g o).contains ln
  | _, _ => false

/-- Whether work of hardware on core `c`'s own pages stands at a poisoned line: messages held, records waiting, an expiry. -/
def State.pagePoison (s : State) (c : Nat) (x : Core) (ln : Nat) : Bool :=
  (!x.heldMsgs.isEmpty && s.inboxBad c == some ln)
    || (!x.waitingRecs.isEmpty && (s.spanBad c frqOff 24 == some ln || s.tailBad c == some ln))
    || s.expiryHeld c == some ln

/-- Whether the delivery of a capsule of launch `n` stands at a poisoned line. -/
def State.deliveryPoison (s : State) (n : Nat) (l : Launch) (ln : Nat) : Bool :=
  l.transit.any fun x => s.inStore x && (s.taker n l x).any fun c => s.bayBad c == some ln

/-- Launches that an access to a poisoned line holds: of a slot, a context, work on a path or on a core's own pages, a packet, a request
at a map agent, a capsule's delivery, or the dispatcher's own for a launch that it places. -/
def State.poisonWaiters (s : State) (ln : Nat) : List Nat :=
  (s.cores.filterMap fun c => if c.2.slots.toList.any (·.poison ln) || s.pathPoison c.1 c.2 ln || s.pagePoison c.1 c.2 ln then c.2.launch else none)
    ++ (s.channels.flatMap fun x => (x.2.ctxs.filter fun y => y.2.thread.poison ln).map (·.2.launch))
    ++ ((s.packets ++ s.channels.flatMap fun x => x.2.deferred).filter fun p => p.pa / 64 == ln).filterMap (fun p => (s.core p.core).launch)
    ++ (s.folds.filterMap fun f => (f.2.agentQ.head?.filter fun r => s.agentPoison r ln).bind fun r => (s.as r.who).myLaunch)
    ++ (s.dev.launches.filter fun l => (l.2.st == .placing && (s.launchLines l.2).contains ln) || s.deliveryPoison l.1 l.2 ln).map (·.1)

/-- Whether a line that has no clean copy can be poisoned: one of memory, or of a scratchpad's pages, those of a placed core's kernel and
those that hardware writes (log entry 66). -/
def State.mayPoison (s : State) (ln : Nat) : Bool :=
  decide (ln < scrLines) || decide ((ln - scrLines) % 65536 < 64 * (s.core ((ln - scrLines) / 65536)).scrPages)
    || decide (64 * 1016 ≤ (ln - scrLines) % 65536)

/-- UNCORRECTABLE_DATA_ERROR: a line with a clean copy is rebuilt; any other is poisoned, and Evoven Resident aborts the launches
that wait for it. -/
def execUncorrectableDataError (ln : Nat) (s : State) : Host.Outcome State Fault Refusal :=
  answer <|
    if s.dev.poisoned.contains ln then (s.poisonWaiters ln).eraseDups.foldl (fun s n => s.abortLaunch n 1) s
    else if s.cleanCopy ln || !s.mayPoison ln then s
    else { s with dev := { s.dev with poisoned := ln :: s.dev.poisoned } }

/-- Corrections counted for a row. -/
def Device.rowCount (d : Device) (ch row : Nat) : Nat := ((d.rowErrors.find? fun x => x.1 == (ch, row)).map (·.2)).getD 0

/-- HBM_ROW_SPARE: one more correction of a row and of its stack; past ROWLIMIT the row is copied to a spare, under its lock, once no
context holds that. -/
def execHbmRowSpare (ch row : Nat) (s : State) : Host.Outcome State Fault Refusal :=
  answer <|
    let s := s.stackFix (ch / 32)
    let d := s.dev
    let n := d.rowCount ch row + 1
    let others := d.rowErrors.filter fun x => x.1 != (ch, row)
    if d.rowlimit < n ∧ (s.chan ch).locks.all (fun l => l.1 != row) then
      { s with dev := { d with rowErrors := others, sparedRows := (ch, row) :: d.sparedRows } }
    else { s with dev := { d with rowErrors := ((ch, row), n) :: others } }

/-- HBM_LANE_SPARE: one of the two spare lanes of a channel taken into use. -/
def execHbmLaneSpare (ch : Nat) (s : State) : Host.Outcome State Fault Refusal :=
  answer <|
    let n := (aget s.dev.laneSpares ch).getD 0
    if n < 2 then { s with dev := { s.dev with laneSpares := aset s.dev.laneSpares ch (n + 1) } } else s

/-- SRAM_ROW_SPARE: a row or column of an array, whose errors have been corrected, replaced, its contents copied. -/
def execSramRowSpare (a : Nat) (s : State) : Host.Outcome State Fault Refusal :=
  let s := s.sramFix a
  answer { s with dev := { s.dev with sramSpares := a :: s.dev.sramSpares } }

/-- SPARE_MAPPING: the spare core of a fold that no launch holds stands in for core `c`, under its number (R13). -/
def execSpareMapping (c : Nat) (s : State) : Host.Outcome State Fault Refusal :=
  answer <|
    let f := s.fold (foldOf c)
    if s.isCompute c ∧ devOf c = s.dev.devnum ∧ f.launch.isNone ∧ f.spare.isNone then
      (s.setFold (foldOf c) { f with spare := some c }).setCore c (s.core c).resetHard
    else s

/-! ## Firmware, removal, temperature (R404-R406) -/

/-- LIVE_FIRMWARE_UPDATE: an image that verifies is written to the inactive slot, which the next boot uses, and MEAS3 extended. -/
def execLiveFirmwareUpdate (image : BitVec 512) (keyid : Nat) (sigOk : Bool) (s : State) : Host.Outcome State Fault Refusal :=
  answer <|
    let d := s.dev
    if d.keyOk keyid sigOk then
      let i := 1 - d.activeImage
      { s with dev := { d.extend 3 image with images := d.images.setIfInBounds i { digest := image, keyid := keyid, sigOk := sigOk }, activeImage := i } }
    else s

/-- Every launch that is not Retired aborted with status 0x01. -/
def State.abortAll (s : State) : State := (s.dev.launches.map (·.1)).foldl (fun s n => s.abortLaunch n 1) s

/-- Whether every launch is Retired. -/
def State.allRetired (s : State) : Bool := s.dev.launches.all fun l => l.2.st == .retired

/-- MODULE_REMOVAL: every launch aborted; once all are Retired the ports go down and the module is out. -/
def execModuleRemoval (s : State) : Host.Outcome State Fault Refusal :=
  answer <|
    let s := s.abortAll
    if s.allRetired then { s with dev := { s.dev with links := s.dev.links.map (fun p => (p.1, p.2.down)), removed := true } } else s

/-- OVER_TEMPERATURE: every launch aborted, ERRCODE 4, and STAGE 15 once all are Retired. -/
def execOverTemperature (s : State) : Host.Outcome State Fault Refusal :=
  answer <|
    let s := s.abortAll
    if s.allRetired then { s with dev := s.dev.halt 4 } else { s with dev := { s.dev with errcode := 4 } }

end Sys2Proof.Machine
end

