-- ==== Sys2Proof/Machine/Reply.lean ====
section
/-! DEFINITION. The arrival of replies (R6, R26, R379): a parked instruction that goes on, one that performs its units one by one
(R211), and one that completes. -/

namespace Sys2Proof.Machine

/-- Whether the wait of thread `w` has ended. What is state of a thread's own core holds only while that core issues. -/
def State.waitOver (s : State) (w : Who) (x : Wait) : Bool :=
  match w with
  | .slot c k => s.holds c k x && (!x.isLocal || s.coreLive c)
  | .ctx ch i => match aget (s.chan ch).ctxs i with
    | some y => s.ctxHolds ch i y x
    | none => false
  | .sys _ => s.sysHolds (s.as w).thread x

/-- Whether a completion that waits for `x` is made when its reply arrives; the others are made by another agent. -/
def Wait.replied (x : Wait) (shipping : Bool) : Bool :=
  match x with
  | .follow | .moduleFree _ | .served | .lead _ | .phase .. => false
  | .near => !shipping
  | _ => true

/-- Whether a completion's wait is a condition that its reply awaits. -/
def Wait.conditional : Wait → Bool
  | .stopping _ | .fence _ | .settled _ | .launchDone _ | .launchRunning _ | .transit _ => true
  | _ => false

/-- The effect that a reply completes with, of an instruction that waited for `x` (R131, R313): a TSTOP whose target ended FAULTED
is refused, and an instruction whose launch was aborted, or never ran again, answers 3. -/
def State.replyEff (s : State) (x : Wait) (e : Eff) : Eff :=
  match x with
  | .stopping j =>
    let u := s.slot s.myCore j
    if u.st = .faulted then { e with writes := e.writes.map refuseWr } else { e with pts := max e.pts u.pts }
  | .launchRunning l =>
    if (s.launch? l).any fun y => y.st == .running && !y.aborted then e else { e with writes := e.writes.map (statusWr 3) }
  | _ => e

/-- Whether a reply to thread `w` may arrive: one that travels needs a route from the device it comes from (R367). -/
def State.replyReady (s : State) (w : Who) (t : Slot) : Bool :=
  t.st == .parked && (t.vec.isSome || match t.reply, t.wait with
    | some e, some (.full _) => (t.blocked e).isEmpty
    | some _, some x => x.replied t.shipTo.isSome && (!x.conditional || s.waitOver w x)
        && (x != .reply || t.peer.all fun d => s.routed d (s.standsOn w))
    | none, some x => t.again.isSome && x.reissues && s.waitOver w x
    | _, none => false)

/-- REPLY_ARRIVAL: the reply to a parked instruction arrives: its next unit is performed, it goes on from its beginning, having had no
effect, or it completes (R6, R26, R211, R379). -/
def execReplyArrival (w : Who) (s : State) : Host.Outcome State Fault Refusal :=
  answer <|
    let s := s.as w
    let t := s.thread
    if !s.replyReady w t then s
    else
      match t.vec, t.reply, t.wait with
      | some v, _, _ => s.vecStep v
      | none, some e, some x =>
        let s := s.land (s.replyEff x e)
        -- a capsule leaves at the completion (R320), not while a W destination is full
        if s.thread.reply.isSome then s else s.sendOff
      | none, none, _ => { s.setThread { t with st := .runnable, wait := none } with issue := t.again }
      | none, some _, none => s

end Sys2Proof.Machine
end

