-- ==== Sys2Proof/Machine/Sched.lean ====
section
/-! DEFINITION. What goes on the agenda when it is empty (log entry 5): for each ac of the arithmetic clock one round, the steps of
agents that are due and a turn of every wheel, those of one core in the order in which faults of one ac are entered: slots in
ascending number, then its copy engine, then its field (R368; log entry 79). A step that is no longer due when its turn comes does
nothing. -/

namespace Sys2Proof.Machine

/-! ## Steps that are due -/

/-- `x` when `b`. -/
def due (b : Bool) (x : Event) : List Event := if b then [x] else []

/-- The positions of a list of `n`, the last first: a step that takes its entry away leaves the positions before it. -/
def downFrom (n : Nat) : List Nat := (List.range n).reverse

/-- The steps due for a thread, of whatever kind. -/
def State.threadSteps (s : State) (w : Who) (t : Slot) : List Event :=
  (match t.fetchWait with
   | some ln => due (s.lineComes w t ln) (.fetchLineArrival w)
   | none => [])
    ++ due (s.replyReady w t) (.replyArrival w)

/-- The slot of a core whose operation its matrix unit serves next. -/
def Core.unitSlot (x : Core) : Option Nat := (x.mrun.or x.mq.head?).map (·.slot)

/-- The fills in flight that slots of compute and gateway cores sent, in the order of their slots (R368). -/
def State.slotFills (s : State) : List Nat :=
  s.cores.flatMap fun c => (List.range 16).flatMap fun k => (List.range s.fills.length).filter fun i =>
    ((s.fills[i]?).bind (·.sender)).map (·.1) == some (.slot c.1 k)

/-- The position at which fill `i` stands once those before it in this order have been taken. -/
def stepOf (order : List Nat) (i : Nat) : Nat := i - ((order.takeWhile (· != i)).filter (· < i)).length

/-- The agents' steps that may fault slot `k` of core `c`: a context of its thread shipped back, a fill that it sent, a queue request
of its that a controller serves next (R368). -/
def State.agentSteps (s : State) (c k : Nat) : List Event :=
  let order := s.slotFills
  (s.channels.flatMap fun x => (x.2.ctxs.filter fun y => y.2.fault.isSome && y.2.core == c && y.2.slot == k).map fun y => .contextFaultBack x.1 y.1)
    ++ ((order.filter fun i => ((s.fills[i]?).bind (·.sender)).map (·.1) == some (.slot c k)).map fun i => .remoteFillArrival (stepOf order i))
    ++ (s.folds.filter fun f => (f.2.qctlQ.head?.map (·.who)) == some (.slot c k)).map fun f => .queueRequestService f.1

/-- Whether a thread's bundle, as it stands at its PC, takes a message. -/
def State.receives (s : State) (w : Who) : Bool :=
  let recv (i : Instr) : Bool := match i with
    | .recv _ | .recvNw _ => true
    | _ => false
  match ((s.as w).bundle).2 with
  | .ok b => recv b.first || (b.second.map recv).getD false
  | .error _ => false

/-- The slots of a core that take messages in this ac: waiting in RECV, or about to issue one (`pick`), in ascending number. -/
def State.receivers (s : State) (c : Nat) (x : Core) (pick : Option Nat) : List Nat :=
  (List.range 16).filter fun k =>
    (x.slot k).wait == some .message && s.replyReady (.slot c k) (x.slot k) || (pick == some k && s.receives (.slot c k))

/-- The slot whose turn it is, to take a message, where slot `k` stands: messages are taken in slot rotation order (R299). -/
def Core.turnOf (x : Core) (ks : List Nat) (k : Nat) : Nat :=
  let order := (List.range 16).map (fun i => (x.lastSlot + 1 + i) % 16) |>.filter ks.contains
  match posOf k ks with
  | some i => order.getD i k
  | none => k

/-- The steps due for slot `k` of core `c`, with the turn of the core's wheel where slot `pick` issues. -/
def State.slotSteps (s : State) (c k : Nat) (x : Core) (pick : Option Nat := none) : List Event :=
  let t := x.slot k
  let follow := t.wait == some .follow && t.reply.isSome
  let j := x.turnOf (s.receivers c x pick) k
  s.agentSteps c k ++ s.threadSteps (.slot c j) (x.slot j)
    ++ due (t.fetchWait.isNone && s.coreLive c && (s.aheadLine c k).isSome) (.fetchLineArrival (.slot c k))
    ++ due (follow && !t.followBuf.isEmpty) (.followJoin c k)
    ++ due (follow && t.followBuf.isEmpty && decide (t.flwSince + 256 ≤ s.ac)) (.flwTimeout c k)
    ++ due t.shipTo.isSome (.contextTake c k)
    ++ (t.ports.flatMap fun p => match p.2.kind with
        | .input => due (p.2.fault.isNone && decide (p.2.buf.length < 8)) (.streamElementArrival c k p.1)
        | .output => due (p.2.fault.isNone && !p.2.buf.isEmpty) (.streamWriteCompletion c k p.1)
        | _ => [])
    ++ (match t.wait with
      | some (.page d p) => [.pageRefill d p]
      | _ => [])
    ++ (if x.unitSlot = some k then due x.mrun.isNone (.matrixOpBegin c) ++ due x.mrun.isSome (.matrixOpCompletion c) else [])
    ++ due (pick == some j) (.bundleIssue (.core c))

/-- Whether the wheel of a core turns: placed or a gateway core, and not pre-empted. -/
def State.wheelTurns (s : State) (c : Nat) (x : Core) : Bool := (x.launch.isSome || s.isGateway c) && !x.saved

/-- The slot that the wheel of core `c` is about to issue. -/
def State.nextIssue (s : State) (c : Nat) : Option Nat :=
  if !s.coreLive c then none
  else
    let s := s.turn c
    let x := s.core c
    rotate 16 x.lastSlot fun k => decide (k < x.nslots) && s.mayIssue c k

/-- The steps due for core `c`, the turn of its wheel among those of the slot that it issues. -/
def State.coreSteps (s : State) (c : Nat) (x : Core) : List Event :=
  let turns := s.wheelTurns c x
  let pick := if turns then s.nextIssue c else none
  due (!x.escal.isEmpty) (.shepherdFaultEscalation c)
    ++ due (x.expired && !x.saved) (.timerExpiry c)
    ++ ((List.range 16).flatMap fun k => s.slotSteps c k x pick)
    ++ due (turns && pick.isNone) (.bundleIssue (.core c))
    ++ if x.chalted then [] else
        due (!x.cq.isEmpty || (x.crun.isNone && (x.cwalk.map (·.fresh)).getD false)) (.copyCommandStart c)
          ++ due (x.crun.isSome || !x.cover.isEmpty) (.copyCommandCompletion c)
          ++ due (x.crun.isNone && x.cwalk.isSome) (.chainWalkStep c)
          ++ due (x.crun.isSome || x.cwalk.isSome || !x.cq.isEmpty) (.copyEngineFault c)

/-- The steps due for fold `f`, but for queue requests of slots. -/
def Fold.steps (f ac : Nat) (x : Fold) : List Event :=
  (if x.fhalted then [] else
    due (x.frun.isNone && !x.fq.isEmpty) (.fieldCommandStart f) ++ due (x.frun.any fun r => decide (r.due ≤ ac)) (.fieldCommandCompletion f) ++ due x.frun.isSome (.fieldFault f))
    ++ due (!x.agentQ.isEmpty) (.mapRequestService f) ++ due ((x.qctlQ.head?.map fun r => match r.who with
      | .slot .. => false
      | _ => true).getD false) (.queueRequestService f)

/-- The steps due for channel core `ch`. -/
def State.chanSteps (s : State) (ch : Nat) (x : Channel) : List Event :=
  (x.ctxs.flatMap fun y =>
    due (y.2.returning && s.ctxHolds ch y.1 y.2 .packets) (.xretArrival ch y.1)
      ++ s.threadSteps (.ctx ch y.1) y.2.thread)
    ++ (x.windows.flatMap fun w => due (!w.2.arrived) (.overlayLineArrival ch w.1))
    ++ ((x.present.filter fun ln => (aget (s.fold (homeFold ln)).lines ln).isNone).map .channelEvictionNotice)
    ++ due (!x.ctxs.isEmpty) (.bundleIssue (.chan ch))

/-- The walks of a die that end, each named by a core of the die that runs in its address space. -/
def State.walkSteps (s : State) (d : Nat) (x : Die) : List Event :=
  (x.misses.filter (·.walking)).flatMap fun m =>
    match s.cores.find? fun c => dieOf c.1 == d && s.space (.slot c.1 0) == m.space with
    | some c => [.tlbWalkCompletion c.1 (BitVec.ofNat 64 (65536 * m.page))]
    | none => []

/-- The steps due for a map. -/
def mapSteps (r : Nat) (m : KMap) : List Event :=
  (if m.desc.splitting then [.split r, .splitPublication r] else []) ++ m.stale.map fun y => .mapCopyUpdate y.1 y.2.1 y.2.2.1

/-- The steps due for a launch. -/
def State.launchSteps (s : State) (n : Nat) (l : Launch) : List Event :=
  match l.st with
  | .queued => due (decide (l.prio < 3) && decide (l.raisedAt + 2 ^ 24 ≤ s.ac)) (.launchPriorityRaise n) ++ [.launchPlacement n]
  | .placing => [.launchPlacement n]
  | .running | .retiring => [.launchRetirement n]
  | _ => []

/-- The steps due for a reduction tree. -/
def treeSteps (t : Nat) (x : Tree) : List Event :=
  ((x.contribs.filter fun c => (aget x.partials c.1).isNone).map fun c => .reductionCombine t c.1) ++ due x.total.isSome (.reductionTotalDelivery t)

/-- The steps due for the device. -/
def State.deviceSteps (s : State) : List Event :=
  let d := s.dev
  (downFrom s.posted.length).map .postedUpsertApply
    ++ (downFrom s.splitReqs.length).map .splitRequest
    ++ s.kmaps.flatMap (fun m => mapSteps m.1 m.2)
    ++ (downFrom s.msgs.length).map .messageArrival
    ++ due (!s.env.far.isEmpty) (.gatewayRelay s.far.length)
    ++ (downFrom s.far.length).map .gatewayRelay
    ++ (downFrom (s.fills.length - s.slotFills.length)).map .remoteFillArrival
    ++ (downFrom s.packets.length).map .nearPacketApply
    ++ (downFrom (d.launches.map fun l => l.2.transit.length).sum).map .capsuleDelivery
    ++ (downFrom s.sysc.length).map .syscReply
    ++ d.trees.flatMap (fun t => treeSteps t.1 t.2)
    ++ (List.range d.rings.length).map .launchRecordTake
    ++ d.launches.flatMap (fun l => s.launchSteps l.1 l.2)
    ++ ((d.modules.filter fun m => m.2.st == 2 && m.2.use == 0).map fun m => .moduleFree m.1)
    ++ ((d.poisoned.filter fun ln => !(s.poisonWaiters ln).isEmpty).map .uncorrectableDataError)
    ++ due (d.errcode == 4 && d.stage != 15) .overTemperature

/-- The steps due for the threads of the system cores. -/
def State.sysSteps (s : State) : List Event :=
  (List.range 8).flatMap fun n =>
    s.threadSteps (.sys n) ((s.dev.sysThreads[n]?).getD Slot.initial) ++ due (s.otherMayIssue (.sys n)) (.bundleIssue (.sys n))

/-- Every step of a round. -/
def State.round (s : State) : List Event :=
  s.cores.flatMap (fun c => s.coreSteps c.1 c.2) ++ s.folds.flatMap (fun f => f.2.steps f.1 s.ac)
    ++ s.channels.flatMap (fun x => s.chanSteps x.1 x.2) ++ s.dies.flatMap (fun d => s.walkSteps d.1 d.2) ++ s.deviceSteps ++ s.sysSteps

/-- The end of a round: an ac passes (at stage ROM, the boot ROM starts instead), and the steps of the next round stand on the
agenda. -/
def State.nextRound (s : State) : State :=
  if s.dev.stage = 0 then { s with agenda := [.deviceReset] }
  else let t := s.tick; { t with agenda := t.round }

end Sys2Proof.Machine
end

