-- ==== Sys2Proof/Machine/Dispatch.lean ====
section
/-! DEFINITION. The meaning of every row of the opcode table. -/

namespace Sys2Proof.Machine

def exec (i : Instr) (s : State) : Host.Outcome State Fault Refusal :=
  match i with
  | .nop f => Sys2Proof.Machine.execNop f s
  | .br f => Sys2Proof.Machine.execBr f s
  | .call f => Sys2Proof.Machine.execCall f s
  | .brc f => Sys2Proof.Machine.execBrc f s
  | .dbnz f => Sys2Proof.Machine.execDbnz f s
  | .brx f => Sys2Proof.Machine.execBrx f s
  | .jmp f => Sys2Proof.Machine.execJmp f s
  | .flw f => Sys2Proof.Machine.execFlw f s
  | .flx f => Sys2Proof.Machine.execFlx f s
  | .ipf f => Sys2Proof.Machine.execIpf f s
  | .tend f => Sys2Proof.Machine.execTend f s
  | .watch f => Sys2Proof.Machine.execWatch f s
  | .waita f => Sys2Proof.Machine.execWaita f s
  | .vwid f => Sys2Proof.Machine.execVwid f s
  | .tstart f => Sys2Proof.Machine.execTstart f s
  | .tstop f => Sys2Proof.Machine.execTstop f s
  | .treap f => Sys2Proof.Machine.execTreap f s
  | .tstat f => Sys2Proof.Machine.execTstat f s
  | .trd f => Sys2Proof.Machine.execTrd f s
  | .twr f => Sys2Proof.Machine.execTwr f s
  | .tret f => Sys2Proof.Machine.execTret f s
  | .movs f => Sys2Proof.Machine.execMovs f s
  | .sets f => Sys2Proof.Machine.execSets f s
  | .setsi f => Sys2Proof.Machine.execSetsi f s
  | .trap f => Sys2Proof.Machine.execTrap f s
  | .brkp f => Sys2Proof.Machine.execBrkp f s
  | .sysc f => Sys2Proof.Machine.execSysc f s
  | .fltrd f => Sys2Proof.Machine.execFltrd f s
  | .fltrdPeek f => Sys2Proof.Machine.execFltrdPeek f s
  | .capa f => Sys2Proof.Machine.execCapa f s
  | .add f => Sys2Proof.Machine.execAdd f s
  | .sub f => Sys2Proof.Machine.execSub f s
  | .mul f => Sys2Proof.Machine.execMul f s
  | .mulh f => Sys2Proof.Machine.execMulh f s
  | .madd f => Sys2Proof.Machine.execMadd f s
  | .div f => Sys2Proof.Machine.execDiv f s
  | .rem f => Sys2Proof.Machine.execRem f s
  | .and f => Sys2Proof.Machine.execAnd f s
  | .or f => Sys2Proof.Machine.execOr f s
  | .xor f => Sys2Proof.Machine.execXor f s
  | .shl f => Sys2Proof.Machine.execShl f s
  | .shr f => Sys2Proof.Machine.execShr f s
  | .sar f => Sys2Proof.Machine.execSar f s
  | .rol f => Sys2Proof.Machine.execRol f s
  | .min f => Sys2Proof.Machine.execMin f s
  | .max f => Sys2Proof.Machine.execMax f s
  | .sel f => Sys2Proof.Machine.execSel f s
  | .cmp f => Sys2Proof.Machine.execCmp f s
  | .lea f => Sys2Proof.Machine.execLea f s
  | .addi f => Sys2Proof.Machine.execAddi f s
  | .andi f => Sys2Proof.Machine.execAndi f s
  | .ori f => Sys2Proof.Machine.execOri f s
  | .xori f => Sys2Proof.Machine.execXori f s
  | .shli f => Sys2Proof.Machine.execShli f s
  | .shri f => Sys2Proof.Machine.execShri f s
  | .sari f => Sys2Proof.Machine.execSari f s
  | .cmpi f => Sys2Proof.Machine.execCmpi f s
  | .li f => Sys2Proof.Machine.execLi f s
  | .lih f => Sys2Proof.Machine.execLih f s
  | .addpc f => Sys2Proof.Machine.execAddpc f s
  | .clz f => Sys2Proof.Machine.execClz f s
  | .ctz f => Sys2Proof.Machine.execCtz f s
  | .popc f => Sys2Proof.Machine.execPopc f s
  | .bswap f => Sys2Proof.Machine.execBswap f s
  | .bfx f => Sys2Proof.Machine.execBfx f s
  | .bfi f => Sys2Proof.Machine.execBfi f s
  | .abs f => Sys2Proof.Machine.execAbs f s
  | .ext f => Sys2Proof.Machine.execExt f s
  | .vadd f => Sys2Proof.Machine.execVadd f s
  | .vsub f => Sys2Proof.Machine.execVsub f s
  | .vmul f => Sys2Proof.Machine.execVmul f s
  | .vfma f => Sys2Proof.Machine.execVfma f s
  | .vmin f => Sys2Proof.Machine.execVmin f s
  | .vmax f => Sys2Proof.Machine.execVmax f s
  | .vabs f => Sys2Proof.Machine.execVabs f s
  | .vand f => Sys2Proof.Machine.execVand f s
  | .vor f => Sys2Proof.Machine.execVor f s
  | .vxor f => Sys2Proof.Machine.execVxor f s
  | .vshl f => Sys2Proof.Machine.execVshl f s
  | .vshr f => Sys2Proof.Machine.execVshr f s
  | .vsar f => Sys2Proof.Machine.execVsar f s
  | .vsel f => Sys2Proof.Machine.execVsel f s
  | .vclamp f => Sys2Proof.Machine.execVclamp f s
  | .vdiv f => Sys2Proof.Machine.execVdiv f s
  | .vsqrt f => Sys2Proof.Machine.execVsqrt f s
  | .vcmp f => Sys2Proof.Machine.execVcmp f s
  | .vcvt f => Sys2Proof.Machine.execVcvt f s
  | .vsplit f => Sys2Proof.Machine.execVsplit f s
  | .vqnt f => Sys2Proof.Machine.execVqnt f s
  | .vdqnt f => Sys2Proof.Machine.execVdqnt f s
  | .vlmul f => Sys2Proof.Machine.execVlmul f s
  | .vlacc f => Sys2Proof.Machine.execVlacc f s
  | .vdot f => Sys2Proof.Machine.execVdot f s
  | .baddq f => Sys2Proof.Machine.execBaddq f s
  | .vsplat f => Sys2Proof.Machine.execVsplat f s
  | .vins f => Sys2Proof.Machine.execVins f s
  | .vext f => Sys2Proof.Machine.execVext f s
  | .viota f => Sys2Proof.Machine.execViota f s
  | .vperm f => Sys2Proof.Machine.execVperm f s
  | .vmov f => Sys2Proof.Machine.execVmov f s
  | .vred f => Sys2Proof.Machine.execVred f s
  | .vscan f => Sys2Proof.Machine.execVscan f s
  | .plt f => Sys2Proof.Machine.execPlt f s
  | .pset f => Sys2Proof.Machine.execPset f s
  | .pand f => Sys2Proof.Machine.execPand f s
  | .por f => Sys2Proof.Machine.execPor f s
  | .pxor f => Sys2Proof.Machine.execPxor f s
  | .pnot f => Sys2Proof.Machine.execPnot f s
  | .pcnt f => Sys2Proof.Machine.execPcnt f s
  | .pfirst f => Sys2Proof.Machine.execPfirst f s
  | .mma f => Sys2Proof.Machine.execMma f s
  | .mzero f => Sys2Proof.Machine.execMzero f s
  | .mrd f => Sys2Proof.Machine.execMrd f s
  | .mwr f => Sys2Proof.Machine.execMwr f s
  | .mstat f => Sys2Proof.Machine.execMstat f s
  | .mstatW f => Sys2Proof.Machine.execMstatW f s
  | .wbld f => Sys2Proof.Machine.execWbld f s
  | .wbinv f => Sys2Proof.Machine.execWbinv f s
  | .mload f => Sys2Proof.Machine.execMload f s
  | .mdrain f => Sys2Proof.Machine.execMdrain f s
  | .ld f => Sys2Proof.Machine.execLd f s
  | .st f => Sys2Proof.Machine.execSt f s
  | .ldv f => Sys2Proof.Machine.execLdv f s
  | .stv f => Sys2Proof.Machine.execStv f s
  | .gth f => Sys2Proof.Machine.execGth f s
  | .sct f => Sys2Proof.Machine.execSct f s
  | .amo f => Sys2Proof.Machine.execAmo f s
  | .cas f => Sys2Proof.Machine.execCas f s
  | .amov f => Sys2Proof.Machine.execAmov f s
  | .sbindIn f => Sys2Proof.Machine.execSbindIn f s
  | .sbindOut f => Sys2Proof.Machine.execSbindOut f s
  | .sbindQ f => Sys2Proof.Machine.execSbindQ f s
  | .sunbind f => Sys2Proof.Machine.execSunbind f s
  | .sstat f => Sys2Proof.Machine.execSstat f s
  | .cpy f => Sys2Proof.Machine.execCpy f s
  | .mcast f => Sys2Proof.Machine.execMcast f s
  | .rfill f => Sys2Proof.Machine.execRfill f s
  | .cpyc f => Sys2Proof.Machine.execCpyc f s
  | .eseq f => Sys2Proof.Machine.execEseq f s
  | .eseqGo f => Sys2Proof.Machine.execEseqGo f s
  | .eseqDrop f => Sys2Proof.Machine.execEseqDrop f s
  | .ewait f => Sys2Proof.Machine.execEwait f s
  | .fencex f => Sys2Proof.Machine.execFencex f s
  | .cwb f => Sys2Proof.Machine.execCwb f s
  | .fdmode f => Sys2Proof.Machine.execFdmode f s
  | .fdwait f => Sys2Proof.Machine.execFdwait f s
  | .fdstat f => Sys2Proof.Machine.execFdstat f s
  | .fdstatGo f => Sys2Proof.Machine.execFdstatGo f s
  | .fdstatDrop f => Sys2Proof.Machine.execFdstatDrop f s
  | .fdin f => Sys2Proof.Machine.execFdin f s
  | .fdout f => Sys2Proof.Machine.execFdout f s
  | .fdadd f => Sys2Proof.Machine.execFdadd f s
  | .fdsub f => Sys2Proof.Machine.execFdsub f s
  | .fdmul f => Sys2Proof.Machine.execFdmul f s
  | .fdcmp f => Sys2Proof.Machine.execFdcmp f s
  | .fdsel f => Sys2Proof.Machine.execFdsel f s
  | .fdbit f => Sys2Proof.Machine.execFdbit f s
  | .fdmin f => Sys2Proof.Machine.execFdmin f s
  | .fdmax f => Sys2Proof.Machine.execFdmax f s
  | .fdlmul f => Sys2Proof.Machine.execFdlmul f s
  | .fdrq f => Sys2Proof.Machine.execFdrq f s
  | .fdpop f => Sys2Proof.Machine.execFdpop f s
  | .kprb f => Sys2Proof.Machine.execKprb f s
  | .kins f => Sys2Proof.Machine.execKins f s
  | .kups f => Sys2Proof.Machine.execKups f s
  | .kupsPost f => Sys2Proof.Machine.execKupsPost f s
  | .kdel f => Sys2Proof.Machine.execKdel f s
  | .kprbv f => Sys2Proof.Machine.execKprbv f s
  | .kupsv f => Sys2Proof.Machine.execKupsv f s
  | .kupsvPost f => Sys2Proof.Machine.execKupsvPost f s
  | .knew f => Sys2Proof.Machine.execKnew f s
  | .kbind f => Sys2Proof.Machine.execKbind f s
  | .kstat f => Sys2Proof.Machine.execKstat f s
  | .khash f => Sys2Proof.Machine.execKhash f s
  | .kiter f => Sys2Proof.Machine.execKiter f s
  | .kclr f => Sys2Proof.Machine.execKclr f s
  | .xmig f => Sys2Proof.Machine.execXmig f s
  | .xret f => Sys2Proof.Machine.execXret f s
  | .xupd f => Sys2Proof.Machine.execXupd f s
  | .xnrm f => Sys2Proof.Machine.execXnrm f s
  | .xovl f => Sys2Proof.Machine.execXovl f s
  | .xrlk f => Sys2Proof.Machine.execXrlk f s
  | .xrul f => Sys2Proof.Machine.execXrul f s
  | .send f => Sys2Proof.Machine.execSend f s
  | .sendR f => Sys2Proof.Machine.execSendR f s
  | .sendFar f => Sys2Proof.Machine.execSendFar f s
  | .recv f => Sys2Proof.Machine.execRecv f s
  | .recvNw f => Sys2Proof.Machine.execRecvNw f s
  | .lback f => Sys2Proof.Machine.execLback f s
  | .istat f => Sys2Proof.Machine.execIstat f s
  | .spawn f => Sys2Proof.Machine.execSpawn f s
  | .join f => Sys2Proof.Machine.execJoin f s
  | .tnext f => Sys2Proof.Machine.execTnext f s
  | .steal f => Sys2Proof.Machine.execSteal f s
  | .qpub f => Sys2Proof.Machine.execQpub f s
  | .qpubGw f => Sys2Proof.Machine.execQpubGw f s
  | .qclm f => Sys2Proof.Machine.execQclm f s
  | .qclmGw f => Sys2Proof.Machine.execQclmGw f s
  | .qstat f => Sys2Proof.Machine.execQstat f s
  | .qstatGw f => Sys2Proof.Machine.execQstatGw f s
  | .nred f => Sys2Proof.Machine.execNred f s
  | .lnch f => Sys2Proof.Machine.execLnch f s
  | .prmt f => Sys2Proof.Machine.execPrmt f s
  | .prmtL f => Sys2Proof.Machine.execPrmtL f s
  | .resm f => Sys2Proof.Machine.execResm f s
  | .resmL f => Sys2Proof.Machine.execResmL f s
  | .capnew f => Sys2Proof.Machine.execCapnew f s
  | .capwait f => Sys2Proof.Machine.execCapwait f s
  | .capwaitNw f => Sys2Proof.Machine.execCapwaitNw f s
  | .capnext f => Sys2Proof.Machine.execCapnext f s
  | .capins f => Sys2Proof.Machine.execCapins f s
  | .capdel f => Sys2Proof.Machine.execCapdel f s
  | .capset f => Sys2Proof.Machine.execCapset f s
  | .capget f => Sys2Proof.Machine.execCapget f s
  | .cappark f => Sys2Proof.Machine.execCappark f s
  | .capdone f => Sys2Proof.Machine.execCapdone f s
  | .plset f => Sys2Proof.Machine.execPlset f s
  | .plget f => Sys2Proof.Machine.execPlget f s
  | .plinv f => Sys2Proof.Machine.execPlinv f s
  | .trset f => Sys2Proof.Machine.execTrset f s
  | .trsetClr f => Sys2Proof.Machine.execTrsetClr f s
  | .htset f => Sys2Proof.Machine.execHtset f s
  | .xlat f => Sys2Proof.Machine.execXlat f s
  | .tlbinvA f => Sys2Proof.Machine.execTlbinvA f s
  | .tlbinvL f => Sys2Proof.Machine.execTlbinvL f s
  | .tlbinvG f => Sys2Proof.Machine.execTlbinvG f s
  | .modld f => Sys2Proof.Machine.execModld f s
  | .modldDbg f => Sys2Proof.Machine.execModldDbg f s
  | .modul f => Sys2Proof.Machine.execModul f s
  | .bara f => Sys2Proof.Machine.execBara f s
  | .baraJoin f => Sys2Proof.Machine.execBaraJoin f s
  | .baraLeave f => Sys2Proof.Machine.execBaraLeave f s
  | .barw f => Sys2Proof.Machine.execBarw f s
  | .barq f => Sys2Proof.Machine.execBarq f s
  | .ctrsel f => Sys2Proof.Machine.execCtrsel f s
  | .ctrrd f => Sys2Proof.Machine.execCtrrd f s
  | .timset f => Sys2Proof.Machine.execTimset f s
  | .tstmp f => Sys2Proof.Machine.execTstmp f s
  | .clkrd f => Sys2Proof.Machine.execClkrd f s
  | .bundleIssue a => Sys2Proof.Machine.execBundleIssue a s
  | .replyArrival w => Sys2Proof.Machine.execReplyArrival w s
  | .fetchLineArrival w => Sys2Proof.Machine.execFetchLineArrival w s
  | .followJoin c k => Sys2Proof.Machine.execFollowJoin c k s
  | .flwTimeout c k => Sys2Proof.Machine.execFlwTimeout c k s
  | .remoteFillArrival n => Sys2Proof.Machine.execRemoteFillArrival n s
  | .streamElementArrival c k r => Sys2Proof.Machine.execStreamElementArrival c k r s
  | .streamWriteCompletion c k r => Sys2Proof.Machine.execStreamWriteCompletion c k r s
  | .copyCommandStart c => Sys2Proof.Machine.execCopyCommandStart c s
  | .copyCommandCompletion c => Sys2Proof.Machine.execCopyCommandCompletion c s
  | .chainWalkStep c => Sys2Proof.Machine.execChainWalkStep c s
  | .copyEngineFault c => Sys2Proof.Machine.execCopyEngineFault c s
  | .matrixOpBegin c => Sys2Proof.Machine.execMatrixOpBegin c s
  | .matrixOpCompletion c => Sys2Proof.Machine.execMatrixOpCompletion c s
  | .fieldCommandStart f => Sys2Proof.Machine.execFieldCommandStart f s
  | .fieldCommandCompletion f => Sys2Proof.Machine.execFieldCommandCompletion f s
  | .fieldFault f => Sys2Proof.Machine.execFieldFault f s
  | .mapRequestService f => Sys2Proof.Machine.execMapRequestService f s
  | .postedUpsertApply n => Sys2Proof.Machine.execPostedUpsertApply n s
  | .splitRequest n => Sys2Proof.Machine.execSplitRequest n s
  | .split m => Sys2Proof.Machine.execSplit m s
  | .splitPublication m => Sys2Proof.Machine.execSplitPublication m s
  | .mapCopyUpdate f l n => Sys2Proof.Machine.execMapCopyUpdate f l n s
  | .queueRequestService f => Sys2Proof.Machine.execQueueRequestService f s
  | .messageArrival n => Sys2Proof.Machine.execMessageArrival n s
  | .gatewayRelay n => Sys2Proof.Machine.execGatewayRelay n s
  | .reductionCombine t n => Sys2Proof.Machine.execReductionCombine t n s
  | .reductionTotalDelivery t => Sys2Proof.Machine.execReductionTotalDelivery t s
  | .contextTake c k => Sys2Proof.Machine.execContextTake c k s
  | .contextFaultBack ch n => Sys2Proof.Machine.execContextFaultBack ch n s
  | .xretArrival ch n => Sys2Proof.Machine.execXretArrival ch n s
  | .nearPacketApply n => Sys2Proof.Machine.execNearPacketApply n s
  | .channelFill ln => Sys2Proof.Machine.execChannelFill ln s
  | .channelEvictionNotice ln => Sys2Proof.Machine.execChannelEvictionNotice ln s
  | .lineEviction ln => Sys2Proof.Machine.execLineEviction ln s
  | .overlayLineArrival ch w => Sys2Proof.Machine.execOverlayLineArrival ch w s
  | .capsuleDelivery n => Sys2Proof.Machine.execCapsuleDelivery n s
  | .timerExpiry c => Sys2Proof.Machine.execTimerExpiry c s
  | .shepherdFaultEscalation c => Sys2Proof.Machine.execShepherdFaultEscalation c s
  | .syscReply n => Sys2Proof.Machine.execSyscReply n s
  | .pageRefill c p => Sys2Proof.Machine.execPageRefill c p s
  | .tlbWalkCompletion c va => Sys2Proof.Machine.execTlbWalkCompletion c va s
  | .launchRecordTake n => Sys2Proof.Machine.execLaunchRecordTake n s
  | .launchPriorityRaise l => Sys2Proof.Machine.execLaunchPriorityRaise l s
  | .launchPlacement l => Sys2Proof.Machine.execLaunchPlacement l s
  | .launchRetirement l => Sys2Proof.Machine.execLaunchRetirement l s
  | .launchAbort l st => Sys2Proof.Machine.execLaunchAbort l st s
  | .moduleFree m => Sys2Proof.Machine.execModuleFree m s
  | .hostWrite off bytes => Sys2Proof.Machine.execHostWrite off bytes s
  | .hostRead off n => Sys2Proof.Machine.execHostRead off n s
  | .winbaseWrite v => Sys2Proof.Machine.execWinbaseWrite v s
  | .registerBarWrite off v => Sys2Proof.Machine.execRegisterBarWrite off v s
  | .deviceReset => Sys2Proof.Machine.execDeviceReset s
  | .linkBringup port => Sys2Proof.Machine.execLinkBringup port s
  | .linkLaneFailure port lane => Sys2Proof.Machine.execLinkLaneFailure port lane s
  | .linkRequestRetry n => Sys2Proof.Machine.execLinkRequestRetry n s
  | .uncorrectableDataError ln => Sys2Proof.Machine.execUncorrectableDataError ln s
  | .hbmRowSpare ch row => Sys2Proof.Machine.execHbmRowSpare ch row s
  | .spareMapping c => Sys2Proof.Machine.execSpareMapping c s
  | .liveFirmwareUpdate image keyid sigOk => Sys2Proof.Machine.execLiveFirmwareUpdate image keyid sigOk s
  | .moduleRemoval => Sys2Proof.Machine.execModuleRemoval s
  | .overTemperature => Sys2Proof.Machine.execOverTemperature s
  | .hbmLaneSpare ch => Sys2Proof.Machine.execHbmLaneSpare ch s
  | .sramRowSpare a => Sys2Proof.Machine.execSramRowSpare a s

end Sys2Proof.Machine
end

