-- ==== Sys2Proof/Machine/Run.lean ====
section
/-! DEFINITION. How a step runs: an event of the agenda or of the round, and the bundle that a wheel has issued. -/

namespace Sys2Proof.Machine

/-- An event runs as the meaning of its row. -/
def Event.run (e : Event) (s : State) : Host.Outcome State Fault Refusal :=
  match e with
  | .bundleIssue a => execBundleIssue a s
  | .replyArrival w => execReplyArrival w s
  | .fetchLineArrival w => execFetchLineArrival w s
  | .followJoin c k => execFollowJoin c k s
  | .flwTimeout c k => execFlwTimeout c k s
  | .remoteFillArrival i => execRemoteFillArrival i s
  | .streamElementArrival c k r => execStreamElementArrival c k r s
  | .streamWriteCompletion c k r => execStreamWriteCompletion c k r s
  | .copyCommandStart c => execCopyCommandStart c s
  | .copyCommandCompletion c => execCopyCommandCompletion c s
  | .chainWalkStep c => execChainWalkStep c s
  | .copyEngineFault c => execCopyEngineFault c s
  | .matrixOpBegin c => execMatrixOpBegin c s
  | .matrixOpCompletion c => execMatrixOpCompletion c s
  | .fieldCommandStart f => execFieldCommandStart f s
  | .fieldCommandCompletion f => execFieldCommandCompletion f s
  | .fieldFault f => execFieldFault f s
  | .mapRequestService f => execMapRequestService f s
  | .postedUpsertApply i => execPostedUpsertApply i s
  | .splitRequest i => execSplitRequest i s
  | .split m => execSplit m s
  | .splitPublication m => execSplitPublication m s
  | .mapCopyUpdate f l n => execMapCopyUpdate f l n s
  | .queueRequestService f => execQueueRequestService f s
  | .messageArrival i => execMessageArrival i s
  | .gatewayRelay i => execGatewayRelay i s
  | .reductionCombine t n => execReductionCombine t n s
  | .reductionTotalDelivery t => execReductionTotalDelivery t s
  | .contextTake c k => execContextTake c k s
  | .contextFaultBack ch i => execContextFaultBack ch i s
  | .xretArrival ch i => execXretArrival ch i s
  | .nearPacketApply i => execNearPacketApply i s
  | .channelFill ln => execChannelFill ln s
  | .channelEvictionNotice ln => execChannelEvictionNotice ln s
  | .lineEviction ln => execLineEviction ln s
  | .overlayLineArrival ch w => execOverlayLineArrival ch w s
  | .capsuleDelivery i => execCapsuleDelivery i s
  | .timerExpiry c => execTimerExpiry c s
  | .shepherdFaultEscalation c => execShepherdFaultEscalation c s
  | .syscReply i => execSyscReply i s
  | .pageRefill c p => execPageRefill c p s
  | .tlbWalkCompletion c va => execTlbWalkCompletion c va s
  | .launchRecordTake i => execLaunchRecordTake i s
  | .launchPriorityRaise l => execLaunchPriorityRaise l s
  | .launchPlacement l => execLaunchPlacement l s
  | .launchRetirement l => execLaunchRetirement l s
  | .launchAbort l st => execLaunchAbort l st s
  | .moduleFree m => execModuleFree m s
  | .hostWrite off bytes => execHostWrite off bytes s
  | .hostRead off n => execHostRead off n s
  | .winbaseWrite v => execWinbaseWrite v s
  | .registerBarWrite off v => execRegisterBarWrite off v s
  | .deviceReset => execDeviceReset s
  | .linkBringup port => execLinkBringup port s
  | .linkLaneFailure port lane => execLinkLaneFailure port lane s
  | .linkRequestRetry i => execLinkRequestRetry i s
  | .uncorrectableDataError ln => execUncorrectableDataError ln s
  | .hbmRowSpare ch row => execHbmRowSpare ch row s
  | .spareMapping c => execSpareMapping c s
  | .liveFirmwareUpdate image keyid sigOk => execLiveFirmwareUpdate image keyid sigOk s
  | .moduleRemoval => execModuleRemoval s
  | .overTemperature => execOverTemperature s
  | .hbmLaneSpare ch => execHbmLaneSpare ch s
  | .sramRowSpare a => execSramRowSpare a s

/-- The bundle that a wheel has issued runs for the current thread: one instruction, or a pair (R77); what follows an issue
comes after it (R126). -/
def State.runIssued (s : State) : Host.Outcome State Fault Refusal :=
  match s.issue with
  | none => .next s
  | some b =>
    let s := { s with issue := none }
    match b.second with
    | some j => .next ((s.runPair b.first j).afterIssue b)
    | none =>
      if b.bad2 then .next ((s.runBadPair b.first).afterIssue b)
      else
        match exec b.first s with
        | .next t => .next (t.afterIssue b)
        | .fault r => .fault r
        | .refused r => .refused r

/-- An event runs, and the bundle that it issues. -/
def State.runEvent (s : State) (e : Event) : Host.Outcome State Fault Refusal :=
  match e.run s with
  | .next t => t.runIssued
  | .fault r => .fault r
  | .refused r => .refused r

/-- Whether the device has halted for good: STAGE 15 (R394). -/
def State.halted (s : State) : Bool := s.dev.stage == 15

/-! ## A program placed (log entry 25) -/

/-- A physical page table of three entries that maps the first 16 GiB, readable and executable, to themselves. -/
def placeTables (m : Memory) : Memory :=
  (m.writeNat 0x10000 8 0x20001).writeNat 0x20000 8 0x17

/-- The address of the code line that is placed. -/
def placeAt : Nat := 0x40000

/-- A line that holds one instruction in its first slot, its CHECK made. -/
def placeLine (w : Nat) : Line := sealLine (BitVec.ofNat 512 (w % 2 ^ 96))

/-- The launch that runs it: one fold, one core, sixteen slots. -/
def placeLaunch : Launch :=
  { st := .running, prio := 0, arrival := 0, raisedAt := 0, ring := 0, recAddr := 0, cword := 0, devbase := 0,
    desc := { entry := BitVec.ofNat 64 placeAt, slots := 16 }, params := [], launchTs := 0, root := 0x10000, home := 0, folds := [0],
    gathered := [], status := 0, module := none, debug := false, plats := [], maps := [], handlers := [], hcount := 0, barriers := [],
    transit := [], park := 0, parkMark := 0, aborted := false, released := none }

/-- The core that runs it: its shepherd stands at the instruction. -/
def placeCore : Core :=
  { Core.initial with
    launch := some 1, root := 0x10000, scrPages := 1, pinned := 0 :: List.range' 1016 8,
    slots := Core.initial.slots.setIfInBounds 0 { Slot.initial with pc := BitVec.ofNat 64 placeAt, st := .runnable } }

/-- The state with an instruction placed where the next step fetches. -/
def State.placeWord (s : State) (w : Nat) : State :=
  { s with
    cores := aset s.cores 0 placeCore, folds := aset s.folds 0 { Fold.initial with launch := some 1 }, dies := aset s.dies 0 Die.initial,
    dev := { s.dev with devnum := 0, stage := 4, published := true, launches := aset s.dev.launches 1 placeLaunch },
    mem := (placeTables s.mem).writeNat placeAt 64 (placeLine w).toNat, issue := none, agenda := [.bundleIssue (.core 0)],
    env := { s.env with stall := [], gate := [], walk := [] } }

end Sys2Proof.Machine
end

