-- ==== Sys2Proof/Machine/Step.lean ====
section
/-! DEFINITION. One step of the machine: the next event of the agenda with the bundle that it issues, or the next round. -/

namespace Sys2Proof.Machine

/-- One step. A halted device (STAGE 15) goes no further but for what its agenda brings. -/
def step (s : State) : Host.Outcome State Fault Refusal :=
  match s.agenda with
  | e :: es => State.runEvent { s with agenda := es } e
  | [] => if s.halted then .fault .halted else .next s.nextRound

/-- An instruction placed where the next step fetches: log entry 25 says how a program comes to run otherwise. -/
def State.withFetchWord (s : State) (_nbits w : Nat) : State := s.placeWord w

end Sys2Proof.Machine
end

