-- ==== Sys2Proof/Safety.lean ====
section
/-! DEFINITION. The terms in which claims are stated: when an instruction may take its effect, how that effect ends, what a
frame leaves alone, and the canonical form that every step keeps. -/

namespace Sys2Proof.Machine

/-! ## An instruction that may take its effect -/

/-- The current thread's instruction `i` passes the checks of R82 that come before its own, and its operands are there (R7,
R26, R75, R120): `s1` is the state after its reads, and `e` what its completion will empty and pop. -/
def Ready (i : Instr) (s s1 : State) (e : Eff) : Prop :=
  s.precheck i = none ∧ s.prepare (usesOf i s.thread.ety s.part.vw s.isSys) = .ok (s1, e)

/-- Whether `Ready` holds for some state after the reads, as a test may evaluate it. -/
def readyNow (i : Instr) (s : State) : Bool :=
  (s.precheck i).isNone && (match s.prepare (usesOf i s.thread.ety s.part.vw s.isSys) with
    | .ok _ => true
    | _ => false)

/-- The completion of `e` with a scalar written to D and flags gathered. -/
def Eff.scalar (e : Eff) (d : BitVec 8) (x : Word) (fl : Word := 0) : Eff :=
  { e with writes := e.writes ++ wrS d x, sticky := e.sticky ||| fl }

/-- The completion of `e` with a vector written to D and flags gathered. -/
def Eff.vector (e : Eff) (d : BitVec 8) (x : VReg) (fl : Word := 0) : Eff :=
  { e with writes := e.writes ++ wrV d x, sticky := e.sticky ||| fl }

/-- The completion of `e` with a predicate written to D and flags gathered. -/
def Eff.pred (e : Eff) (d : BitVec 8) (x : PReg) (fl : Word := 0) : Eff :=
  { e with writes := e.writes ++ wrP d x, sticky := e.sticky ||| fl }

/-- `i` completes at its issue and writes the scalar D: the value and the flags are `val` of the state after the reads. -/
def WritesScalar (i : Instr) (d : BitVec 8) (val : State → Word × Word) : Prop :=
  ∀ s s1 e, Ready i s s1 e → exec i s = .next (s1.commit (e.scalar d (val s1).1 (val s1).2))

/-- `i` completes at its issue and writes the vector D. -/
def WritesVector (i : Instr) (d : BitVec 8) (val : State → VReg × Word) : Prop :=
  ∀ s s1 e, Ready i s s1 e → exec i s = .next (s1.commit (e.vector d (val s1).1 (val s1).2))

/-- `i` completes at its issue and writes the predicate D. -/
def WritesPred (i : Instr) (d : BitVec 8) (val : State → PReg × Word) : Prop :=
  ∀ s s1 e, Ready i s s1 e → exec i s = .next (s1.commit (e.pred d (val s1).1 (val s1).2))

/-- `i`, a branch, ends with the target `pc` as its next PC, D written by `wr`. -/
def BranchesTo (i : Instr) (s s1 : State) (e : Eff) (wr : List Wr) (pc : Word) : Prop :=
  exec i s = .next (s1.commit { e with writes := e.writes ++ wr, pc := some pc })

/-- `i` completes at its issue and writes the elements of D that PG governs (R156, R157): active element `j` of type `t`
becomes `g s j`, an inactive one keeps its bits or is zeroed under `.z`. -/
def WritesElements (i : Instr) (f : FmtR) (t : State → Nat) (g : State → Nat → Nat × Word) : Prop :=
  WritesVector i f.d fun s => s.writeElems f (t s) 0 (lanes s.part.vw (t s)) (g s)

/-! ## Results at a type -/

/-- The integer types of R36 that scalar instructions take. -/
def scalarTys : List Nat := [1, 2, 3, 4, 5, 6, 7, 8]

/-- Every integer type of R36, those that only vectors hold with them. -/
def intTys : List Nat := scalarTys ++ [9, 10]

/-- NARROW of an exact value, as D receives it (R139). -/
def narrowed (t : BitVec 6) (sat : Bool) (v : Int) : Word × Word :=
  (extTy t.toNat (narrow t.toNat sat v).1, (narrow t.toNat sat v).2)

/-- A result given by its bits at a type, as D receives it (R139). -/
def asTy (t : BitVec 6) (x : Nat) : Word × Word := (extTy t.toNat x, 0)

/-! ## Map operations in order -/

/-- Map operations served whole in order, each on the map as the ones before it left it: the state, the answers and the latest
timestamp (R264). There is none where one must wait in the queue of an agent that it reaches, with its forwards (R255, R259). -/
def serveAll (s : State) (region pts : Nat) : List (Nat × MapOp) → Option (State × List MapAns × Nat)
  | [] => some (s, [], 0)
  | (g, o) :: os =>
    let y := s.carry region o mostForwards g pts
    if y.2.2.2 then
      let x := y.1.serveOp region y.2.1 y.2.2.1 o true (y.1.mapBusy region)
      (serveAll (x.1.setFrom (y.1.agentDev region y.2.1 o)) region pts os).map fun q => (q.1, x.2.1 :: q.2.1, max x.2.2 q.2.2)
    else none

/-! ## Frames and invariants -/

/-- Every byte of memory and of every scratchpad outside `n` bytes at a place reads as before. -/
def KeepsOutside (l : Loc) (n : Nat) (s t : State) : Prop :=
  (∀ a, (∀ pa, l = .mem pa → a < pa ∨ pa + n ≤ a) → Memory.get t.mem a = Memory.get s.mem a)
  ∧ ∀ c a, (∀ off, l = .scr c off → a < off ∨ off + n ≤ a) → Memory.get (t.core c).scr a = Memory.get (s.core c).scr a

/-- Every byte of memory and of every scratchpad outside `n` bytes at each of these places reads as before. -/
def KeepsOutsideAll (ls : List Loc) (n : Nat) (s t : State) : Prop :=
  (∀ a, (∀ pa, Loc.mem pa ∈ ls → a < pa ∨ pa + n ≤ a) → Memory.get t.mem a = Memory.get s.mem a)
  ∧ ∀ c a, (∀ off, Loc.scr c off ∈ ls → a < off ∨ off + n ≤ a) → Memory.get (t.core c).scr a = Memory.get (s.core c).scr a

/-- A slot keeps its registers, full/empty bits, held fills, EFMT, PC, PTS and FLAGS but for FOLLOW. -/
def KeepsSlot (t u : Slot) : Prop :=
  u.g = t.g ∧ u.v = t.v ∧ u.p = t.p ∧ u.fe = t.fe ∧ u.holders = t.holders ∧ u.efmt = t.efmt ∧ u.pc = t.pc ∧ u.pts = t.pts
  ∧ u.flags.extractLsb' 0 11 = t.flags.extractLsb' 0 11

/-- Nothing but slots has changed, and of every slot but `k` of core `c` only what `KeepsSlot` leaves open. -/
def SlotsOnly (c k : Nat) (s t : State) : Prop :=
  t.part = s.part ∧ t.mem = s.mem ∧ t.folds = s.folds ∧ t.dies = s.dies ∧ t.channels = s.channels ∧ t.dev = s.dev
  ∧ t.kmaps = s.kmaps ∧ (∀ d, { t.core d with slots := (s.core d).slots } = s.core d)
  ∧ ∀ d j, d ≠ c ∨ j ≠ k → KeepsSlot (s.slot d j) (t.slot d j)

/-- The PC that a branch goes to when it is taken, at the state after its reads (R127). -/
def branchTarget (i : Instr) (s : State) : Option Word :=
  match i with
  | .br f | .call f | .brc f | .dbnz f => pcOfInt (linear s.thread.pc + f.disp.toInt)
  | .brx f => pcOfInt (linear s.thread.pc + (s.rs f.a).toInt)
  | .jmp f => some (s.rs f.a)
  | _ => none

/-- A slot keeps every register, with its full/empty bit, that an instruction with these uses neither writes nor takes. -/
def KeepsOthers (u : Uses) (t t' : Slot) : Prop :=
  ∀ r, r < 96 → (r, true) ∉ u.reads → (∀ w ∈ u.writes, w.1 ≠ r) → t'.reg r = t.reg r ∧ t'.fe.getLsbD r = t.fe.getLsbD r

/-- What every step keeps: memory stands in its one canonical form. -/
def Inv (s : State) : Prop := s.mem.wf = true

end Sys2Proof.Machine
end

