-- ==== Sys2Proof/Certificates/Slice0/Obligations.lean ====
section
/-! DEFINITION. The statements for the provers, from the numbered rules of the spec: results and completion of every
instruction and event, frames, faults and privilege, memory, decoding, and the invariants that every step keeps. -/

open Sys2Proof Sys2Proof.Machine

/-- NARROW clamps into the type and says so, or wraps (R36, R37, R139). -/
def Obligations.NarrowClampsOrWraps : Prop :=
  ∀ t ∈ intTys, ∀ v : Int,
    tyInt t (narrow t true v).1 = max (tyMin t) (min (tyMax t) v)
    ∧ ((narrow t true v).2 = flagSAT ↔ (v < tyMin t ∨ tyMax t < v)) ∧ ((narrow t true v).2 = 0 ↔ (tyMin t ≤ v ∧ v ≤ tyMax t))
    ∧ tyMin t ≤ tyInt t (narrow t false v).1 ∧ tyInt t (narrow t false v).1 ≤ tyMax t
    ∧ (2 ^ tyWidth t : Int) ∣ tyInt t (narrow t false v).1 - v ∧ (narrow t false v).2 = 0

/-- Integer division and remainder with their fixed corners (R38). -/
def Obligations.DivisionTruncatesWithTabledCorners : Prop :=
  ∀ t ∈ intTys, ∀ a b : Int, tyMin t ≤ a → a ≤ tyMax t → tyMin t ≤ b → b ≤ tyMax t →
    (b = 0 → divInt t a b = (if tyIsSigned t then -1 else tyMax t, flagDZ) ∧ remInt t a b = (a, flagDZ))
    ∧ (tyIsSigned t = true → a = tyMin t → b = -1 → divInt t a b = (a, 0) ∧ remInt t a b = (0, 0))
    ∧ (b ≠ 0 → ¬(tyIsSigned t = true ∧ a = tyMin t ∧ b = -1) →
        (divInt t a b).2 = 0 ∧ (remInt t a b).2 = 0 ∧ a = (divInt t a b).1 * b + (remInt t a b).1
        ∧ (remInt t a b).1.natAbs < b.natAbs ∧ 0 ≤ (remInt t a b).1 * a)

/-- ADD, SUB, MUL, MADD, ABS, ADDI, MULH, DIV, REM, MIN and MAX complete with their results (R139, R142, R143, R145, R149,
R151). -/
def Obligations.ScalarArithmeticResults : Prop :=
  (∀ f : FmtR, let t := f.ty.toNat; let sat := f.mod.getLsbD 1;
    WritesScalar (.add f) f.d (fun s => narrowed f.ty sat (s.inTy t f.a + s.inTy t f.b))
    ∧ WritesScalar (.sub f) f.d (fun s => narrowed f.ty sat (s.inTy t f.a - s.inTy t f.b))
    ∧ WritesScalar (.mul f) f.d (fun s => narrowed f.ty sat (s.inTy t f.a * s.inTy t f.b))
    ∧ WritesScalar (.madd f) f.d (fun s => narrowed f.ty sat (s.inTy t f.a * s.inTy t f.b + s.inTy t f.c))
    ∧ WritesScalar (.abs f) f.d (fun s => narrowed f.ty sat (s.inTy t f.a).natAbs)
    ∧ WritesScalar (.mulh f) f.d (fun s => asTy f.ty (wrapNat (tyWidth t) (s.inTy t f.a * s.inTy t f.b / (2 ^ tyWidth t : Nat))))
    ∧ WritesScalar (.div f) f.d (fun s =>
        (extTy t (wrapNat (tyWidth t) (divInt t (s.inTy t f.a) (s.inTy t f.b)).1), (divInt t (s.inTy t f.a) (s.inTy t f.b)).2))
    ∧ WritesScalar (.rem f) f.d (fun s =>
        (extTy t (wrapNat (tyWidth t) (remInt t (s.inTy t f.a) (s.inTy t f.b)).1), (remInt t (s.inTy t f.a) (s.inTy t f.b)).2))
    ∧ WritesScalar (.min f) f.d (fun s => (BitVec.ofInt 64 (min (s.inTy t f.a) (s.inTy t f.b)), 0))
    ∧ WritesScalar (.max f) f.d (fun s => (BitVec.ofInt 64 (max (s.inTy t f.a) (s.inTy t f.b)), 0)))
    ∧ ∀ f : FmtI, WritesScalar (.addi f) f.d (fun s => narrowed f.ty (f.mod.getLsbD 1) (s.inTy f.ty.toNat f.a + f.imm.toInt))

/-- The bitwise, shift and compare instructions complete with their results (R139, R143, R144, R146, R149). -/
def Obligations.ScalarLogicAndShiftResults : Prop :=
  (∀ f : FmtR, let t := f.ty.toNat; let w := tyWidth t;
    WritesScalar (.and f) f.d (fun s => asTy f.ty (s.bitsTy t f.a &&& s.bitsTy t f.b))
    ∧ WritesScalar (.or f) f.d (fun s => asTy f.ty (s.bitsTy t f.a ||| s.bitsTy t f.b))
    ∧ WritesScalar (.xor f) f.d (fun s => asTy f.ty (s.bitsTy t f.a ^^^ s.bitsTy t f.b))
    ∧ WritesScalar (.shl f) f.d (fun s =>
        (extTy t (shlInt t (f.mod.getLsbD 1) (s.inTy t f.a) (s.rs f.b).toNat).1, (shlInt t (f.mod.getLsbD 1) (s.inTy t f.a) (s.rs f.b).toNat).2))
    ∧ WritesScalar (.shr f) f.d (fun s => asTy f.ty (if (s.rs f.b).toNat < w then s.bitsTy t f.a / 2 ^ (s.rs f.b).toNat else 0))
    ∧ WritesScalar (.sar f) f.d (fun s => asTy f.ty (sarBits w (s.bitsTy t f.a) (s.rs f.b).toNat))
    ∧ WritesScalar (.rol f) f.d (fun s =>
        let n := (s.rs f.b).toNat % (if w = 0 then 1 else w)
        asTy f.ty ((s.bitsTy t f.a * 2 ^ n ||| s.bitsTy t f.a / 2 ^ (w - n)) % 2 ^ w))
    ∧ WritesScalar (.cmp f) f.d (fun s => (boolWord (cmpInt (f.mod.toNat % 8) (s.inTy t f.a) (s.inTy t f.b)), 0)))
    ∧ ∀ f : FmtI, let t := f.ty.toNat; let w := tyWidth t;
    WritesScalar (.andi f) f.d (fun s => asTy f.ty (s.bitsTy t f.a &&& wrapNat w f.imm.toInt))
    ∧ WritesScalar (.ori f) f.d (fun s => asTy f.ty (s.bitsTy t f.a ||| wrapNat w f.imm.toInt))
    ∧ WritesScalar (.xori f) f.d (fun s => asTy f.ty (s.bitsTy t f.a ^^^ wrapNat w f.imm.toInt))
    ∧ WritesScalar (.shli f) f.d (fun s =>
        (extTy t (shlInt t (f.mod.getLsbD 1) (s.inTy t f.a) (f.imm.toNat % 64)).1, (shlInt t (f.mod.getLsbD 1) (s.inTy t f.a) (f.imm.toNat % 64)).2))
    ∧ WritesScalar (.shri f) f.d (fun s => asTy f.ty (if f.imm.toNat % 64 < w then s.bitsTy t f.a / 2 ^ (f.imm.toNat % 64) else 0))
    ∧ WritesScalar (.sari f) f.d (fun s => asTy f.ty (sarBits w (s.bitsTy t f.a) (f.imm.toNat % 64)))
    ∧ WritesScalar (.cmpi f) f.d (fun s => (boolWord (cmpInt (f.mod.toNat % 8) (s.inTy t f.a) f.imm.toInt), 0))

/-- SEL, LEA, LI, LIH, ADDPC, VWID, CLZ, CTZ, POPC, BSWAP, BFX, BFI and EXT complete with their results (R147, R148, R150,
R151, R152, R153, R138). -/
def Obligations.ScalarMoveAndBitFieldResults : Prop :=
  (∀ f : FmtI,
    WritesScalar (.li f) f.d (fun _ => (f.imm.signExtend 64, 0))
    ∧ WritesScalar (.lih f) f.d (fun s => (f.imm.extractLsb' 0 16 ++ (s.rs f.a).extractLsb' 0 48, 0))
    ∧ WritesScalar (.addpc f) f.d (fun s => ((s.thread.pc &&& ~~~(0x3F : Word)) + f.imm.signExtend 64, 0)))
    ∧ ∀ f : FmtR, let t := f.ty.toNat; let w := tyWidth t; let pos := f.imm.toNat % 64; let len := f.imm.toNat / 256 % 64 + 1;
    WritesScalar (.sel f) f.d (fun s => (if s.rs f.c = 0 then s.rs f.b else s.rs f.a, 0))
    ∧ WritesScalar (.lea f) f.d (fun s =>
        (s.rs f.a + (if f.mod.getLsbD 0 then s.rs f.b * BitVec.ofNat 64 (esize t) else s.rs f.b) + f.imm.signExtend 64, 0))
    ∧ WritesScalar (.vwid f) f.d (fun s =>
        (BitVec.ofNat 64 (if resolveTy s.thread.ety t = 0 then s.part.vw else lanes s.part.vw (resolveTy s.thread.ety t)), 0))
    ∧ WritesScalar (.clz f) f.d (fun s => (BitVec.ofNat 64 (if s.bitsTy t f.a = 0 then w else w - 1 - (s.bitsTy t f.a).log2), 0))
    ∧ WritesScalar (.ctz f) f.d (fun s => (BitVec.ofNat 64 (ctzFrom w (s.bitsTy t f.a)), 0))
    ∧ WritesScalar (.popc f) f.d (fun s => (BitVec.ofNat 64 (((List.range w).filter fun i => (s.bitsTy t f.a).testBit i).length), 0))
    ∧ WritesScalar (.bswap f) f.d (fun s => asTy f.ty (swapBytes (w / 8) (s.bitsTy t f.a)))
    ∧ WritesScalar (.bfx f) f.d (fun s =>
        (if f.ty = 0x04 then BitVec.ofInt 64 (sxInt len ((s.rs f.a).toNat / 2 ^ pos)) else BitVec.ofNat 64 ((s.rs f.a).toNat / 2 ^ pos % 2 ^ len), 0))
    ∧ WritesScalar (.bfi f) f.d (fun s =>
        let m : Word := BitVec.ofNat 64 ((2 ^ len - 1) * 2 ^ pos)
        ((s.rs f.a &&& ~~~m) ||| (BitVec.ofNat 64 ((s.rs f.b).toNat % 2 ^ len * 2 ^ pos) &&& m), 0))
    ∧ WritesScalar (.ext f) f.d (fun s =>
        if f.mod.getLsbD 1 then narrowed f.ty true (if f.mod.getLsbD 2 then ((s.rs f.a).toNat : Int) else (s.rs f.a).toInt)
        else asTy f.ty (s.bitsTy t f.a))

/-- BR, CALL, BRC, DBNZ, BRX and JMP complete at their targets (R66, R67, R68, R127). -/
def Obligations.BranchesReachTheirTargets : Prop :=
  let open_ := fun (s1 : State) (pc : Word) => s1.targetLine pc = none ∧ s1.targetFault pc = none
  (∀ (f : FmtB) s s1 e pc,
      (Ready (.br f) s s1 e → pcOfInt (linear s1.thread.pc + f.disp.toInt) = some pc → open_ s1 pc →
        BranchesTo (.br f) s (s1.targetFetch pc) e [] pc)
      ∧ (Ready (.call f) s s1 e → pcOfInt (linear s1.thread.pc + f.disp.toInt) = some pc → open_ s1 pc →
        BranchesTo (.call f) s (s1.targetFetch pc) e (wrS f.d (succPc s1.thread.pc 1)) pc)
      ∧ (Ready (.brc f) s s1 e →
        let c := f.mod.toNat % 8
        let take := if c = 6 then s1.rp f.a != 0 else if c = 7 then s1.rp f.a == 0 else condScalar c (s1.rs f.a)
        (take = true → pcOfInt (linear s1.thread.pc + f.disp.toInt) = some pc → open_ s1 pc → BranchesTo (.brc f) s (s1.targetFetch pc) e [] pc)
        ∧ (take = false → BranchesTo (.brc f) s s1 e [] (succPc s1.thread.pc 1)))
      ∧ (Ready (.dbnz f) s s1 e →
        (s1.rs f.d ≠ 1 → pcOfInt (linear s1.thread.pc + f.disp.toInt) = some pc → open_ s1 pc →
          BranchesTo (.dbnz f) s (s1.targetFetch pc) e (wrS f.d (s1.rs f.d - 1)) pc)
        ∧ (s1.rs f.d = 1 → BranchesTo (.dbnz f) s s1 e (wrS f.d 0) (succPc s1.thread.pc 1))))
    ∧ ∀ (f : FmtR) s s1 e pc,
      (Ready (.brx f) s s1 e → pcOfInt (linear s1.thread.pc + (s1.rs f.a).toInt) = some pc → open_ s1 pc →
        BranchesTo (.brx f) s (s1.targetFetch pc) e (wrS f.d (succPc s1.thread.pc 1)) pc)
      ∧ (Ready (.jmp f) s s1 e → open_ s1 (s1.rs f.a) →
        BranchesTo (.jmp f) s (s1.targetFetch (s1.rs f.a)) e (wrS f.d (succPc s1.thread.pc 1)) (s1.rs f.a))

/-- NOP, IPF, WATCH, WAITA, FLW, FLX, TSTART, TSTOP, TREAP, TSTAT, TRET and TEND complete (R125, R126, R128, R129, R130,
R131, R133, R134, R135, R136, R137, R374). The model’s own choices in it: FLW on a gateway core or of a thread that is
no slot answers 0 (log entry 31), and a slot that followed leaves its bellwether as a new wait begins (log entry 70). -/
def Obligations.WaitingAndSlotControlComplete : Prop :=
  (∀ (f : FmtR) s s1 e,
      (Ready (.nop f) s s1 e → exec (.nop f) s = .next (s1.commit e))
      ∧ (Ready (.ipf f) s s1 e → ∃ s2 : State, s2.thread = s1.thread ∧ exec (.ipf f) s = .next (s2.commit e) ∧
          ∀ ln, (∀ x, verifyLine (s1.mem.line ln) ≠ some (x, true)) → s2.mem.line ln = s1.mem.line ln)
      ∧ (∀ c off, Ready (.watch f) s s1 e → winBase ≤ (s1.ea f 8).toNat → (s1.ea f 8).toNat < winBase + 2 ^ 22 → (s1.ea f 8).toNat % 8 = 0 →
          s1.reach s1.cur (s1.ea f 8).toNat 8 .load = .ok (.scr c off) →
          exec (.watch f) s = .next ((s1.setCore c { (s1.core c).touch (off / 4096) with
            watch := if f.mod.getLsbD 1 then adel ((s1.core c).touch (off / 4096)).watch (off / 8)
                     else aset ((s1.core c).touch (off / 4096)).watch (off / 8) s1.mySlot }).finish (some .reply) s.thread.pts e))
      ∧ (Ready (.waita f) s s1 e → s1.thread.ready = true →
          exec (.waita f) s = .next ((s1.setThread { s1.thread with ready := false }).commit { e with pts := max e.pts s1.thread.readyTs }))
      ∧ (Ready (.flw f) s s1 e → (∀ c k, s1.cur ≠ .slot c k) → exec (.flw f) s = .next (s1.commit (e.scalar f.d 0)))
      ∧ (∀ c k, Ready (.flw f) s s1 e → s1.cur = .slot c k →
          let b := 4096 * devOf c + 8 * (c % 4096 / 8) + (s1.rs f.a).toNat % 8
          let u := s1.slot b k
          let running := u.st = .runnable ∨ u.st = .parked ∨ u.st = .held
          (s1.isGateway c = true ∨ b = c ∨ u.follow = true ∨ ¬running →
            exec (.flw f) s = .next (s1.commit (e.scalar f.d 0)))
          ∧ (s1.isGateway c = false → b ≠ c → u.follow = false → running →
            exec (.flw f) s = .next ((s1.setThread { s1.thread.setFollow false with
              bell := some b, flwSince := s1.ac, followBuf := [], reply := some (e.scalar f.d 1) }).waiting s.thread.pts .follow)))
      ∧ (Ready (.flx f) s s1 e →
          exec (.flx f) s = .next ((if s1.thread.follow then s1.setThread { s1.thread.setFollow false with followBuf := [], bell := none } else s1).commit e)))
  ∧ (∀ (f : FmtR) s s1 e, let j := (s1.rs f.a).toNat
      let answers := fun (i : Instr) (t : Slot) (s2 : State) (e' : Eff) =>
        exec i s = .next (s2.commit (e'.scalar f.d (BitVec.ofNat 64 (slotStatus t false))))
      (∀ t, Ready (.tstart f) s s1 e → j ≠ 0 → s1.peer? j = some t → t.st = .idle ∨ t.st = .stopped ∨ t.st = .ended →
        let s2 := s1.loseFills t
        answers (.tstart f) t (s2.setPeer j (t.started (s2.rs f.b) s2.thread.pts)) e)
      ∧ (∀ c k t, Ready (.tstop f) s s1 e → j ≠ 0 → s1.cur = .slot c k → s1.peer? j = some t →
          (t.st = .runnable ∧ t.again = none) ∨ t.st = .held ∨ (t.st = .parked ∧ s1.abandonable c j t = true) →
          answers (.tstop f) t (s1.stopSlot c j) { e with pts := max e.pts t.pts })
      ∧ (∀ c k t, Ready (.tstop f) s s1 e → j ≠ 0 → s1.cur = .slot c k → s1.peer? j = some t → t.st = .stopped →
          answers (.tstop f) t s1 { e with pts := max e.pts t.pts })
      ∧ (∀ c k t, Ready (.treap f) s s1 e → j ≠ 0 → s1.cur = .slot c k → s1.peer? j = some t →
          t.st = .idle ∨ t.st = .stopped ∨ t.st = .ended ∨ t.st = .faulted →
          s1.reapWay c j = .ok () → answers (.treap f) t (s1.reap c j) { e with pts := max e.pts t.pts })
      ∧ (∀ c k t, Ready (.tret f) s s1 e → j ≠ 0 → s1.cur = .slot c k → s1.peer? j = some t → t.st = .stopped ∨ t.st = .faulted →
          answers (.tret f) t (s1.returnSlot c j s1.thread.pts) e)
      ∧ (∀ t, Ready (.tstat f) s s1 e → s1.peer? j = some t →
          exec (.tstat f) s = .next (s1.commit (e.scalar f.d (BitVec.ofNat 64 (slotStatus t false
            + 256 * (if t.st = .parked then t.parkReason else 0))))))
      ∧ (∀ i ∈ [Instr.tstart f, .tstop f, .treap f, .tret f], Ready i s s1 e → j = 0 ∨ s1.peer? j = none →
          exec i s = .next (s1.commit (e.scalar f.d 0x80)))
      ∧ (Ready (.tend f) s s1 e → s1.thread.hold = none → (∀ c, s1.cur ≠ .slot c 0) →
          exec (.tend f) s = .next (s1.commit { e with ended := true }))
      ∧ (∀ c, Ready (.tend f) s s1 e → s1.thread.hold = none → s1.cur = .slot c 0 →
          (∀ i, i ≠ 0 → i < (s1.core c).nslots → (s1.slot c i).st = .idle ∨ (s1.slot c i).st = .stopped ∨ (s1.slot c i).st = .ended) →
          let sib := (List.range (s1.core c).nslots).filter (· != 0)
          let r := s1.reapSiblings c sib
          s1.reapWays c sib = .ok () → exec (.tend f) s = .next (r.1.commit { e with pts := max e.pts r.2, ended := true })))

/-- The element-wise instructions of OP 0x30 and 0x31 complete with their results (R155, R156, R157, R158, R162, R163,
R164). -/
def Obligations.VectorElementResults : Prop :=
  ∀ f : FmtR, let sat := f.mod.getLsbD 3; let T := fun s : State => s.tyOf f
    let el := fun (s : State) (b : BitVec 8) (j : Nat) => elem (T s) (s.rv (T s) b) j
    WritesElements (.vadd f) f T (fun s j => elAdd sat (s.rmo f) (T s) (el s f.a j) (el s f.b j))
    ∧ WritesElements (.vsub f) f T (fun s j => elSub sat (s.rmo f) (T s) (el s f.a j) (el s f.b j))
    ∧ WritesElements (.vmul f) f T (fun s j => elMul sat (s.rmo f) (T s) (el s f.a j) (el s f.b j))
    ∧ WritesElements (.vfma f) f T (fun s j => elFma sat (s.rmo f) (T s) (el s f.a j) (el s f.b j) (el s f.c j))
    ∧ WritesElements (.vmin f) f T (fun s j => elMin (T s) (el s f.a j) (el s f.b j))
    ∧ WritesElements (.vmax f) f T (fun s j => elMax (T s) (el s f.a j) (el s f.b j))
    ∧ WritesElements (.vabs f) f T (fun s j => elAbs sat (T s) (el s f.a j))
    ∧ WritesElements (.vand f) f T (fun s j => (el s f.a j &&& el s f.b j, 0))
    ∧ WritesElements (.vor f) f T (fun s j => (el s f.a j ||| el s f.b j, 0))
    ∧ WritesElements (.vxor f) f T (fun s j => (el s f.a j ^^^ el s f.b j, 0))
    ∧ WritesElements (.vshl f) f T (fun s j => shlInt (T s) sat (tyInt (T s) (el s f.a j)) (el s f.b j))
    ∧ WritesElements (.vshr f) f T (fun s j => (shrBits (tyWidth (T s)) (el s f.a j) (el s f.b j), 0))
    ∧ WritesElements (.vsar f) f T (fun s j => (sarBits (tyWidth (T s)) (el s f.a j) (el s f.b j), 0))
    ∧ WritesElements (.vsel f) f T (fun s j => (if (s.rp f.c).getLsbD (predBit (T s) j) then el s f.a j else el s f.b j, 0))
    ∧ WritesElements (.vclamp f) f T (fun s j => elClamp (T s) (el s f.a j) (el s f.b j) (el s f.c j))
    ∧ (∀ s s1 e, Ready (.vdiv f) s s1 e →
        let r := s1.writeElems f (T s1) 0 (lanes s1.part.vw (T s1)) fun j => elDiv (s1.rmo f) (T s1) (el s1 f.a j) (el s1 f.b j)
        exec (.vdiv f) s = .next (s1.finish (some .divide) s.thread.pts (e.vector f.d r.1 r.2)))
    ∧ (∀ s s1 e, Ready (.vsqrt f) s s1 e →
        let r := s1.writeElems f (T s1) 0 (lanes s1.part.vw (T s1)) fun j => fsqrt (T s1) (s1.rmo f) (fval (T s1) (el s1 f.a j))
        exec (.vsqrt f) s = .next (s1.finish (some .divide) s.thread.pts (e.vector f.d r.1 r.2)))

/-- Moves, reductions and compares of vectors, and the predicate instructions, complete with their results (R58, R59,
R157, R164, R174, R175, R176, R177). -/
def Obligations.VectorMoveReductionAndPredicateResults : Prop :=
  (∀ f : FmtR, let sat := f.mod.getLsbD 3; let T := fun s : State => s.tyOf f; let op := f.imm.toNat % 8
      let el := fun (s : State) (b : BitVec 8) (j : Nat) => elem (T s) (s.rv (T s) b) j
      let word := fun (t x : Nat) => if tyIsSigned t then BitVec.ofInt 64 (tyInt t x) else BitVec.ofNat 64 x
      WritesElements (.vsplat f) f T (fun s _ => ((s.rs f.a).toNat % 2 ^ tyWidth (T s), 0))
      ∧ WritesElements (.vmov f) f T (fun s j => (el s f.a j, 0))
      ∧ WritesElements (.viota f) f T (fun s j =>
          narrow (T s) sat (s.inTy (T s) f.a + (((List.range j).filter fun i => s.active f.pg (T s) i).length : Int)))
      ∧ WritesElements (.vperm f) f T (fun s j => (if el s f.b j < lanes s.part.vw (T s) then el s f.a (el s f.b j) else 0, 0))
      ∧ WritesVector (.vins f) f.d (fun s =>
          let x := ofElems (T s) ((List.range (lanes s.part.vw (T s))).map fun i =>
            if i = (s.rs f.b).toNat ∧ s.active f.pg (T s) i then (s.rs f.a).toNat % 2 ^ tyWidth (T s) else elem (T s) (s.keepV f.d) i)
          (if T s = 0x16 then l6Over s.part.vw (s.keepV f.d) x fun i => i == (s.rs f.b).toNat && s.active f.pg (T s) i else x, 0))
      ∧ WritesScalar (.vext f) f.d (fun s => (word (T s)
          (if (s.rs f.b).toNat < lanes s.part.vw (T s) ∧ s.active f.pg (T s) (s.rs f.b).toNat then el s f.a (s.rs f.b).toNat else 0), 0))
      ∧ WritesScalar (.vred f) f.d (fun s =>
          let n := (s.redSource f).length
          let k := if n ≤ 1 then 0 else (n - 1).log2 + 1
          let r := redTree (redOp op sat (s.rmo f) (T s)) k (s.redSource f ++ List.replicate (2 ^ k - n) (redIdentity op (T s)))
          (word (T s) (r.1.headD 0), r.2))
      ∧ WritesVector (.vscan f) f.d (fun s =>
          let rs := match s.redSource f with
            | [] => []
            | x :: xs => (x, (0 : Word)) :: scanFrom (redOp op sat (s.rmo f) (T s)) x xs
          ((s.writeElems f (T s) 0 (lanes s.part.vw (T s)) fun i => (((rs[i]?).map (·.1)).getD 0, 0)).1, orFlags (rs.zipIdx.map fun x => if s.active f.pg (T s) x.2 then x.1.2 else 0)))
      ∧ WritesPred (.vcmp f) f.d (fun s =>
          (s.predOf f.pg (T s) fun i =>
            if tyIsInt (T s) then cmpInt (f.mod.toNat % 8) (tyInt (T s) (el s f.a i)) (tyInt (T s) (el s f.b i))
            else cmpFloat (f.mod.toNat % 8) (fval (T s) (el s f.a i)) (fval (T s) (el s f.b i)),
           if tyIsInt (T s) then 0 else orFlags ((List.range (lanes s.part.vw (T s))).map fun i =>
            flagIf (s.active f.pg (T s) i && ((fval (T s) (el s f.a i)).isSig || (fval (T s) (el s f.b i)).isSig)) flagIV))))
  ∧ (∀ f : FmtR, let T := fun s : State => s.tyOf f
      WritesPred (.plt f) f.d (fun s => (s.predOf f.pg (T s) fun i => decide ((i : Int) < (s.rs f.b).toInt - (s.rs f.a).toInt), 0))
      ∧ WritesPred (.pset f) f.d (fun s => (s.predOf f.pg (T s) fun i => decide (i < f.imm.toNat), 0))
      ∧ WritesPred (.pand f) f.d (fun s => (s.predOf f.pg 0 fun j => (s.rp f.a).getLsbD j && (s.rp f.b).getLsbD j, 0))
      ∧ WritesPred (.por f) f.d (fun s => (s.predOf f.pg 0 fun j => (s.rp f.a).getLsbD j || (s.rp f.b).getLsbD j, 0))
      ∧ WritesPred (.pxor f) f.d (fun s => (s.predOf f.pg 0 fun j => ((s.rp f.a).getLsbD j).xor ((s.rp f.b).getLsbD j), 0))
      ∧ WritesPred (.pnot f) f.d (fun s => (s.predOf f.pg 0 fun j => (~~~(s.rp f.a)).getLsbD j, 0))
      ∧ WritesScalar (.pcnt f) f.d (fun s => (BitVec.ofNat 64 ((List.range (lanes s.part.vw (T s))).filter fun i =>
          s.active f.pg (T s) i && (s.rp f.a).getLsbD (predBit (T s) i)).length, 0))
      ∧ WritesScalar (.pfirst f) f.d (fun s => (match (List.range (lanes s.part.vw (T s))).find? fun i =>
          s.active f.pg (T s) i && (s.rp f.a).getLsbD (predBit (T s) i) with
            | some i => BitVec.ofNat 64 i
            | none => BitVec.allOnes 64, 0)))

/-- VCVT, VSPLIT, VQNT, VDQNT, VLMUL, VLACC, VDOT and BADDQ complete with their results (R56, R57, R165, R166, R167, R168,
R169, R170, R171, R172). -/
def Obligations.VectorConversionAndChunkSumResults : Prop :=
  (∀ f : FmtR, let part := f.imm.toNat % 8; let T := fun s : State => s.tyOf f
      let e32 := fun (s : State) (j : Nat) => elem 0x12 (s.rv 0x12 f.a) j
      WritesVector (.vcvt f) f.d (fun s =>
          let ts := resolveTy s.thread.ety (f.imm.toNat % 64)
          let ns := lanes s.part.vw ts; let nd := lanes s.part.vw (T s); let m := min ns nd
          let sOff := if nd < ns then f.imm.toNat / 256 % 8 * m else 0
          let dOff := if ns < nd then f.imm.toNat / 256 % 8 * m else 0
          s.writeElems f (T s) dOff m fun i => cvtElem (f.mod.getLsbD 3) (s.rmo f) ts (T s) (elem ts (s.rv ts f.a) (sOff + (i - dOff))))
      ∧ WritesElements (.vlmul f) f T (fun s j => l6Mul (elem (T s) (s.rv (T s) f.a) j) (elem (T s) (s.rv (T s) f.b) j))
      ∧ WritesElements (.vdqnt f) f (fun _ => 0x12) (fun s i =>
          let k := part * (s.part.vw / 32) + i
          let sc := vbyte (s.rv 0x01 f.c) (k / 8)
          if sc = 255 then (fnan 0x12, flagIV) else froundV 0x12 (s.rmo f) ((val (T s) (elem (T s) (s.rv (T s) f.a) k)).scale ((sc : Int) - 127)))
      ∧ (∀ s s1 e, Ready (.vsplit f) s s1 e → exec (.vsplit f) s = .next (s1.commit { e with
          writes := e.writes ++ wrV f.d (s1.splitReg f (·.1) 0) ++ wrV (f.d + 1) (s1.splitReg f (·.2.1) 1) ++ wrV (f.d + 2) (s1.splitReg f (·.2.2) 2)
          sticky := e.sticky ||| orFlags ((List.range (lanes s1.part.vw 0x12)).map fun i =>
            if s1.active f.pg 0x12 i then (split3 (e32 s1 i)).2 else 0) }))
      ∧ (∀ s s1 e, Ready (.vqnt f) s s1 e →
          let n := s1.part.vw / 32
          let auto := f.mod.getLsbD 4
          let c := if auto then s1.keepV f.c else s1.rv 0x01 f.c
          let scale := fun j => let ks := (List.range' (8 * j) 8).filter fun k => s1.active f.pg (T s1) (part * n + k)
            if auto && !ks.isEmpty then
              scaleFor (maxMag (ks.map fun k => fval 0x12 (e32 s1 k))).1 (maxMag (ks.map fun k => fval 0x12 (e32 s1 k))).2 (scaleF (T s1))
            else vbyte c (part * (n / 8) + j)
          let scales := (List.range (n / 8)).map scale
          let r := s1.writeElems f (T s1) (part * n) n fun i => quantElem (T s1) (s1.rmo f) (scales.getD ((i - part * n) / 8) 0) (fval 0x12 (e32 s1 (i - part * n)))
          let cOut := BitVec.ofNat 2048 (packLanes 8 ((List.range (s1.part.vw / 8)).map fun b =>
            if part * (n / 8) ≤ b ∧ b < part * (n / 8) + n / 8 then scales.getD (b - part * (n / 8)) 0 else vbyte c b))
          exec (.vqnt f) s = .next (s1.commit { e with
            writes := e.writes ++ wrV f.d r.1 ++ (if auto then wrV f.c cOut else []), sticky := e.sticky ||| r.2 })))
  ∧ (∀ f : FmtR, let T := fun s : State => s.tyOf f
      WritesVector (.vlacc f) f.d (fun s =>
          let lane := fun i => if s.active f.pg 0x16 (5 * i) then
              chunkAcc (elem 0x12 (s.accV f.d) i) (chunkSum ((List.range' (5 * i) 5).map fun k =>
                mulV 0x16 (elem 0x16 (s.rv 0x16 f.a) k) 0x16 (elem 0x16 (s.rv 0x16 f.b) k)) (.fin false 0 0, 0)) 0
            else (elem 0x12 (s.accV f.d) i, 0)
          (ofElems 0x12 ((List.range (s.part.vw / 32)).map fun i => (lane i).1), orFlags ((List.range (s.part.vw / 32)).map fun i => (lane i).2)))
      ∧ WritesVector (.vdot f) f.d (fun s =>
          let tb := bxTy (f.mod.getLsbD 4) (T s)
          let r := 32 / (if tyWidth (T s) = 0 then 32 else tyWidth (T s))
          let lane := fun i =>
            let d := elem 0x12 (s.accV f.d) i
            let ks := (List.range' (i * r) r).filter (s.active f.pg (T s))
            if ks.isEmpty then (d, 0)
            else if tyIsInt (T s) then narrow 0x03 (f.mod.getLsbD 3) (tyInt 0x03 d + chunkSumInt (ks.map fun k =>
              (tyInt (T s) (elem (T s) (s.rv (T s) f.a) k), tyInt tb (elem tb (s.rv tb f.b) k))))
            else chunkAcc d (chunkSum (ks.map fun k => mulV (T s) (elem (T s) (s.rv (T s) f.a) k) (T s) (elem (T s) (s.rv tb f.b) k)) (.fin false 0 0, 0)) 0
          (ofElems 0x12 ((List.range (s.part.vw / 32)).map fun i => (lane i).1), orFlags ((List.range (s.part.vw / 32)).map fun i => (lane i).2)))
      ∧ ∀ s s1 e, Ready (.baddq f) s s1 e →
          let nb := (baddqShape (T s1) s1.part.vw).1; let eb := (baddqShape (T s1) s1.part.vw).2
          let on := fun j => s1.active f.pg 0 (nb * eb + j)
          let blk := fun (b : BitVec 8) j => (List.range' (8 * j) 8).map (elem (T s1) (s1.rv (T s1) b))
          let r := fun j => baddqBlock (T s1) (blk f.a j) (blk f.b j) (vbyte (s1.rv (T s1) f.a) (nb * eb + j)) (vbyte (s1.rv (T s1) f.b) (nb * eb + j))
          let old := fun b => if zBit f then 0 else vbyte (s1.keepV f.d) b
          ∃ x, exec (.baddq f) s = .next (s1.commit (e.vector f.d x (orFlags ((List.range nb).map fun j => if on j then (r j).2.2 else 0))))
            ∧ (∀ j < nb, on j = true →
                vbyte x (nb * eb + j) = (r j).2.1 % 256 ∧ (List.range' (8 * j) 8).map (elem (T s1) x) = (r j).1.map (· % 2 ^ tyWidth (T s1)))
            ∧ (∀ j < nb, on j = false → vbyte x (nb * eb + j) = old (nb * eb + j) ∧ ∀ i < eb, vbyte x (eb * j + i) = old (eb * j + i))
            ∧ ∀ b, nb * (eb + 1) ≤ b → vbyte x b = 0)

/-- LD, ST, LDV, STV, GTH, SCT, AMO, CAS and AMOV complete with the bytes at their addresses (R207, R208, R209, R210,
R211, R212, R213, R214). -/
def Obligations.LoadsStoresAndAtomicsComplete : Prop :=
  (∀ (f : FmtR) s s1 e, let t := f.ty.toNat
      (∀ l, Ready (.ld f) s s1 e → (s1.ea f (esize t)).toNat % esize t = 0 →
          s1.reach s1.cur (s1.ea f (esize t)).toNat (esize t) .load = .ok l →
          let r := s1.loadAt (s1.ea f (esize t)).toNat l (esize t) (hintOf f)
          exec (.ld f) s = .next (r.1.finish (some .reply) s.thread.pts (e.scalar f.d (extTy t r.2))))
      ∧ (∀ l, Ready (.st f) s s1 e → (s1.ea f (esize t)).toNat % esize t = 0 →
          s1.reach s1.cur (s1.ea f (esize t)).toNat (esize t) .store = .ok l →
          exec (.st f) s = .next ((s1.storeAt (s1.ea f (esize t)).toNat l (esize t) (hintOf f)
            ((s1.rs f.c).toNat % 2 ^ (8 * esize t))).finish (some .reply) s.thread.pts e))
      ∧ (∀ ls, Ready (.ldv f) s s1 e → s1.deferNow ≠ 3 →
          s1.unitPlaces (s1.ea f (esize (s1.tyOf f))).toNat (esize (s1.tyOf f)) .load (s1.activeUnits f (esize (s1.tyOf f))) = .ok ls →
          let n := esize (s1.tyOf f)
          let r := s1.loadUnits n (hintOf f) ls
          exec (.ldv f) s = .next (r.1.finish (some .reply) s.thread.pts (e.vector f.d (ofUnits n (s1.part.vw / 8 / n) fun off =>
            if s1.unitActive f off then unitBits (s1.tyOf f) n ((aget r.2 off).getD 0)
            else if zBit f then 0 else (s1.keepV f.d).toNat / 2 ^ (8 * off) % 2 ^ (8 * n)))))
      ∧ (∀ ls, Ready (.stv f) s s1 e → s1.deferNow ≠ 3 →
          s1.unitPlaces (s1.ea f (esize (s1.tyOf f))).toNat (esize (s1.tyOf f)) .store (s1.activeUnits f (esize (s1.tyOf f))) = .ok ls →
          exec (.stv f) s = .next ((s1.storeUnits (esize (s1.tyOf f)) (hintOf f) (fun off =>
            unitBits (s1.tyOf f) (esize (s1.tyOf f)) ((s1.rv (s1.tyOf f) f.c).toNat / 2 ^ (8 * off))) ls).finish (some .reply) s.thread.pts e))
      ∧ (∀ ls, Ready (.gth f) s s1 e → s1.deferNow ≠ 3 → s1.gatherPlaces f .load = .ok ls →
          let r := s1.loadUnits (esize t) (hintOf f) ls
          exec (.gth f) s = .next (r.1.finish (some .reply) s.thread.pts
            (e.vector f.d (s1.writeElems f t 0 (lanes s1.part.vw t) fun i => ((aget r.2 i).getD 0, 0)).1)))
      ∧ (∀ ls, Ready (.sct f) s s1 e → s1.deferNow ≠ 3 → s1.gatherPlaces f .store = .ok ls →
          exec (.sct f) s = .next ((s1.storeUnits (esize t) (hintOf f) (elem t (s1.rv t f.c)) ls).finish (some .reply) s.thread.pts e))
      ∧ (∀ ls, s1.deferNow = 3 →
          let begun := fun (i i' : Instr) (store : Bool) (n : Nat) (vals : List (Nat × Nat)) => exec i s = .next ((s1.popDefer.setThread
            { s1.thread with vec := some { instr := i', store := store, n := n, hint := hintOf f, todo := ls, vals := vals, pts := s1.thread.pts, eff := e } }).waiting
              s.thread.pts .served)
          let n := esize (s1.tyOf f)
          (Ready (.ldv f) s s1 e → s1.unitPlaces (s1.ea f n).toNat n .load (s1.activeUnits f n) = .ok ls → begun (.ldv f) (.ldv { f with ty := BitVec.ofNat 6 (s1.tyOf f) }) false n [])
          ∧ (Ready (.stv f) s s1 e → s1.unitPlaces (s1.ea f n).toNat n .store (s1.activeUnits f n) = .ok ls → begun (.stv f) (.stv f) true n (ls.map fun u =>
              (u.1, unitBits (s1.tyOf f) n ((s1.rv (s1.tyOf f) f.c).toNat / 2 ^ (8 * u.1)))))
          ∧ (Ready (.gth f) s s1 e → s1.gatherPlaces f .load = .ok ls → begun (.gth f) (.gth f) false (esize t) [])
          ∧ (Ready (.sct f) s s1 e → s1.gatherPlaces f .store = .ok ls → begun (.sct f) (.sct f) true (esize t) (ls.map fun u => (u.1, elem t (s1.rv t f.c) u.1)))))
  ∧ (∀ (f : FmtR) s s1 e, let t := f.ty.toNat; let n := esize t
      (∀ l, Ready (.amo f) s s1 e → (s1.ea f n).toNat % n = 0 → s1.reach s1.cur (s1.ea f n).toNat n .atomic = .ok l →
          let r := s1.rmwAt (s1.ea f n).toNat l n (hintOf f) fun old => amoNew (amoOp f) t old (s1.rs f.c).toNat
          exec (.amo f) s = .next (r.1.finish (some .reply) s.thread.pts (e.scalar f.d (extTy t r.2))))
      ∧ (∀ l, Ready (.cas f) s s1 e → (s1.ea f n).toNat % n = 0 → s1.reach s1.cur (s1.ea f n).toNat n .atomic = .ok l →
          let old := s1.peek l n
          let r := s1.rmwAt (s1.ea f n).toNat l (if old = (s1.rs f.d).toNat % 2 ^ (8 * n) then n else 0) (hintOf f)
            fun _ => (s1.rs f.c).toNat % 2 ^ (8 * n)
          exec (.cas f) s = .next (r.1.finish (some .reply) s.thread.pts (e.scalar f.d (extTy t old))))
      ∧ (∀ ls, Ready (.amov f) s s1 e → (s1.ea f n).toNat % 32 = 0 →
          Chk.all (fun i => (s1.reach s1.cur ((s1.ea f n).toNat + n * i) n .atomic).bind fun l => .ok (i, (s1.ea f n).toNat + n * i, l))
            ((List.range (32 / n)).filter (s1.active f.pg t)) = .ok ls →
          let r := s1.rmwUnits n (hintOf f) (fun i old => amoNew (amoOp f) t old (elem t (s1.rv t f.c) i)) ls
          exec (.amov f) s = .next (r.1.finish (some .reply) s.thread.pts (e.vector f.d (ofElems t ((List.range (32 / n)).map fun i =>
            if s1.active f.pg t i then (aget r.2 i).getD 0 else elem t (s1.keepV f.d) i))))))

/-- MOVS, SETS, SETSI, CAPA, TRD and TWR complete with their state and registers (R116, R117, R129, R131, R132, R388). -/
def Obligations.StateRegistersComplete : Prop :=
  (∀ f : FmtR,
      WritesScalar (.movs f) f.d (fun s => (s.stateReg s.thread (f.imm.toNat % 4096), 0))
      ∧ WritesScalar (.capa f) f.d (fun s => (s.capaWord (f.imm.toNat % 256), 0))
      ∧ ∀ s s1 e,
        (Ready (.sets f) s s1 e → f.imm.toNat % 4096 = 1 →
          exec (.sets f) s = .next (s1.commit { e with setFlags := some (setsValue (f.mod.toNat % 4) s1.thread.flags (s1.rs f.a)) }))
        ∧ (∀ z, Ready (.sets f) s s1 e → f.imm.toNat % 4096 = 2 →
            efmtWritten (setsValue (f.mod.toNat % 4) s1.thread.efmt (s1.rs f.a)) = some z →
            exec (.sets f) s = .next (s1.commit { e with setEfmt := some z }))
        ∧ (∀ t, let n := f.imm.toNat % 128
            Ready (.trd f) s s1 e → s1.peer? (s1.rs f.a).toNat = some t →
            (f.imm.toNat / 4096 % 2 = 1 → exec (.trd f) s = .next (s1.commit (e.scalar f.d (s1.stateReg t (f.imm.toNat % 4096)))))
            ∧ (f.imm.toNat / 4096 % 2 = 0 → f.mod.getLsbD 0 = true → ¬(n < 96 ∧ (t.port n).isSome) →
                exec (.trd f) s = .next (s1.commit (e.scalar f.d (boolWord (t.fe.getLsbD n)))))
            ∧ (f.imm.toNat / 4096 % 2 = 0 → f.mod.getLsbD 0 = false → t.port n = none → n < 64 →
                exec (.trd f) s = .next (s1.commit (e.scalar f.d (t.gr n))))
            ∧ (f.imm.toNat / 4096 % 2 = 0 → f.mod.getLsbD 0 = false → t.port n = none → 64 ≤ n → n < 96 →
                exec (.trd f) s = .next (s1.commit (e.vector f.d (t.vr (n - 64)))))
            ∧ (f.imm.toNat / 4096 % 2 = 0 → f.mod.getLsbD 0 = false → 96 ≤ n →
                exec (.trd f) s = .next (s1.commit (e.pred f.d (t.pr (n - 96))))))
        ∧ (∀ t t', Ready (.twr f) s s1 e → s1.peer? (s1.rs f.a).toNat = some t →
            let pc := f.imm.toNat / 4096 % 2 = 1 ∧ f.imm.toNat % 4096 = 0
            let rest := t.st = .idle ∨ t.st = .stopped ∨ t.st = .faulted
            (pc → ¬rest → exec (.twr f) s = .next (s1.commit (e.scalar f.d (BitVec.ofNat 64 (slotStatus t true)))))
            ∧ (¬(pc ∧ ¬rest) → s1.twr f t = .ok t' →
                exec (.twr f) s = .next ((s1.setPeer (s1.rs f.a).toNat t').commit (e.scalar f.d (BitVec.ofNat 64 (slotStatus t false)))))))
    ∧ ∀ (f : FmtI) s s1 e, let n := (f.imm.extractLsb' 36 12).toNat; let x : Word := (f.imm.extractLsb' 0 32).setWidth 64
      (Ready (.setsi f) s s1 e → n = 1 →
        exec (.setsi f) s = .next (s1.commit { e with setFlags := some (setsValue (f.mod.toNat % 4) s1.thread.flags x) }))
      ∧ (∀ z, Ready (.setsi f) s s1 e → n = 2 → efmtWritten (setsValue (f.mod.toNat % 4) s1.thread.efmt x) = some z →
        exec (.setsi f) s = .next (s1.commit { e with setEfmt := some z }))

/-- SBIND.in, SBIND.out, SBIND.q, SUNBIND and SSTAT complete (R215, R216, R217, R218, R120). -/
def Obligations.StreamsComplete : Prop :=
  ∀ (f : FmtR) s s1 e, let r := opName f.d; let n := esize f.ty.toNat; let base := (s1.rs f.a).toNat
    let bound := fun (kind : PortKind) (c : Nat) (l : Loc) => let s2 := s1.noteAccess base l
      let s3 := s2.setCore c { s2.core c with bindNext := (s2.core c).bindNext + 1 }
      s3.setThread (s3.thread.bindReg r {
        kind := kind, base := s1.rs f.a, stride := s1.rs f.b, count := (s1.rs f.c).toNat, ty := f.ty.toNat,
        hnt := f.mod.toNat / 2 % 4, pts := s1.thread.pts, num := (s1.core c).bindNext, conds := ((s1.core c).fenced 2).map (Prod.mk 0) })
    (∀ c k l, s1.cur = .slot c k → (s1.thread.port r) = none → 0 < (s1.rs f.c).toNat → (s1.rs f.c).toNat ≤ 2 ^ 48 → base % n = 0 →
        (s1.core c).generators < 32 →
        (Ready (.sbindIn f) s s1 e → s1.reach s1.cur base n .pathRead = .ok l →
          exec (.sbindIn f) s = .next ((bound .input c l).finish (some .reply) s.thread.pts e))
        ∧ (Ready (.sbindOut f) s s1 e → s1.reach s1.cur base n .pathWrite = .ok l →
          exec (.sbindOut f) s = .next ((bound .output c l).finish (some .reply) s.thread.pts e)))
    ∧ (∀ c k j q, Ready (.sbindQ f) s s1 e → s1.cur = .slot c k → (s1.thread.port r) = none → base = j + 256 * q → j < 16 →
        48 ≤ q ∧ q < 64 ∧ r < 64 ∨ 88 ≤ q ∧ q < 96 ∧ 64 ≤ r → j ≠ k → j < (s1.core c).nslots → (s1.slot c j).st ≠ .idle →
        (s1.slot c j).port q = none →
        let s2 := s1.setSlot c j ((s1.slot c j).bindReg q { kind := .qrecv, peerSlot := k, peerReg := r })
        exec (.sbindQ f) s = .next ((s2.setThread (s2.thread.bindReg r { kind := .qsend, peerSlot := j, peerReg := q })).commit e))
    ∧ (∀ c k, Ready (.sunbind f) s s1 e → s1.cur = .slot c k → s1.thread.port r = none → exec (.sunbind f) s = .next (s1.commit e))
    ∧ (∀ c k p, Ready (.sunbind f) s s1 e → s1.cur = .slot c k → s1.thread.port r = some p → p.kind = .output → p.buf = [] →
        exec (.sunbind f) s = .next ((s1.unbind c k r).commit { e with pts := max e.pts p.mark }))
    ∧ (∀ c k p, Ready (.sunbind f) s s1 e → s1.cur = .slot c k → s1.thread.port r = some p → p.kind ≠ .output →
        exec (.sunbind f) s = .next ((s1.unbind c k r).commit { e with pts := max e.pts 0 }))
    ∧ WritesScalar (.sstat f) f.d (fun s => (s.sstat s.myCore s.thread (opName f.a), 0))

/-- KPRB, KINS, KUPS, KDEL, KITER and KCLR complete, and posted upserts are queued in issue order (R226, R255, R257, R258,
R261, R262, R263, R269, R270). -/
def Obligations.KeyedMapOperationsComplete : Prop :=
  (∀ (f : FmtR) s s1 e c m e', s1.kmap? c.region = some m → s1.afterPosted (mapNo f) e = .ok e' → s1.deferNow ≠ 2 →
      let served := fun (i : Instr) (o : MapOp) (sh : MapShape) => let g := (s1.sentTo c o).1
        let y := s1.carry c.region o mostForwards g e'.pts
        ((s1.fold (m.agentOf g o)).agentQ = [] → m.next g o m.desc.clearing = g → m.desc.clearing = true ∨ s1.mapHeld m g o = false →
          y = (s1, g, e'.pts, true))
        ∧ (y.2.2.2 = true → s1.mapWay c.region [s1.sentTo c o] = .ok () →
          let x := y.1.serveOp c.region y.2.1 y.2.2.1 o true (y.1.mapBusy c.region)
          let s2 := x.1.setFrom (y.1.agentDev c.region y.2.1 o)
          exec i s = .next ((s2.count 7).finish (some .reply) s.thread.pts (s2.mapEff sh e' [x.2.1] x.2.2)))
      let key := s1.rk f.ty.toNat f.a
      (s1.boundMap f true = .ok c →
        (Ready (.kprb f) s s1 e → served (.kprb f) (opOf f 0 key (s1.rs f.c)) (.scalar f.d))
        ∧ (Ready (.kins f) s s1 e → served (.kins f) (opOf f 1 key (s1.rs f.c)) (.scalar f.d))
        ∧ (Ready (.kups f) s s1 e → served (.kups f) (opOf f 2 key (s1.rs f.c)) (.scalar f.d))
        ∧ (Ready (.kdel f) s s1 e → served (.kdel f) (opOf f 3 key (s1.rs f.c)) (.scalar f.d))
        ∧ (Ready (.kiter f) s s1 e → (s1.rs f.a).toNat / 2 ^ 32 < m.desc.count → served (.kiter f) (opOf f 4 0 (s1.rs f.a)) (.iter f.d f.ty.toNat))
        ∧ (Ready (.kiter f) s s1 e → m.desc.count ≤ (s1.rs f.a).toNat / 2 ^ 32 → exec (.kiter f) s =
            .next ((s1.count 7).finish (some .reply) s.thread.pts (s1.mapEff (.iter f.d f.ty.toNat) e' [iterEnd] e'.pts))))
      ∧ (s1.boundMap f false = .ok c → Ready (.kclr f) s s1 e → served (.kclr f) (opOf f 5 0 0) (.count f.d)))
  ∧ (∀ (f : FmtR) s s1 e c, s1.boundMap f true = .ok c →
      let posts := fun (i : Instr) (ops : List MapOp) => let os := ops.map (s1.sentTo c)
        (∀ x, s1.mapWay c.region os ≠ .bad x) → exec i s = .next ((s1.post (mapNo f) c.region os).commit e)
        ∧ (s1.post (mapNo f) c.region os).posted.map (fun p => (p.grp, p.op, p.mapNo, p.region, p.pts, p.queued)) =
            s1.posted.map (fun p => (p.grp, p.op, p.mapNo, p.region, p.pts, p.queued)) ++ os.map (fun o => (o.1, o.2, mapNo f, c.region, s1.thread.pts, false))
      (Ready (.kupsPost f) s s1 e → posts (.kupsPost f) (scalarOps f 2 s1))
      ∧ (Ready (.kupsvPost f) s s1 e → posts (.kupsvPost f) (vectorOps f 2 s1)))

/-- KPRBV and KUPSV serve their lanes in ascending order (across keys the model’s choice, log entry 5) and complete (R258,
R264). That lanes with different keys are served in ascending order too is the model’s own choice (log entry 5). -/
def Obligations.VectorMapOperationsServeTheirLanesInOrder : Prop :=
  ∀ (f : FmtR) s s1 e c e', s1.boundMap f true = .ok c → s1.afterPosted (mapNo f) e = .ok e' → s1.deferNow ≠ 2 →
    let lanesServed := fun (i : Instr) (kind : Nat) => let os := (vectorOps f kind s1).map (s1.sentTo c)
      ∀ x, s1.mapWay c.region os = .ok () → serveAll s1 c.region e'.pts os = some x →
      exec i s = .next ((x.1.count 7).finish (some .reply) s.thread.pts (x.1.mapEff (.vector f.d f.b (s1.mapLanes f)) e' x.2.1 x.2.2))
    (Ready (.kprbv f) s s1 e → lanesServed (.kprbv f) 0) ∧ (Ready (.kupsv f) s s1 e → lanesServed (.kupsv f) 2)

/-- KNEW, KBIND, KSTAT and KHASH complete (R251, R253, R265, R266, R267, R268). -/
def Obligations.MapsAreMadeBoundAndRead : Prop :=
  ∀ (f : FmtR) s s1 e, let a := (s1.rs f.a).toNat; let b := (s1.rs f.b).toNat
    (∀ region ls pages, Ready (.knew f) s s1 e → a % 65536 = 0 → s1.mapReady a = .ok () → s1.mapPage a = some region → b % 64 = 0 →
        s1.reachSpan b 64 .load = .ok ls →
        let r := (s1.tlbEnter s1.cur a).loadSpan b ls
        let n := if recValid r.2 then regionPages (recField r.2 8 4) else 1
        r.1.mapPages n a = .ok pages →
        let s2 := r.1.enterPages (min n (pages.length + 1)) a
        s2.waysTo (devOf s2.myCore) (flt .prot 0 7) ((region :: pages).map fun p => homeFold (p / 64) / 128) = .ok () →
        let used := ((s2.myLaunch.bind s2.launch?).map fun l => l.maps.any fun x => x.2.region == region).getD false
        let ends := fun (s3 : State) (e2 : Eff) (v : Word) => exec (.knew f) s = .next ((s3.count 7).finish (some .reply) s.thread.pts (e2.scalar f.d v))
        (∀ i p, pages[i]? = some p → r.1.mapPage (a + 65536 * i) = some p)
        ∧ (pages.length < n → r.1.mapPage (a + 65536 * pages.length) = none)
        ∧ (recValid r.2 = false → ends s2 e 2)
        ∧ (recValid r.2 = true → pages.length < n → ends s2 e 1)
        ∧ (recValid r.2 = true → n ≤ pages.length → used = true → ends s2 e 3)
        ∧ (recValid r.2 = true → n ≤ pages.length → used = false →
            let q := s2.createMap r.2 region s2.thread.pts pages
            ends q.1 { e with pts := max e.pts q.2 } 0 ∧ q.1.kmap? region = some {
              kmapOf r.2 pages q.2 with
              base := (s2.storeGroups (s2.createTs region) s2.thread.pts (kmapOf r.2 pages 0).agents).2.1 }))
    ∧ (∀ l e', Ready (.kbind f) s s1 e → s1.myLaunch = some l → s1.afterPosted (mapNo f) e = .ok e' →
        (a ≠ 0 → a % 65536 = 0 → s1.mapReady a = .ok ()) → s1.bindWay l a = .ok () →
        let s0 := (if a ≠ 0 ∧ a % 65536 = 0 ∧ canonical a then s1.tlbEnter s1.cur a else s1).count 7
        let ends := fun (s2 : State) (v : Word) => exec (.kbind f) s = .next (s2.finish (some .reply) s.thread.pts (e'.scalar f.d v))
        (a = 0 → ends (s0.bindMap l (mapNo f) none) 0)
        ∧ (∀ r m, a ≠ 0 → a % 65536 = 0 → s0.mapPage a = some r → s0.kmap? r = some m → m.desc.valid = true →
            ends (s0.bindMap l (mapNo f) (some (m.copy r))) 0)
        ∧ (a ≠ 0 → a % 65536 ≠ 0 ∨ s0.mapPage a = none → ends s0 1)
        ∧ (∀ r, a ≠ 0 → a % 65536 = 0 → s0.mapPage a = some r → (∀ m, s0.kmap? r = some m → m.desc.valid = false) → ends s0 1))
    ∧ (∀ c m e', s1.kmap? c.region = some m → s1.afterPosted (mapNo f) e = .ok e' → s1.descWay c.region = .ok () →
        let ends := fun (i : Instr) (v : Nat) => exec i s = .next (((s1.setFrom (homeFold (c.region / 64) / 128)).count 7).finish (some .reply) s.thread.pts (e'.scalar f.d (BitVec.ofNat 64 v)))
        (Ready (.kstat f) s s1 e → s1.boundMap f false = .ok c → a < 16 → ends (.kstat f) (m.desc.word a))
        ∧ (Ready (.khash f) s s1 e → s1.boundMap f true = .ok c → ends (.khash f) (m.placement (s1.rk f.ty.toNat f.a) (f.imm.getLsbD 8))))

/-- An applied operation on a key is what the next probe of the group answers, and no other key changes (R263, R252). -/
def Obligations.AnUpsertIsWhatALaterProbeFinds : Prop :=
  ∀ (m : KMap) (g : Nat) (o : MapOp), o.kind ≤ 3 →
    let r := m.apply g o
    let find := fun (x : KMap) => (x.group g).find
    let keep := fun (v : Word) => if m.desc.valw = 0 then 0 else v
    (o.kind = 0 → r.1 = m ∧ r.2.val = (find m o.key).getD m.desc.dflt ∧ (r.2.ms = msHit ↔ (find m o.key).isSome = true))
    ∧ (o.kind = 1 → r.2.ms = msMiss → find r.1 o.key = some (keep o.x) ∧ find m o.key = none)
    ∧ (o.kind = 2 → m.desc.valw ≠ 0 → r.2.ms = msHit ∨ r.2.ms = msMiss →
        r.2.val = (find m o.key).getD m.desc.dflt ∧ find r.1 o.key = some (comb o.comb o.signed r.2.val o.x))
    ∧ (o.kind = 1 ∨ (o.kind = 2 ∧ m.desc.valw = 0) →
        (∀ v, find m o.key = some v → r.1 = m ∧ r.2.val = v ∧ r.2.ms = msPresent)
        ∧ (find m o.key = none → r.2.val = m.desc.dflt ∧ (r.2.ms = msMiss ∨ r.2.ms = msFull)))
    ∧ (o.kind = 2 → m.desc.valw = 0 → r.2.ms = msMiss → find m o.key = none ∧ find r.1 o.key = some 0)
    ∧ (m.desc.valw = 0 → (∀ k v, find m k = some v → v = 0) → ∀ k v, find r.1 k = some v → v = 0)
    ∧ (o.kind = 3 → find r.1 o.key = none ∧ (r.2.ms = msHit ↔ (find m o.key).isSome = true))
    ∧ (r.2.ms = msPresent ∨ r.2.ms = msFull → r.1 = m)
    ∧ (∀ g' k, g' ≠ g ∨ k ≠ o.key → (r.1.group g').find k = (m.group g').find k)

/-- CAPNEW, CAPWAIT, CAPWAIT.nw, CAPNEXT, CAPINS, CAPDEL, CAPSET, CAPGET, CAPPARK and CAPDONE complete (R315, R317, R318,
R319, R321, R322, R323, R324, R325, R326, R327). -/
def Obligations.CapsuleInstructionsComplete : Prop :=
  (∀ (f : FmtR) s s1 e c ln k, s1.capCore = some (c, ln, k) →
      (∀ ls lt p, let a := (s1.rs f.a).toNat; let b := (s1.rs f.b).toNat; let r := s1.loadSpan a ls; let n := imgGet r.2 14 2
        Ready (.capnew f) s s1 e → a % 64 = 0 → s1.reachSpan a 256 .load = .ok ls → imageBad r.2 = false → n = 0 ∨ b % 64 = 0 →
        s1.reachSpan b n .load = .ok lt →
        let q := r.1.loadSpan b lt
        let d := newImage r.2 ln c k + q.2 * 2 ^ 2048
        s1.route ln c d 0 = some p → let x : Capsule := { data := BitVec.ofNat 67584 d, ts := 0, place := p }
        (s1.transitWay ln c p = .ok () →
          exec (.capnew f) s = .next ((q.1.enterTransit ln { x with ts := q.1.thread.pts }).finish (some .reply) s.thread.pts e))
        ∧ (∀ w, s1.transitWay ln c p = .wait w → exec (.capnew f) s = .next ((q.1.setThread { q.1.thread with
            outgoing := some (x, none), reply := some { e with pts := max e.pts q.1.thread.pts } }).waiting s.thread.pts (.transit p.dev))))
      ∧ (∀ b, (s1.slot c k).hold = none → (s1.core c).bayFor k = some b →
          let w := (s1.core c).bayGet b (64 + 8 * (s1.core c).bayGet b 17 1) 8
          let pc := if ((s1.core c).bay b).assigned = some k then ((s1.core c).bay b).handler
            else (s1.core c).bayHandler b (((s1.launch? ln).map (·.handlers)).getD [])
          ∀ i ∈ [Instr.capwait f, .capwaitNw f], Ready i s s1 e → s1.spanClean c (bayOff b) 256 = .ok () →
            exec i s = .next ((s1.setCore c ((s1.core c).takeBay b k)).commit { e with
              writes := e.writes ++ wrS f.d pc ++ wrS (f.d + 1) (BitVec.ofNat 64 w) ++ wrS (f.d + 2) (BitVec.ofNat 64 (winBase + bayOff b))
              pts := max e.pts ((s1.core c).bay b).ts }))
      ∧ ((s1.slot c k).hold = none → (s1.core c).bayFor k = none → Ready (.capwaitNw f) s s1 e →
          exec (.capwaitNw f) s = .next (s1.commit { e with writes := e.writes ++ wrS f.d 0 ++ wrS (f.d + 1) 0 ++ wrS (f.d + 2) 0 }))
      ∧ (∀ b, Ready (.capnext f) s s1 e → (s1.slot c k).hold = some b → s1.spanClean c (bayOff b) 256 = .ok () →
          let d := (s1.core c).bayImage b
          let cur := imgGet d 17 1 + 1
          let d' := imgPut (imgPut (imgPut d 17 1 cur) 18 1 (imgGet d 18 1 + 1)) 19 1 (imgGet d 19 1 &&& 0xFD)
          (imgGet d 16 1 ≤ cur → exec (.capnext f) s = .next (s1.finish (some .reply) s.thread.pts (e.scalar f.d 1)))
          ∧ (∀ p ls, cur < imgGet d 16 1 → imgGet d 18 1 ≠ 255 → s1.route ln c d' cur = some p →
              s1.reachSpan (winBase + bayOff b) (256 + min 8192 (imgGet d 14 2)) .load = .ok ls →
              let s2 := (s1.loadSpan (winBase + bayOff b) ls).1
              let x : Capsule := { data := BitVec.ofNat 67584 d', ts := 0, place := p }
              (s1.transitWay ln c p = .ok () →
                let s3 := s2.enterTransit ln { x with ts := s2.thread.pts }
                exec (.capnext f) s = .next ((s3.setCore c ((s3.core c).dropBay b)).finish (some .reply) s.thread.pts (e.scalar f.d 0)))
              ∧ (∀ w, s1.transitWay ln c p = .wait w → let e2 := e.scalar f.d 0
                exec (.capnext f) s = .next ((s2.setThread { s2.thread with
                  outgoing := some (x, some b), reply := some { e2 with pts := max e2.pts s2.thread.pts } }).waiting s.thread.pts (.transit p.dev))))))
  ∧ (∀ (f : FmtR) s s1 e c ln k,
      s1.capCore = some (c, ln, k) →
      (Ready (.capget f) s s1 e → f.imm.toNat % 256 = 0x3F →
          exec (.capget f) s = .next (s1.commit (e.scalar f.d (BitVec.ofNat 64 (((s1.launch? ln).map (·.park)).getD 0)))))
      ∧ ∀ b, (s1.slot c k).hold = some b → s1.spanClean c (bayOff b) 256 = .ok () →
      let x := s1.core c
      let n := x.bayGet b 16 1; let cur := x.bayGet b 17 1; let ws := x.stations b; let i := (s1.rs f.b).toNat
      let ends := fun (i : Instr) (y : Core) (v : Word) => exec i s = .next ((s1.setCore c y).commit (e.scalar f.d v))
      let same := fun (i : Instr) (v : Word) => exec i s = .next (s1.commit (e.scalar f.d v))
      (Ready (.capins f) s s1 e → stationBad (s1.rs f.a).toNat = false →
          (n = 12 → same (.capins f) 1) ∧ (n ≠ 12 → i ≤ cur ∨ n < i → same (.capins f) 2)
          ∧ (n ≠ 12 → cur < i → i ≤ n →
              ends (.capins f) (x.putStations b (ws.take i ++ [(s1.rs f.a).toNat % 2 ^ 63] ++ (ws.take n).drop i ++ ws.drop (n + 1)) (n + 1)) 0))
      ∧ (Ready (.capdel f) s s1 e → (i ≤ cur ∨ n ≤ i → same (.capdel f) 2)
          ∧ (cur < i → i < n → ends (.capdel f) (x.putStations b (ws.take i ++ (ws.take n).drop (i + 1) ++ [0] ++ ws.drop n) (n - 1)) 0))
      ∧ (∀ y, Ready (.capset f) s s1 e → x.capset b (f.imm.toNat % 256) (s1.rs f.a).toNat = .ok y →
          s1.spanClean c (bayOff b) (if f.imm.toNat % 256 = 2 then 8448 else 256) = .ok () →
          exec (.capset f) s = .next ((s1.setCore c y).commit e))
      ∧ (Ready (.capget f) s s1 e → f.imm.toNat % 256 ≠ 0x3F → same (.capget f) (BitVec.ofNat 64 (x.capget b (f.imm.toNat % 256))))
      ∧ (∀ l, Ready (.cappark f) s s1 e → s1.launch? ln = some l → s1.parkRoom l = true → s1.parkClean l = .ok () →
          s1.wayTo (devOf c) (s1.parkDev ln) (flt .prot) = .ok () → s1.spanClean c (bayOff b) 8448 = .ok () →
          let s2 := s1.setCore c (x.dropBay b)
          let r := s2.parkCapsule ln (x.bayImage b) 1 s2.thread.pts none
          exec (.cappark f) s = .next (r.1.finish (some .reply) s.thread.pts (e.scalar f.d (BitVec.ofNat 64 r.2))))
      ∧ (Ready (.capdone f) s s1 e → x.bayGet b 32 8 = 0 →
          exec (.capdone f) s = .next ((s1.setCore c (x.dropBay b)).finish (some .reply) s.thread.pts e))
      ∧ (∀ l, let a := x.bayGet b 32 8
          Ready (.capdone f) s s1 e → a ≠ 0 → a % 8 = 0 → s1.reach s1.cur a 8 .store = .ok l →
          let s2 := (s1.noteAccess a l).store l 8 1 (x.bayGet b 40 8)
          exec (.capdone f) s = .next ((s2.setCore c ((s2.core c).dropBay b)).finish (some .reply) s.thread.pts e)))

/-- MZERO, MRD, MWR, MSTAT and MSTAT.w complete (R179, R181, R192, R193, R194). -/
def Obligations.TileInstructionsComplete : Prop :=
  ∀ (f : FmtR),
    (∀ s s1 e, Ready (.mzero f) s s1 e → (s1.core s1.myCore).pending (tileNo f.d) = 0 →
      exec (.mzero f) s = .next ((s1.setCore s1.myCore ((s1.core s1.myCore).setTile (tileNo f.d) 0 (tagOf f.ty.toNat))).commit e))
    ∧ (∀ s s1 e, let c := s1.core s1.myCore; let t := tileNo f.a
        Ready (.mrd f) s s1 e → c.pending t = 0 → c.tags.getLsbD t = tagOf f.ty.toNat →
        let r := s1.writeElems f 0x12 0 (lanes s1.part.vw 0x12) fun k => (tileGet (c.tile t) (s1.tileRow f + k), 0)
        exec (.mrd f) s = .next (s1.commit (e.vector f.d r.1 r.2)))
    ∧ (∀ s s1 e, let c := s1.core s1.myCore; let t := tileNo f.d
        Ready (.mwr f) s s1 e → c.pending t = 0 → c.tags.getLsbD t = tagOf f.ty.toNat →
        ∃ x, exec (.mwr f) s = .next ((s1.setCore s1.myCore (c.setTile t x (tagOf f.ty.toNat))).commit e) ∧
          ∀ i < 1024, let k := (i + 1024 - s1.tileRow f) % 1024
            tileGet x i = if k < s1.part.vw / 32 ∧ s1.active f.pg 0x12 k then elem 0x12 (s1.rv 0x12 f.a) k else tileGet (c.tile t) i)
    ∧ WritesScalar (.mstat f) f.d (fun s => let c := s.core s.myCore; let t := tileNo f.a
        (BitVec.ofNat 64 (c.pending t % 256 * 256 + (if c.pending t = 0 then 0 else 2) + (if c.tags.getLsbD t then 1 else 0)), 0))
    ∧ WritesScalar (.mstatW f) f.d (fun s => (BitVec.ofNat 64 ((s.core s.myCore).wslot (f.imm.toNat % 16)).word, 0))

/-- MMA, WBLD, WBINV, MLOAD and MDRAIN are accepted behind the unit’s earlier operations (R180, R186, R189, R190, R191,
R195). -/
def Obligations.UnitOperationsAreAcceptedInOrder : Prop :=
  ∀ s s1 e,
    let accepted := fun (i : Instr) (k : UnitKind) => Ready i s s1 e →
      let x := s1.core s1.myCore
      let op : UnitOp := { num := x.mnext + 1, slot := s1.mySlot, pts := s1.thread.pts, conds := x.fenced 3, eff := e, kind := k }
      exec i s = .next ((s1.setCore s1.myCore (Core.lockTile { x with mnext := x.mnext + 1, mq := x.mq ++ [op] } k true)).waiting s.thread.pts .matrix)
    (∀ f : FmtR, accepted (.mma f) (.mma (tileNo f.d) (s1.readBlock f.a (16384 / s1.part.vw))
        (if f.mod.getLsbD 4 then s1.readBlock f.c (32 * unitK f.ty.toNat / s1.part.vw) else 0) (f.imm.toNat % 16) (f.imm.toNat / 16 % 4) f.ty.toNat f.mod))
    ∧ ∀ f : FmtP, accepted (.wbinv f) (.wbinv f.imm)
      ∧ ∀ l, s1.platEntry s1.myCore f.p1.toNat = some l → (platOf l).rank ≠ 1 →
        let ty := (platOf l).ty
        (slotFmt ty ≠ 0 → (platOf l).block = 8 → (origin2 (s1.rs f.a)).1 % 8 = 0 →
          accepted (.wbld f) (.wbld f.d (s1.rs f.a) f.p1.toNat l (f.imm.toNat % 16) (f.imm.toNat / 16 % 4) (f.imm.toNat / 64 % 4 + 1)))
        ∧ (slotFmt ty ≠ 0 → (platOf l).block ≠ 8 →
          accepted (.wbld f) (.wbld f.d (s1.rs f.a) f.p1.toNat l (f.imm.toNat % 16) (f.imm.toNat / 16 % 4) (f.imm.toNat / 64 % 4 + 1)))
        ∧ (ty = 0x12 ∨ ty = 0x03 → accepted (.mload f) (.mload (tileNo f.d) (s1.rs f.a) l))
        ∧ (ty = f.ty.toNat →
          let r := fun i : Nat => if f.ty = 1 ∨ f.ty = 5 then s1.rv 0x03 (BitVec.ofNat 8 (opName f.b + i)) else 0
          accepted (.mdrain f) (.mdrain (tileNo f.d) f.ty.toNat (s1.rs f.a) l (r 0) (r 1) (r 2) (r 3) (f.imm.extractLsb' 0 8)))

/-- The unit’s operation under way completes with its effect (R180, R187, R188, R190, R191, R192, R195, R196). That unit
operations never overlap and which of a column, row or line comes next is the model’s own choice (log entry 63), and
so is that a reload stays when its MMA then faults (log entry 63). -/
def Obligations.MatrixOperationsComplete : Prop :=
  ∀ (c : Nat) (s : State) (op : UnitOp),
    ((s.core c).mrun = none → ∀ ops, (s.core c).mq = op :: ops → s.condsDone op.conds = true →
      let x := s.core c
      let op2 : UnitOp := { op with pts := s.afterConds op.pts op.conds }
      let begun := s.setCore c { x with mq := ops, mrun := some op2 }
      ((∀ t a sc sl p ty m, op.kind ≠ .mma t a sc sl p ty m) → (∀ t ty o l r1 r2 r3 r4 z, op.kind ≠ .mdrain t ty o l r1 r2 r3 r4 z) →
        exec (.matrixOpBegin c) s = .next begun)
      ∧ (∀ t a sc sl p ty m, op.kind = .mma t a sc sl p ty m → (x.wslot sl).reload = false →
        exec (.matrixOpBegin c) s = .next (if (x.wslot sl).accepted ty p = false then begun.unitFault c op2 (flt .tileType 7)
          else if m.getLsbD 3 = false ∧ x.tags.getLsbD t ≠ (ty == 0x01) then begun.unitFault c op2 (flt .tileType 1) else begun))
      ∧ (∀ t a sc sl p ty m, op.kind = .mma t a sc sl p ty m → (x.wslot sl).reload = true → exec (.matrixOpBegin c) s = .next begun)
      ∧ (∀ t ty o l r1 r2 r3 r4 z, op.kind = .mdrain t ty o l r1 r2 r3 r4 z →
        exec (.matrixOpBegin c) s = .next (if x.tags.getLsbD t ≠ (ty == 0x03 || ty == 0x01 || ty == 0x05)
          then begun.unitFault c op2 (flt .tileType 1) else begun)))
    ∧ ((s.core c).mrun = some op →
      (∀ t a sc sl p ty m s2 xs scs ts, op.kind = .mma t a sc sl p ty m → let w := (s.core c).wslot sl
        w.reload = true → let col := op.got.length / (w.count * unitK (platOf w.plat).ty)
        s.platBoth c op.slot (platOf w.plat) op.pts (panelColumn (platOf w.plat) (origin2 w.origin).1 (origin2 w.origin).2 w.count col) = .ok (s2, xs, scs, ts) →
        let op2 : UnitOp := { op with got := op.got ++ xs, scs := op.scs ++ scs, mark := max op.mark ts }
        (col < 31 → exec (.matrixOpCompletion c) s = .next (s2.setCore c { s2.core c with mrun := some op2 }))
        ∧ (31 ≤ col → let op3 : UnitOp := { op2 with got := [], scs := [] }
          let s3 := s2.setCore c { (s2.core c).setWslot sl (loadedSlot w.plat w.platNo w.origin w.first w.count op2.got op2.scs).1 with mrun := some op3 }
          exec (.matrixOpCompletion c) s = .next (if ((s3.core c).wslot sl).accepted ty p = false then s3.unitFault c op3 (flt .tileType 7)
            else if m.getLsbD 3 = false ∧ (s3.core c).tags.getLsbD t ≠ (ty == 0x01) then s3.unitFault c op3 (flt .tileType 1) else s3)))
      ∧ (∀ t a sc sl p ty m, op.kind = .mma t a sc sl p ty m → ((s.core c).wslot sl).reload = false →
        let r := mmaTile ((s.core c).tile t) a.toNat sc.toNat ((s.core c).wslot sl) p ty m
        exec (.matrixOpCompletion c) s = .next ((s.setCore c (((s.core c).setTile t r.1 (ty == 0x01)).count 9 op.slot)).unitDone c op
          { op.eff with sticky := op.eff.sticky ||| r.2, pts := max op.eff.pts op.mark }))
      ∧ (∀ mask, op.kind = .wbinv mask → ∃ x : Core, exec (.matrixOpCompletion c) s = .next ((s.setCore c x).unitDone c op op.eff) ∧
          (∀ i < 16, x.wslot i = if mask.getLsbD i then {} else (s.core c).wslot i) ∧ x = { s.core c with wslots := x.wslots })
      ∧ (∀ d org no l sl f n s2 xs scs ts, op.kind = .wbld d org no l sl f n →
          let col := op.got.length / (n * unitK (platOf l).ty)
          s.platBoth c op.slot (platOf l) op.pts (panelColumn (platOf l) (origin2 org).1 (origin2 org).2 n col) = .ok (s2, xs, scs, ts) →
          let op2 : UnitOp := { op with got := op.got ++ xs, scs := op.scs ++ scs, mark := max op.mark ts }
          let w := loadedSlot l no org f n op2.got op2.scs
          exec (.matrixOpCompletion c) s = .next (if col < 31 then s2.setCore c { s2.core c with mrun := some op2 }
            else (s2.setCore c ((s2.core c).setWslot sl w.1)).unitDone c op2
              { op.eff with writes := op.eff.writes ++ wrS d (BitVec.ofNat 64 w.2), pts := max op.eff.pts op2.mark }))
      ∧ (∀ t org l s2 xs ts, op.kind = .mload t org l →
          let row := op.got.length / 32
          s.platReads c op.slot (platOf l) op.pts ((List.range 32).map fun n => [(origin2 org).1 + n, (origin2 org).2 + row, 0, 0]) = .ok (s2, xs, ts) →
          let op2 : UnitOp := { op with got := op.got ++ xs, mark := max op.mark ts }
          exec (.matrixOpCompletion c) s = .next (if row < 31 then s2.setCore c { s2.core c with mrun := some op2 }
            else (s2.setCore c ((s2.core c).setTile t (tileOf op2.got) ((platOf l).ty == 0x03))).unitDone c op2 { op.eff with pts := max op.eff.pts op2.mark }))
      ∧ (∀ t ty org l r1 r2 r3 r4 z s2 ls, op.kind = .mdrain t ty org l r1 r2 r3 r4 z →
          let ys := (List.range 1024).map fun n => drainElem ty (tileGet ((s.core c).tile t) n) (n / 32) (n % 32) r1 r2 r3 r4 z
          s.drainLines c op (platOf l) org ys = .ok (s2, ls) →
          let i := s.env.pick.headD 0 % (if ls.isEmpty then 1 else ls.length)
          let line := (ls[i]?).getD []
          (∀ x ∈ line, s.placeReady (devOf c) x.loc = true) →
          let w := s2.popPick.writeUnits (platOf l) op.pts line
          let op2 : UnitOp := { op with left := some (dropAt ls i), mark := max op.mark w.2 }
          let s3 := w.1.setCore c { w.1.core c with mmark := max (w.1.core c).mmark w.2 }
          let s4 := s3.setCore c ((s3.core c).noteFence (fun x => match x with
            | .matrix c' n => c' == c && decide (op.num ≤ n)
            | _ => false) op2.mark)
          exec (.matrixOpCompletion c) s = .next (if 1 < ls.length then s3.setCore c { s3.core c with mrun := some op2 }
            else s4.unitDone c op2 { op.eff with sticky := op.eff.sticky ||| orFlags (ys.map (·.2)), pts := max op.eff.pts op2.mark })))

/-- CPY, MCAST, RFILL, CPYC, ESEQ, ESEQ.go, ESEQ.drop, EWAIT, FENCEX and CWB complete (R219, R220, R221, R222, R223, R224,
R225, R226, R227). -/
def Obligations.CopyAndFenceInstructionsComplete : Prop :=
  (∀ (f : FmtP) s s1 e, let c := s1.myCore; let x := s1.core c; let a := s1.rs f.a; let b := s1.rs f.b
      let accepted := fun (i : Instr) (kind : Nat) => ∀ l w, Ready i s s1 e → s1.wordOf f.d = .ok w →
        s1.buildCopy c kind f.p1.toNat f.p2.toNat a b = .ok l → x.copyEntries < 32 →
        let m : CopyCmd := {
          kind := kind, core := c, num := x.copyNext + 1, slot := s1.mySlot, pc := s1.thread.pc, src := l.1, dst := l.2,
          aval := a, bval := b, imm := f.imm.toNat, word := w, pts := s1.thread.pts, conds := x.fenced 1 }
        exec i s = .next ((s1.setCore c { x with cq := x.cq ++ [.cmd m], copyNext := x.copyNext + 1 }).commit e)
      let r : ChainRec := {
        space := s1.space s1.cur, va := a, core := c, num := x.copyNext + 1, slot := s1.mySlot, pc := s1.thread.pc,
        pts := s1.thread.pts, conds := x.fenced 1 }
      let appended := fun la => ((s1.setCore c { x with copyNext := x.copyNext + 1 }).storeAt a.toNat la 8 1 0).remember r
      accepted (.cpy f) 0 ∧ accepted (.mcast f) 1 ∧ accepted (.rfill f) 2
      ∧ (∀ la lb, Ready (.cpyc f) s s1 e → a.toNat % 64 = 0 → b.toNat % 64 = 0 → s1.reach s1.cur a.toNat 8 .store = .ok la →
          s1.reach s1.cur b.toNat 24 .atomic = .ok lb →
          let d := s1.peek lb 24
          (imgGet d 16 8 = 0 → x.copyEntries < 32 →
            let s2 := ((appended la).rmwAt b.toNat lb 24 1 fun _ => a.toNat + a.toNat * 2 ^ 64 + 2 ^ 128).1
            let y := s2.core c
            exec (.cpyc f) s = .next ((s2.setCore c { y with cq := y.cq ++ [CopyEntry.walk b s2.mySlot s2.thread.pc r.pts (y.fenced 1)] }).finish
              (some .reply) s.thread.pts (e.scalar f.d 1)))
          ∧ (∀ lt, imgGet d 16 8 ≠ 0 → s1.reachSpan (imgGet d 8 8) 8 .store = .ok lt →
            let s2 := ((appended la).rmwAt b.toNat lb 24 1 fun old => imgPut old 8 8 a.toNat).1
            exec (.cpyc f) s = .next ((s2.storeSpan (imgGet d 8 8) lt a.toNat).finish (some .reply) s.thread.pts (e.scalar f.d 0))))
      ∧ WritesScalar (.eseq f) f.d (fun s => (BitVec.ofNat 64 (s.core s.myCore).eseq, 0))
      ∧ (Ready (.eseqGo f) s s1 e → exec (.eseqGo f) s =
          .next ((if x.chalted then s1.setCore c { x with chalted := false } else s1).commit (e.scalar f.d (BitVec.ofNat 64 x.eseq))))
      ∧ (Ready (.eseqDrop f) s s1 e → let s2 := if x.chalted then s1.copyDrop c else s1
          exec (.eseqDrop f) s = .next (s2.commit (e.scalar f.d (BitVec.ofNat 64 (s2.core c).eseq))))
      ∧ (Ready (.ewait f) s s1 e → a.toNat ≤ x.eseq →
          exec (.ewait f) s = .next (s1.commit { e with pts := max e.pts ((aget x.emarks a.toNat).getD 0) })))
  ∧ (∀ (f : FmtR) s s1 e, let c1 := f.imm.toNat % 8; let c2 := f.imm.toNat / 16 % 8; let a := (s1.rs f.a).toNat; let n := (s1.rs f.b).toNat
      (∀ c k, Ready (.fencex f) s s1 e → s1.cur = .slot c k → let cs := s1.fenceConds c c1 s1.thread.pts
        let e2 := { e with pts := max e.pts (s1.fenceMark c c1 s1.thread.pts) }
        (c2 = 0 → s1.condsDone cs = true → exec (.fencex f) s = .next (s1.commit e2))
        ∧ (c2 = 0 → s1.condsDone cs = false →
          exec (.fencex f) s = .next ((s1.setThread { s1.thread with reply := some e2 }).waiting s.thread.pts (.fence cs)))
        ∧ (c2 ≠ 0 → exec (.fencex f) s = .next ((s1.setCore c ((s1.core c).addFence c2 cs)).commit e)))
      ∧ (Ready (.cwb f) s s1 e → let first := a / 64 * 64; let count := if n = 0 then 0 else (a + n - first + 63) / 64
          s1.isSys = true ∨ count = 0 ∨ winBase + 2 ^ 22 ≤ first ∨ first + 64 * count ≤ apBase →
          let r := s1.cwbFrom (f.mod.getLsbD 0) first count
          exec (.cwb f) s = .next (r.1.finish (some .reply) s.thread.pts (e.scalar f.d (BitVec.ofNat 64 r.2)))))

/-- The instructions of OP 0x70, 0x71 and 0x72 complete (R228, R230, R233, R234, R235, R236, R237, R238, R239, R240). -/
def Obligations.FieldInstructionsComplete : Prop :=
  ∀ s s1 e i c k, s1.cur = .slot c k → s1.isGateway c = false → i = foldOf c →
    let x := s1.fold i
    (∀ f : FmtR,
      (Ready (.fdmode f) s s1 e → x.fieldEntries < 16 → let r := s1.acceptField i (.mode (f.imm.toNat % 16) c k e f.d)
        exec (.fdmode f) s = .next ((r.1.setFold i { r.1.fold i with qways := f.imm.toNat % 16 }).waiting s.thread.pts .served))
      ∧ (Ready (.fdwait f) s s1 e → (s1.rs f.a).toNat ≤ x.fseq →
        exec (.fdwait f) s = .next (s1.commit { e with pts := max e.pts ((aget x.gmarks (s1.rs f.a).toNat).getD 0) }))
      ∧ (let reads := fun (j : Instr) (s2 : State) => Ready j s s1 e →
            exec j s = .next ((if f.mod.getLsbD 2 then s2.setFold i { s2.fold i with fflags := 0 } else s2).commit
              (e.scalar f.d (BitVec.ofNat 64 (if f.mod.getLsbD 3 then (s2.fold i).fseq else (s2.fold i).status))))
         reads (.fdstat f) s1 ∧ reads (.fdstatGo f) (s1.setFold i { x with fhalted := false }) ∧ reads (.fdstatDrop f) (s1.fieldDrop i)))
    ∧ (∀ (f : FmtP) l, x.fieldEntries < 16 → s1.transferCheck x f = .ok l →
        let put := fun (j : Instr) (kd : FieldKind) => Ready j s s1 e → let r := s1.acceptField i kd
          exec j s = .next (r.1.commit (e.scalar f.d (BitVec.ofNat 64 r.2))) ∧ r.2 = x.facc + 1
        put (.fdin f) (.fin l (s1.rs f.a) (s1.rs f.b).toNat (f.imm.toNat % 256) (f.imm.toNat / 256))
        ∧ put (.fdout f) (.fout l (s1.rs f.a) (s1.rs f.b).toNat (f.imm.toNat % 256) (f.imm.toNat / 256)))
    ∧ ∀ f : FmtF, x.fieldEntries < 16 → x.qways ≠ 0 →
        ∀ p ∈ [(0, Instr.fdadd f), (1, .fdsub f), (2, .fdmul f), (3, .fdcmp f), (4, .fdsel f), (5, .fdbit f), (6, .fdmin f), (7, .fdmax f),
          (8, .fdlmul f), (9, .fdrq f), (10, .fdpop f)], Ready p.2 s s1 e → fieldOperandBad p.1 f = none →
          exec p.2 s = .next ((s1.acceptField i (.op p.1 f)).1.commit e)

/-- A row operation gives each selected lane its value in the D rows and leaves every other row and lane (R231, R232,
R240, R245). -/
def Obligations.RowOperationsActOnSelectedLanesOnly : Prop :=
  (∀ (sub : Nat) (f : FmtF) (x : BitVec 256), f.drow.toNat + spanWidth f.dw ≤ 256 →
      (laneSelected sub f x = true →
        spanGet (laneOp sub f x).1 f.drow.toNat (spanWidth f.dw) = (fieldValue sub f x).1 % 2 ^ spanWidth f.dw
        ∧ (laneOp sub f x).2 = (fieldValue sub f x).2
        ∧ ∀ i : Nat, i < f.drow.toNat ∨ f.drow.toNat + spanWidth f.dw ≤ i → (laneOp sub f x).1.getLsbD i = x.getLsbD i)
      ∧ (laneSelected sub f x = false → laneOp sub f x = (x, 0)))
    ∧ ∀ (y : Fold) (sub : Nat) (f : FmtF) (j : Nat), (y.rowOp sub f).1.lane j = (laneOp sub f (y.lane j)).1

/-- XUPD, XNRM, XMIG, XOVL, XRET, XRLK and XRUL complete or are accepted (R272, R276, R277, R280, R281, R282, R283). XOVL
of a base that the window holds for another launch in use, or already holds unused, is read by the model (log entry
78), and the registers that XMIG ships likewise (log entry 43). -/
def Obligations.NearMemoryInstructionsComplete : Prop :=
  ∀ (f : FmtR) s s1 e, let n := esize f.ty.toNat; let a := (s1.ea f n).toNat; let c := s1.myCore
    (∀ pa, a % n = 0 → a < apBase ∨ winBase + 2 ^ 22 ≤ a → s1.reach s1.cur a n .near = .ok (.mem pa) →
      let s2 := s1.noteAccess a (.mem pa)
      let x := s2.core c
      let sent := fun (i : Instr) (m : Bool) => Ready i s s1 e →
        let p : Packet := {
          atMemory := m, core := c, slot := s2.mySlot, num := x.nearNext + 1, pts := s2.thread.pts, pa := pa, ty := f.ty.toNat,
          op := amoOp f, x := s2.rs f.c, conds := x.fenced 6 }
        let s3 := s2.setCore c { x with nearNext := x.nearNext + 1 }
        exec i s = .next ({ s3 with packets := s3.packets ++ [p] }.finish (some .near) s.thread.pts e)
      sent (.xupd f) true ∧ sent (.xnrm f) false)
    ∧ (∀ pa, let m := liveMask f
        Ready (.xmig f) s s1 e → s1.nearPa (s1.rs f.a).toNat 2 = .ok pa →
        let s2 := s1.tlbEnter s1.cur (s1.rs f.a).toNat
        exec (.xmig f) s = .next ((s2.setThread { s2.thread with
          reply := some { e with writes := s2.thread.liveValues m }, shipTo := some (channelPa pa), reloc := some (channelPa pa, 0, m) }).waiting
            s.thread.pts .near))
    ∧ (∀ pa src, let base := (s1.rs f.a).toNat / 4096 * 4096
        Ready (.xovl f) s s1 e → s1.nearPa (s1.rs f.b).toNat 3 = .ok pa →
        Chk.all (fun i => s1.codeLine (base + 64 * i)) (List.range 64) = .ok src →
        let r := (s1.chan (channelPa pa)).overlay (f.imm.toNat % 2) (BitVec.ofNat 64 base) s1.launchNo src
        let s2 := (s1.tlbEnter s1.cur (s1.rs f.b).toNat).tlbEnter s1.cur base
        exec (.xovl f) s = .next ((s2.setChan (channelPa pa) r.1).finish (some .near) s.thread.pts (e.scalar f.d (BitVec.ofNat 64 r.2))))
    ∧ (∀ ch i x, Ready (.xret f) s s1 e → s1.cur = .ctx ch i → aget (s1.chan ch).ctxs i = some x →
        exec (.xret f) s = .next ((s1.setChan ch { s1.chan ch with ctxs := aset (s1.chan ch).ctxs i { x with returning := true } }).waiting
          s.thread.pts .packets))
    ∧ (∀ ch me row, s1.myRow (s1.rs f.a).toNat = .ok (ch, me, row) →
        let x := s1.chan ch
        let holder := (x.locks.find? fun l => l.1 == row).map (·.2.1)
        (Ready (.xrlk f) s s1 e →
          (holder = some me → exec (.xrlk f) s = .next (s1.commit (e.scalar f.d 0)))
          ∧ (holder = none → 16 ≤ x.locks.length → exec (.xrlk f) s = .next (s1.commit (e.scalar f.d 1)))
          ∧ (holder = none → x.locks.length < 16 →
              exec (.xrlk f) s = .next ((s1.setChan ch { x with locks := x.locks ++ [(row, me, s1.launchNo)] }).commit (e.scalar f.d 0))))
        ∧ (Ready (.xrul f) s s1 e →
          exec (.xrul f) s = .next ((if x.locks.any fun l => l.1 == row && l.2.1 == me then s1.freeRow ch row else s1).commit e)))

/-- SEND, SEND.r, SEND.far, RECV, RECV.nw, LBACK and ISTAT complete (R293, R294, R295, R297, R298, R299, R300, R301). That
D of SEND.far receives a free value is the model’s own choice (log entry 91). -/
def Obligations.MessageInstructionsComplete : Prop :=
  ∀ (f : FmtR) s s1 e,
    (∀ t, Ready (.send f) s s1 e → (s1.target f.a).bind s1.sendTo = .ok t → let s2 := s1.setFrom (devOf t)
      s2.deferNow ≠ 2 → s2.accepts t = true →
      let m : Msg := { data := message (s2.rv 0 f.c) f.imm 1 s2.mySlot s2.myCore, ts := s2.thread.pts }
      exec (.send f) s = .next ((s2.arrive { core := t, msg := m, sender := none }).finish (some .reply) s.thread.pts (e.scalar f.d 0)))
    ∧ (∀ t s3, let r := f.imm.toNat / 256 % 128; let k := f.imm.toNat % 16; let s2 := s1.setFrom (devOf t)
        let x : VReg := if r < 64 then (s2.rs f.c).setWidth 2048 else s2.rv 0 f.c
        Ready (.sendR f) s s1 e → r < 96 → (s1.target f.a).bind s1.sendTo = .ok t →
        s2.deferNow ≠ 2 → (s2.slot t k).port r = none → s2.fillReg t k r x s2.thread.pts = some s3 →
        exec (.sendR f) s = .next (s3.finish (some .reply) s.thread.pts (e.scalar f.d (if (s2.slot t k).st = .idle then 2 else 0))))
    ∧ (∀ t, Ready (.sendFar f) s s1 e → s1.target f.a = .ok t → (s1.rs f.b).toNat < 2048 →
        let m : Msg := { data := message (s1.rv 0 f.c) f.imm 1 s1.mySlot (2 ^ 20 - 1), ts := s1.thread.pts }
        exec (.sendFar f) s = .next (State.finish { s1 with far := s1.far ++ [{ commons := (s1.rs f.b).toNat, core := t, msg := m }] } (some .reply)
          s.thread.pts (e.scalar f.d (Config.farStatus s1.ac s1.myCore s1.mySlot))))
    ∧ (∀ m ms, (s1.core s1.myCore).inbox = m :: ms → ∀ i ∈ [Instr.recv f, .recvNw f], Ready i s s1 e →
        s1.spanClean s1.myCore inboxOff 24 = .ok () → exec i s = .next ((s1.takeMessage s1.myCore ms (max s1.thread.pts m.ts)).commit
          (Eff.vector { e with pts := max e.pts m.ts } f.d (m.data.setWidth 2048))))
    ∧ ((s1.core s1.myCore).inbox = [] → Ready (.recvNw f) s s1 e → exec (.recvNw f) s = .next (s1.commit (e.vector f.d 0)))
    ∧ (Ready (.lback f) s s1 e → (s1.core s1.myCore).inbox.length < 32 → s1.spanClean s1.myCore inboxOff 24 = .ok () →
        let m : Msg := { data := message (s1.rv 0 f.c) f.imm 3 s1.mySlot s1.myCore, ts := s1.thread.pts }
        let s2 := s1.setThread { s1.thread with wait := none, st := .runnable }
        let y := (s2.core s1.myCore).enterInbox m (f.mod.getLsbD 0)
        let y := if y.inbox.length = 32 ∧ !y.heldMsgs.isEmpty then y.wakeOverflow else y
        exec (.lback f) s = .next (((s2.setCore s1.myCore y).admitHeld s1.myCore y.heldMsgs).commit e))
    ∧ (Ready (.istat f) s s1 e → s1.spanClean s1.myCore inboxOff 24 = .ok () →
        exec (.istat f) s = .next (s1.commit (e.scalar f.d (BitVec.ofNat 64 (s1.core s1.myCore).istat))))

/-- SPAWN, JOIN, TNEXT, STEAL, QPUB, QCLM, QSTAT, their gateway forms and LNCH complete (R302, R303, R304, R305, R306,
R307, R308, R309, R312). The timestamps of the gateway block queue, those of a refused QPUB.gw or QCLM.gw among them,
are the model’s own choice (log entry 23). -/
def Obligations.TaskAndQueueInstructionsComplete : Prop :=
  (∀ (f : FmtR) s s1 e, s1.hasDeque = true →
      let c := s1.myCore
      let ends := fun (i : Instr) (r : State × QueueAns) => exec i s = .next (r.1.finish (some .reply) s.thread.pts (r.2.eff e))
      (Ready (.spawn f) s s1 e → s1.targetFault (s1.rs f.a) = none →
          let s2 := (s1.targetFetch (s1.rs f.a)).setFrom (foldOf c / 128)
          s2.deferNow ≠ 2 → (s2.fold (foldOf c)).qctlQ = [] →
          ends (.spawn f) (s2.serveSpawn s2.myCore s2.thread.pts (s1.rs f.a) (s1.rs f.b) (succPc s1.thread.pc 1) f.d))
      ∧ (Ready (.tnext f) s s1 e → s1.deferNow ≠ 2 → s1.searchIdle c = true → ends (.tnext f) (s1.serveTnext c s1.thread.pts f.d))
      ∧ (let v := (s1.rs f.a).toNat; let s2 := s1.setFrom (foldOf v / 128);
          s2.deferNow ≠ 2 → (s2.fold (foldOf v)).qctlQ = [] → Ready (.steal f) s s1 e → s1.isCompute v = true →
          (s1.core v).launch.isSome = true → (s1.core v).launch = s1.myLaunch → pastureOf v = pastureOf c →
          let r := s2.takeTop v s2.thread.pts
          ends (.steal f) (r.1, taskAns f.d r.2.1 r.2.2))
      ∧ (∀ l, let a := (s1.rs f.a).toNat;
          Ready (.join f) s s1 e → s1.access a 32 .atomic = .ok l →
          let r := s1.rmwAt a l 32 1 fun old => joinFrame old f.imm.toInt
          let last := wrapNat 64 (sxInt 64 (imgGet r.2 0 8) + f.imm.toInt) = 0 ∧ imgGet r.2 8 8 ≠ 0
          exec (.join f) s = .next (r.1.finish (some .reply) s.thread.pts { e with
            writes := e.writes ++ wrS f.d (BitVec.ofNat 64 (if last then imgGet r.2 8 8 else 0))
              ++ wrS (f.d + 1) (BitVec.ofNat 64 (if last then imgGet r.2 16 8 else 0)) })))
  ∧ (∀ (f : FmtR) s s1 e, let pts := s1.thread.pts
      (∀ fi s2 a, let s0 := (s1.tlbEnter s1.cur (s1.rs f.a).toNat).setFrom (fi / 128)
        s0.deferNow ≠ 2 → (s0.fold fi).qctlQ = [] →
        let answers := fun (i : Instr) (acc : Acc) (op : QueueOp) => Ready i s s1 e → s1.queueAt f acc = .ok fi →
          s0.serveQueue s0.cur s0.myCore s0.thread.pts e op = .answer s2 a → exec i s = .next (s2.finish (some .reply) s.thread.pts (a.eff e))
        answers (.qpub f) .atomic (.qpub (s1.rs f.a) (s1.rs f.b) (f.imm.toNat % 4) f.d)
        ∧ answers (.qclm f) .atomic (.qclm (s1.rs f.a) (f.mod.getLsbD 0) f.d)
        ∧ answers (.qstat f) .load (.qstat (s1.rs f.a) f.d))
      ∧ (∀ d, s1.gwDie f = .ok d → let s0 := s1.setFrom (d / 4)
          let x := s0.die d; let v := s1.rs f.b; let i := v.toNat / 2 ^ 49; let r := s0.gwStore d s0.thread.pts
          let full := (aget x.gwq i).isSome = true ∨ 1024 ≤ (i + 32768 - x.gwNext) % 32768
          (Ready (.qpubGw f) s s1 e →
            (full → exec (.qpubGw f) s = .next (r.1.finish (some .reply) s.thread.pts (Eff.scalar { e with pts := max e.pts r.2 } f.d 1)))
            ∧ (¬full → let y := r.1.die d
                exec (.qpubGw f) s = .next (((r.1.setDie d { y with gwq := aset y.gwq i v }).serveGw d r.2 y.gwClaims.length).finish (some .reply)
                  s.thread.pts (Eff.scalar { e with pts := max e.pts r.2 } f.d 0))))
          ∧ (Ready (.qstatGw f) s s1 e →
              exec (.qstatGw f) s = .next (s0.finish (some .reply) s.thread.pts (e.scalar f.d (BitVec.ofNat 64 (x.gwq.length * 2 ^ 16 + x.gwNext))))))
      ∧ (∀ c k, Ready (.qclmGw f) s s1 e → s1.cur = .slot c k → s1.isGateway c = true →
          let d := dieOf c; let r := s1.gwStore d pts; let x := r.1.die d
          let ends := fun (s2 : State) (v w : Word) => exec (.qclmGw f) s = .next (s2.finish (some .reply) s.thread.pts
            { e with writes := e.writes ++ wrS f.d v ++ wrS (f.d + 1) w, pts := max e.pts r.2 })
          (∀ v, x.gwClaims = [] → aget x.gwq x.gwNext = some v →
            ends (r.1.setDie d { x with gwq := adel x.gwq x.gwNext, gwNext := (x.gwNext + 1) % 32768 }) v 0)
          ∧ (aget x.gwq x.gwNext = none → f.mod.getLsbD 0 = true → ends r.1 0 (BitVec.allOnes 64)))
      ∧ (∀ la lb, let a := (s1.rs f.a).toNat; let b := (s1.rs f.b).toNat
          Ready (.lnch f) s s1 e → a % 64 = 0 → b % 64 = 0 → s1.reach s1.cur b 64 .load = .ok lb → s1.reach s1.cur a 64 .atomic = .ok la →
          let h := s1.peek la 64; let head := imgGet h 0 8; let tail := imgGet h 8 8; let size := imgGet h 16 4
          let r := s1.loadAt b lb 64 1
          ((tail + 2 ^ 64 - head) % 2 ^ 64 = size →
            exec (.lnch f) s = .next ((r.1.rmwAt a la 0 1 id).1.finish (some .reply) s.thread.pts (e.scalar f.d (BitVec.allOnes 64))))
          ∧ (∀ ls, (tail + 2 ^ 64 - head) % 2 ^ 64 ≠ size →
              let slot := (s1.rs f.a + BitVec.ofNat 64 (64 + 64 * (if size = 0 then 0 else tail % size))).toNat
              s1.reach s1.cur slot 64 .store = .ok ls →
              let l8 := match la with
                | .mem pa => Loc.mem (pa + 8)
                | .scr c o => .scr c (o + 8)
              let s2 := ((r.1.raisePts ((r.1.tsAt ls).2 + 1)).rmwAt (a + 8) l8 8 1 (· + 1)).1
              exec (.lnch f) s = .next ((s2.storeAt slot ls 64 1 (imgPut r.2 17 1 1)).finish (some .reply) s.thread.pts (e.scalar f.d (BitVec.ofNat 64 tail))))))

/-- NRED contributes, routers combine, and the total is delivered (R310, R311, R338, R339). -/
def Obligations.ReductionsCombineAndDeliver : Prop :=
  (∀ (f : FmtR) s s1 e c k t i, let n := f.imm.toNat % 64
      Ready (.nred f) s s1 e → s1.cur = .slot c k → aget s1.dev.trees n = some t → t.ty = f.ty.toNat → t.member c k = some i → aget t.contribs i = none →
      (i = 0 ∨ ∀ x, s1.wayTo (devOf s1.myCore) (devOf (t.node (t.node i).1).2.2) (flt .prot) ≠ .bad x) →
      exec (.nred f) s = .next ((s1.setTree n { t with contribs := aset t.contribs i (s1.rv t.ty f.a), ts := max t.ts s1.thread.pts }).finish
        (some .reply) s.thread.pts e))
    ∧ (∀ (s : State) n i x v, aget s.dev.trees n = some x → i < x.nodes.length → aget x.contribs i = some v → aget x.partials i = none →
        (∀ j ∈ x.children i, (aget x.partials j).isSome = true ∧ s.routed (devOf (x.node j).2.2) (devOf (x.node i).2.2) = true) →
        let r := (x.children i).foldl (fun a j => treeStep s.part.vw x.ty x.op a ((aget x.partials j).getD 0)) v
        exec (.reductionCombine n i) s = .next (s.setTree n { x with partials := aset x.partials i r, total := if i = 0 then some r else x.total }))
    ∧ ∀ (s s2 : State) n x v, aget s.dev.trees n = some x → x.total = some v → ((s.slot (x.node 0).2.2 (x.node 0).2.1).port x.rootreg) = none →
        (s.setTree n { x with contribs := [], partials := [], ts := 0, total := none }).fillReg (x.node 0).2.2 (x.node 0).2.1 x.rootreg v x.ts = some s2 →
        exec (.reductionTotalDelivery n) s = .next s2

/-- PLSET, PLGET, PLINV, HTSET, TRSET and TRSET.clr complete (R336, R337, R338, R347, R348, R349). That TRSET gives 2
before 3 and TRSET.clr 3 before 2 is the model’s own choice (log entry 46). -/
def Obligations.TableInstructionsComplete : Prop :=
  ∀ (f : FmtR) s s1 e l, s1.tableLaunch = .ok l → let a := (s1.rs f.a).toNat; let n := f.imm.toNat % 64
    let ends := fun (i : Instr) (s2 : State) (v : Word) => exec i s = .next (s2.finish (some .reply) s.thread.pts (e.scalar f.d v))
    (∀ loc, Ready (.plset f) s s1 e → a % 64 = 0 → s1.access a 64 .load = .ok loc →
      let r := s1.loadAt a loc 64 1
      (platValid (BitVec.ofNat 512 r.2) = true → s1.launchWay l = .ok () → ends (.plset f) (r.1.setPlat l (platNoOf f) (some (BitVec.ofNat 512 r.2))) 0)
      ∧ (platValid (BitVec.ofNat 512 r.2) = false → ends (.plset f) r.1 1))
    ∧ (Ready (.plget f) s s1 e → a ≤ 7 →
        ends (.plget f) s1 (BitVec.ofNat 64 (lineField ((aget (s1.fold (foldOf s1.myCore)).plats (platNoOf f)).getD 0) (8 * a) 8)))
    ∧ (Ready (.plinv f) s s1 e → s1.launchWay l = .ok () → exec (.plinv f) s = .next ((s1.setPlat l (platNoOf f) none).finish (some .reply) s.thread.pts e))
    ∧ (∀ x, Ready (.htset f) s s1 e → s1.launch? l = some x → let p := s1.rs f.a; let i := f.imm.toNat % 256
        (p ≠ 0 → isSlotAddr p = false → ends (.htset f) s1 1)
        ∧ (p = 0 ∨ isSlotAddr p = true → s1.launchWay l = .ok () → ends (.htset f) (s1.setLaunch l { x with handlers := aset x.handlers i p, hcount := max x.hcount (i + 1) }) 0))
    ∧ (∀ hs, Ready (.trset f) s s1 e → a % 64 = 0 → s1.reachSpan a 16 .load = .ok hs →
        let r := s1.loadSpan a hs; let d := r.2; let cnt := imgGet d 4 2
        (treeHeadOk d = false → ends (.trset f) r.1 1)
        ∧ (∀ ls, treeHeadOk d = true → r.1.reachSpan (a + 16) (8 * cnt) .load = .ok ls →
            let q := r.1.loadSpan (a + 16) ls
            (q.1.treeNodesOk l q.2 cnt = false → ends (.trset f) q.1 1)
            ∧ (∀ t, q.1.treeNodesOk l q.2 cnt = true → aget s1.dev.trees n = some t → t.isOpen = true → ends (.trset f) q.1 2)
            ∧ (∀ t, q.1.treeNodesOk l q.2 cnt = true → aget s1.dev.trees n = some t → t.isOpen = false → t.owner ≠ l → ends (.trset f) q.1 3)
            ∧ (q.1.treeNodesOk l q.2 cnt = true → (∀ t, aget s1.dev.trees n = some t → t.isOpen = false ∧ t.owner = l) →
                s1.launchWay l = .ok () → ends (.trset f) (q.1.setTree n {
                  owner := l, ty := imgGet d 0 1, op := imgGet d 1 1, rootreg := imgGet d 2 1,
                  nodes := treeNodes q.2 cnt, contribs := [], partials := [], ts := 0, total := none }) 0)))
    ∧ (Ready (.trsetClr f) s s1 e →
        (aget s1.dev.trees n = none → ends (.trsetClr f) s1 3)
        ∧ ∀ t, aget s1.dev.trees n = some t →
          (t.owner ≠ l → ends (.trsetClr f) s1 3) ∧ (t.owner = l → t.isOpen = true → ends (.trsetClr f) s1 2)
          ∧ (t.owner = l → t.isOpen = false → s1.launchWay l = .ok () → ends (.trsetClr f) { s1 with dev := { s1.dev with trees := adel s1.dev.trees n } } 0))

/-- XLAT, TLBINV.a, TLBINV.l, TLBINV.g, MODLD, MODLD.dbg and MODUL complete (R343, R344, R345, R346, R347, R350, R351,
R352, R353). The model’s own readings in it: the TLBs that serve a system core’s XLAT (log entry 13), and where TEXT
starts, which refusal of MODLD comes first and what MEAS2 is extended with (log entry 30). -/
def Obligations.TranslationAndModuleInstructionsComplete : Prop :=
  ∀ (f : FmtR) s s1 e, let a := (s1.rs f.a).toNat; let m := f.imm.toNat % 256
    let leafWord := fun (o : Option Leaf) (a : Nat) => match o with
      | some l => BitVec.ofNat 64 (xlatWord l a)
      | none => (0 : Word)
    let ends := fun (i : Instr) (s2 : State) (v : Word) => exec i s = .next (s2.finish (some .reply) s.thread.pts (e.scalar f.d v))
    (Ready (.xlat f) s s1 e → s1.isSys = false →
      (canonical a = false → ends (.xlat f) s1 0)
      ∧ (∀ o, canonical a = true → s1.translate s1.cur a true = .ok o → ends (.xlat f) (s1.tlbEnter s1.cur a) (leafWord o a)))
    ∧ (Ready (.xlat f) s s1 e → s1.isSys = true → let b := (s1.rs f.b).toNat
      (s1.liveLaunch b = none → ends (.xlat f) s1 3)
      ∧ (∀ l, s1.liveLaunch b = some l → (canonical a = false → ends (.xlat f) s1 0)
        ∧ (canonical a = true → (s1.tlbHit (s1.tlbCore s1.cur) b a).isSome = true
              ∨ s1.missWait (s1.tlbCore s1.cur) b l.root a = none →
            let r := s1.translateFor (s1.tlbCore s1.cur) b l.root a
            ends (.xlat f) r.1 (leafWord r.2 a))))
    ∧ (
        let drops := fun (i : Instr) (drop : TlbEnt → Bool) => Ready i s s1 e → s1.translated (s1.tlbAll.filter drop) = [] →
          ends i (s1.dropTlbs drop) 0
        (s1.liveLaunch (s1.rs f.b).toNat = none → Ready (.tlbinvG f) s s1 e → ends (.tlbinvG f) s1 3)
        ∧ ((s1.liveLaunch (s1.rs f.b).toNat).isSome = true → s1.launchesWay (fun _ => true) = .ok () → drops (.tlbinvG f) (fun _ => true))
        ∧ (∀ sp, s1.tlbSpace f = some sp → s1.launchWay sp = .ok () →
          drops (.tlbinvA f) (fun x => x.space == sp && a % 2 ^ 57 / 2 ^ pageBits x.level == x.page)
          ∧ drops (.tlbinvL f) (fun x => x.space == sp))
        ∧ (s1.tlbSpace f = none → ∀ i ∈ [Instr.tlbinvA f, .tlbinvL f], Ready i s s1 e → ends i s1 3))
    ∧ (∀ ls, s1.reachSpan (s1.rs f.b).toNat 64 .load = .ok ls →
        let r := s1.loadSpan (s1.rs f.b).toNat ls
        ∀ p ∈ [(Instr.modld f, false), (.modldDbg f, true)], Ready p.1 s s1 e →
          (∀ n, r.1.modldCode p.2 a r.2 = .error n → ends p.1 r.1 (BitVec.ofNat 64 (2 ^ 63 + n)))
          ∧ (∀ k ld, r.1.modldCode p.2 a r.2 = .ok k →
              (if s1.dev.reqsign then r.1.reachSpan ((s1.rs f.b).toNat + 72) 64 .load else .ok []) = .ok ld →
              let q := r.1.loadSpan ((s1.rs f.b).toNat + 72) ld
              let s2 := (q.1.dropCode a (imgGet r.2 8 8)).setModule k {
                base := s1.rs f.a, imagesize := BitVec.ofNat 64 (imgGet r.2 16 8), textbase := s1.rs f.a,
                textsize := BitVec.ofNat 64 (imgGet r.2 8 8), record := s1.rs f.b, use := 0, st := 1, debug := p.2,
                version := BitVec.ofNat 32 (imgGet r.2 4 4), units := BitVec.ofNat 32 (imgGet r.2 24 4) }
              ends p.1 (if s1.dev.reqsign then { s2 with dev := s2.dev.extend 2 (BitVec.ofNat 512 q.2) } else s2) (BitVec.ofNat 64 k)))
    ∧ (Ready (.modul f) s s1 e →
        ((s1.moduleAt m).st = 0 → ends (.modul f) s1 1) ∧ (2 ≤ (s1.moduleAt m).st → ends (.modul f) s1 2)
        ∧ ((s1.moduleAt m).st = 1 → let s2 := s1.setModule m { s1.moduleAt m with st := 2 }
            exec (.modul f) s = .next ((s2.setThread { s2.thread with reply := some (e.scalar f.d 0) }).waiting s.thread.pts (.moduleFree m))))

/-- BARA, BARA.join, BARA.leave, BARW, BARQ, CTRSEL, CTRRD, TIMSET, TSTMP and CLKRD complete (R355, R356, R357, R358,
R359, R360, R361, R363, R364). -/
def Obligations.BarrierCounterAndClockInstructionsComplete : Prop :=
  (∀ (f : FmtR) s s1 e l y b x, s1.barrierOf f = .ok (l, y, b, x) → let s2 := s1.setFrom y.barDev
      let ends := fun (i : Instr) (s2 : State) (v : Nat) => exec i s = .next (s2.finish (some .reply) s.thread.pts (e.scalar f.d (BitVec.ofNat 64 v)))
      (∀ n, Ready (.bara f) s s1 e → x.count s2.me = some n →
        (n ≠ x.phase + 3 → let z : Barrier := { x.setCount s2.me (n + 1) with arrivals := (n + 1, s2.thread.pts) :: x.arrivals }
          ends (.bara f) ((s2.setBarrier l b (z.recompute y.launchTs)).serveBarrier l b y.launchTs) (n + 1))
        ∧ (n = x.phase + 3 → exec (.bara f) s = .next ((s2.popDefer.setBarrier l b { x with
            late := x.late ++ [{ who := s2.cur, d := f.d, pts := s2.thread.pts, eff := e }] }).waiting s.thread.pts (.lead b))))
      ∧ (Ready (.baraJoin f) s s1 e → (∀ n, x.count s2.me = some n → ends (.baraJoin f) s2 n)
          ∧ (x.count s2.me = none → ends (.baraJoin f) (s2.setBarrier l b (x.setCount s2.me x.phase)) x.phase))
      ∧ (Ready (.baraLeave f) s s1 e → (x.count s2.me = none → ends (.baraLeave f) s2 x.phase)
          ∧ (∀ n, x.count s2.me = some n → let z := Barrier.recompute y.launchTs { x with members := x.members.filter fun m => m.1 != s2.me }
              ends (.baraLeave f) ((s2.setBarrier l b z).serveBarrier l b y.launchTs) z.phase))
      ∧ (Ready (.barw f) s s1 e → let t := (s2.rs f.a).toNat
          (t ≤ x.phase → exec (.barw f) s = .next (s2.finish (some .reply) s.thread.pts { e with pts := max e.pts (x.mark y.launchTs t) }))
          ∧ (x.phase < t → exec (.barw f) s = .next ((s2.popDefer.setBarrier l b { x with
              waits := x.waits ++ [{ who := s2.cur, phase := t, pts := s2.thread.pts, eff := e }] }).waiting s.thread.pts (.phase b t))))
      ∧ (Ready (.barq f) s s1 e → (f.mod.getLsbD 0 = false → ends (.barq f) s2 (x.status s2.me))
          ∧ (∀ m, f.mod.getLsbD 0 = true → s2.memberOf l (s2.rs f.a) = .ok m → ends (.barq f) s2 (x.status m))))
  ∧ (∀ f : FmtR,
      (∀ s s1 e, let x := s1.rs f.a; let i := f.imm.toNat % 8; let y := s1.core s1.myCore
        Ready (.ctrsel f) s s1 e → x.toNat / 2 ^ 25 = 0 → x.toNat % 256 ≤ 15 →
        exec (.ctrsel f) s = .next ((s1.setCore s1.myCore { y with
          ctrCfg := y.ctrCfg.setIfInBounds i (x &&& ~~~(0x1000000 : Word)),
          ctrs := if x.getLsbD 24 then y.ctrs.setIfInBounds i 0 else y.ctrs }).commit (e.scalar f.d ((y.ctrCfg[i]?).getD 0))))
      ∧ WritesScalar (.ctrrd f) f.d (fun s => let y := s.core s.myCore
          (BitVec.ofNat 64 (if f.mod.getLsbD 0 then (y.fixed[f.imm.toNat % 16]?).getD 0 else (y.ctrs[f.imm.toNat % 8]?).getD 0), 0))
      ∧ (∀ s s1 e, let n := (s1.rs f.a).toNat; let a := (s1.rs f.b).toNat; let y := (s1.core s1.myCore).expire; let per := f.mod.getLsbD 0
          Ready (.timset f) s s1 e → n = 0 ∨ (winBase ≤ a ∧ a < winBase + 4096 * y.scrPages ∧ a % 8 = 0 ∧ (per = true → 64 ≤ n)) →
          s1.afterExpiry s1.myCore = .ok () → exec (.timset f) s = .next ((s1.setCore s1.myCore { y with timer := n, period := if per then n else 0, event := s1.rs f.b }).commit
            (e.scalar f.d (BitVec.ofNat 64 y.timer))))
      ∧ (∀ s s1 e, Ready (.tstmp f) s s1 e → let p := if f.mod.getLsbD 0 then max s1.thread.pts (s1.rs f.a).toNat else s1.thread.pts
          exec (.tstmp f) s = .next (s1.commit (Eff.scalar { e with pts := max e.pts p } f.d (BitVec.ofNat 64 p))))
      ∧ WritesScalar (.clkrd f) f.d (fun s => (BitVec.ofNat 64 (if f.mod.getLsbD 0 then ((s.core s.myCore).fixed[0]?).getD 0 else s.deviceTime), 0)))

/-- PRMT, PRMT.l, RESM and RESM.l complete (R313, R378, R381). That RESM of one core makes its pre-empted launch Running
is the model’s own choice (log entry 50). -/
def Obligations.PreemptionAndResumptionComplete : Prop :=
  ∀ (f : FmtR) s s1 e, let n := (s1.rs f.a).toNat
    let ends := fun (i : Instr) (s2 : State) (v : Word) => exec i s = .next (s2.finish (some .reply) s.thread.pts (e.scalar f.d v))
    (Ready (.prmt f) s s1 e → (s1.ownCore (s1.rs f.a) = none → ends (.prmt f) s1 3)
      ∧ ∀ c, s1.ownCore (s1.rs f.a) = some c → ((s1.core c).saved = true → ends (.prmt f) s1 2)
        ∧ ((s1.core c).saved = false → s1.coreEnding c = true → ends (.prmt f) s1 1)
        ∧ ((s1.core c).saved = false → s1.coreEnding c = false → s1.quietCore c = true → ends (.prmt f) (s1.saveCore c) 0))
    ∧ (Ready (.resm f) s s1 e → (s1.ownCore (s1.rs f.a) = none → ends (.resm f) s1 3)
      ∧ ∀ c, s1.ownCore (s1.rs f.a) = some c → ((s1.core c).saved = false → ends (.resm f) s1 2)
        ∧ ((s1.core c).saved = true → s1.coreAborted c = true → ends (.resm f) s1 3)
        ∧ ((s1.core c).saved = true → s1.coreAborted c = false → let s2 := s1.resumeCore c
            ((s2.core c).launch.bind s2.launch? = none → ends (.resm f) s2 0)
            ∧ ∀ l y, (s2.core c).launch = some l → s2.launch? l = some y →
              ends (.resm f) (if y.st = .preempted then s2.setLaunch l { y with st := .running } else s2) 0))
    ∧ (Ready (.prmtL f) s s1 e → (s1.liveLaunch n = none → ends (.prmtL f) s1 3)
      ∧ ∀ l, s1.liveLaunch n = some l → (l.st = .preempted → ends (.prmtL f) s1 2)
        ∧ (let cs := coresOfPlacement l.folds l.desc.cores
            let live := cs.filter fun c => !(s1.core c).saved && !s1.coreEnding c
            l.st = .running → (cs.all fun c => (s1.slot c 0).st == .ended) = false → live.all s1.quietCore = true →
            f.mod.getLsbD 1 = false ∨ s1.quietFolds l.folds = true →
            let s2 := cs.foldl (fun s c => s.setCore c { s.core c with saved := true }) (live.foldl State.saveCore s1)
            let s3 := s2.setLaunch n { (s2.launch? n).getD l with st := .preempted }
            ends (.prmtL f) (if f.mod.getLsbD 1 then s3.release n else s3) 0)
        ∧ (let cs := coresOfPlacement l.folds l.desc.cores
            let live := cs.filter fun c => !(s1.core c).saved && !s1.coreEnding c
            let rest := live.filter fun c => !s1.quietCore c
            l.st = .running → (cs.all fun c => (s1.slot c 0).st == .ended) = false →
            ¬(live.all s1.quietCore = true ∧ (f.mod.getLsbD 1 = false ∨ s1.quietFolds l.folds = true)) →
            let s2 := if live.all fun c => !s1.quietCore c then live.foldl State.spillHeld s1 else (live.filter s1.quietCore).foldl State.saveCore s1
            exec (.prmtL f) s = .next ((s2.stopCores rest).waiting s.thread.pts (.quiet rest))))
    ∧ (Ready (.resmL f) s s1 e → (s1.liveLaunch n = none → ends (.resmL f) s1 3)
      ∧ ∀ l, s1.liveLaunch n = some l → (l.aborted = true → ends (.resmL f) s1 3)
        ∧ (l.aborted = false → l.st ≠ .preempted → ends (.resmL f) s1 2)
        ∧ (l.aborted = false → l.st = .preempted → l.released = none →
            let s2 := ((coresOfPlacement l.folds l.desc.cores).filter fun c => (s1.core c).saved).foldl State.resumeCore s1
            ends (.resmL f) (s2.setLaunch n { (s2.launch? n).getD l with st := .running }) 0))

/-- TRAP and BRKP take their fault, SYSC sends its call, FLTRD and FLTRD.peek read the oldest record (R368, R372, R384,
R385, R386, R387). -/
def Obligations.TrapsAndSystemCallsTakeEffect : Prop :=
  ∀ (f : FmtR) s s1 e,
    (Ready (.trap f) s s1 e → exec (.trap f) s = .next (s.raise (swTrap f (s1.rs f.a) false)))
    ∧ (Ready (.brkp f) s s1 e → exec (.brkp f) s = .next (s.raise (swTrap f 0 true)))
    ∧ (Ready (.sysc f) s s1 e → s1.dev.excq.length < 4096 → let d := s1.dev
        let r : SysReq := { who := s1.cur, call := f.imm.toNat % 2 ^ 16, a := s1.rs f.a, b := s1.rs f.b, d := f.d, eff := e }
        exec (.sysc f) s = .next (State.waiting { s1 with
          sysc := s1.sysc ++ [r],
          dev := { d with excq := d.excq ++ [s1.syscEntry f], excCount := d.excCount + 1 } } s.thread.pts .served))
    ∧ (∀ c k, s1.cur = .slot c k → (s1.core c).unpinned 1023 = false → s1.spanClean c frqOff 24 = .ok () →
        let x := s1.core c; let q := x.frq
        let w := fun i : Nat => BitVec.ofNat 64 (x.scr.readNat (frqOff + 64 + 32 * (q.2.1 % 16) + 8 * i) 8)
        let look := x.scrStore frqOff 0 0 s1.thread.pts
        let take := x.scrStore (frqOff + 8) 8 (q.2.1 + 1) s1.thread.pts
        let left := if (s1.tailBad c).isSome then take.1 else take.1.admitWaiting take.2
        let ends := fun (i : Instr) (y : Core) (ts : Nat) (w0 w1 w2 w3 : Word) => exec i s = .next ((s1.setCore c y).finish (some .reply) s.thread.pts
          { e with writes := e.writes ++ (wrS f.d w0 ++ wrS (f.d + 1) w1 ++ wrS (f.d + 2) w2 ++ wrS (f.d + 3) w3), pts := max e.pts ts })
        (q.1 = q.2.1 → ∀ i ∈ [Instr.fltrd f, .fltrdPeek f], Ready i s s1 e → ends i look.1 (look.1.pageTsOf 1023).1 0 0 0 0)
        ∧ (q.1 ≠ q.2.1 → s1.spanClean c (frqOff + 64 + 32 * (q.2.1 % 16)) 32 = .ok () → (Ready (.fltrdPeek f) s s1 e → ends (.fltrdPeek f) look.1 (look.1.pageTsOf 1023).1 (w 0) (w 1) (w 2) (w 3))
          ∧ (Ready (.fltrd f) s s1 e → ends (.fltrd f) left (left.pageTsOf 1023).1 (w 0) (w 1) (w 2) (w 3))))

/-- A wheel issues the first slot after the last in rotation that may issue (R24, R122, R273, R361, R406). -/
def Obligations.TheWheelIssuesTheNextSlotThatMay : Prop :=
  (∀ n last ok k, rotate n last ok = some k → 0 < n →
      k < n ∧ ok k = true ∧ ∃ i < n, k = (last + 1 + i) % n ∧ ∀ j < i, ok ((last + 1 + j) % n) = false)
    ∧ (∀ n last ok, rotate n last ok = none → ∀ k < n, ok k = false)
    ∧ (∀ (s : State) c, s.coreLive c = true → s.env.gate.headD 0 ≠ 1 → let t := s.turn c; let x := t.core c
        (∀ k, rotate 16 x.lastSlot (fun k => decide (k < x.nslots) && t.mayIssue c k) = some k →
          exec (.bundleIssue (.core c)) s = .next ((t.setCore c { x with lastSlot := k }).as (.slot c k)).issueThread)
        ∧ ((∀ k < 16, k < x.nslots → t.mayIssue c k = false) → exec (.bundleIssue (.core c)) s = .next (t.setCore c (x.addFixed 3 1))))
    ∧ (∀ (s : State) c, (s.core c).launch.isSome = true ∨ s.isGateway c = true →
        (s.env.gate.headD 0 = 1 → exec (.bundleIssue (.core c)) s = .next
          { s.setCore c ((s.core c).addFixed 3 1) with env := { s.env with gate := s.env.gate.tail } })
        ∧ (s.env.gate.headD 0 ≠ 1 → s.coreLive c = false → exec (.bundleIssue (.core c)) s = .next (s.setCore c ((s.core c).addFixed 3 1))))
    ∧ (∀ (s : State) ch i, rotate 16 (s.chan ch).lastCtx (fun i => s.otherMayIssue (.ctx ch i)) = some i →
        exec (.bundleIssue (.chan ch)) s = .next ((s.setChan ch { s.chan ch with lastCtx := i }).as (.ctx ch i)).issueThread)
    ∧ ∀ (s : State) n, s.otherMayIssue (.sys n) = true → exec (.bundleIssue (.sys n)) s = .next (s.as (.sys n)).issueThread

/-- The events of replies, lines, followers, fills, streams, pages and translation walks take effect (R6, R26, R119, R122,
R123, R125, R126, R200, R216, R343, R367, R379). The model’s own readings in it: from which device a reply comes (log
entry 88), that one tracker stands for one register-sized element (log entry 24), and that the environment picks the
append written (log entry 5). -/
def Obligations.RepliesFillsAndWalksArrive : Prop :=
  ((∀ (s : State) w, let s1 := s.as w; let t := s1.thread
        s1.replyReady w t = true →
        (∀ v, t.vec = some v → exec (.replyArrival w) s = .next (s1.vecStep v))
        ∧ (∀ e x, t.vec = none → t.reply = some e → t.wait = some x → let s2 := s1.land (s1.replyEff x e)
          exec (.replyArrival w) s = .next (if s2.thread.reply.isSome then s2 else s2.sendOff))
        ∧ (t.vec = none → t.reply = none →
          exec (.replyArrival w) s = .next { s1.setThread { t with st := .runnable, wait := none } with issue := t.again }))
      ∧ (∀ (s : State) w e, let t := (s.as w).thread
          t.st = .parked → t.vec = none → t.reply = some e → t.outgoing = none →
          let routed := ∀ d, t.peer = some d → (s.as w).routed d ((s.as w).standsOn w) = true
          (t.wait = some .reply → routed → t.blocked e = [] → exec (.replyArrival w) s = .next ((s.as w).commit e))
          ∧ (t.wait = some .reply → ¬routed → exec (.replyArrival w) s = .next (s.as w))
          ∧ (∀ r rs, t.wait = some .reply → routed → t.blocked e = r :: rs →
            exec (.replyArrival w) s = .next ((s.as w).setThread { t with wait := some (.full (r :: rs)) }))
          ∧ (∀ rs, t.wait = some (.full rs) → t.blocked e ≠ [] → exec (.replyArrival w) s = .next (s.as w)))
      ∧ (∀ (s : State) c k ln, (s.slot c k).fetchWait = some ln → let s1 := s.as (.slot c k)
          s1.lineComes (.slot c k) s1.thread ln = true →
          let s2 := s1.setCore c (s1.countSlot c (s1.core c) (s1.slot c k))
          let s3 := s2.setThread { s2.thread with fetchWait := none, wakeAt := s2.ac + 1 }
          exec (.fetchLineArrival (.slot c k)) s = .next { (s3.readCode c ln).1 with issue := s1.thread.again })
      ∧ (∀ (s : State) c k, (s.slot c k).fetchWait = none →
          exec (.fetchLineArrival (.slot c k)) s = .next ((s.as (.slot c k)).runAhead c k))
      ∧ (∀ (s : State) c k e, (s.slot c k).reply = some e → (s.slot c k).wait = some .follow → (s.slot c k).blocked e = [] →
          ((s.slot c k).followBuf ≠ [] → let s2 := (s.as (.slot c k)).commit (flwEff e 1)
            exec (.followJoin c k) s = .next (if (s.slot c k).bell = none then s2.setThread { s2.thread with followBuf := [] }
              else (s2.setThread (s2.thread.setFollow true)).dropFollowers c k))
          ∧ ((s.slot c k).followBuf = [] → (s.slot c k).flwSince + 256 ≤ s.ac →
            exec (.flwTimeout c k) s = .next (((s.as (.slot c k)).setThread { s.slot c k with bell := none }).commit (flwEff e 0))))
      ∧ ∀ (s s2 : State) i m, s.fills[i]? = some m → s.wayOpen m.sender m.core = true → (s.slot m.core m.slot).port m.reg = none →
          State.fillReg { s with fills := dropAt s.fills i } m.core m.slot m.reg m.val m.ts = some s2 →
          exec (.remoteFillArrival i) s = .next (s2.answerStatus m.core m.sender (if (s.slot m.core m.slot).st = .idle then 2 else 0)))
  ∧ ((∀ (s : State) c k r p, (s.slot c k).port r = some p → p.kind = .input → (s.core c).saved = false → p.fault = none → p.buf.length < 8 →
        let n := s.perPop r p; let i := p.done + n * p.buf.length; let cs := p.held (p.buf.length + 1); let asks := p.ask (128 - (s.core c).asked) n
        i < p.count → s.condsDone cs = true → asks ≠ 0 →
        (∀ s2 vs w, s.streamRead c k p (s.afterConds p.pts cs) (p.span i n) = .ok (s2, vs, w) →
          exec (.streamElementArrival c k r) s = .next (s2.setSlot c k ((s2.slot c k).setPort r
            { p with buf := p.buf ++ [⟨portValue r p.ty vs, w⟩], asked := asks - 1 })))
        ∧ (∀ f, s.streamRead c k p (s.afterConds p.pts cs) (p.span i n) = .bad f →
          exec (.streamElementArrival c k r) s = .next ((s.noteFault (.slot c k) f).setSlot c k ((s.slot c k).setPort r { p with asked := 0, fault := some f }))))
      ∧ (∀ (s : State) c k r p j, (s.slot c k).port r = some p → p.kind = .output → p.fault = none →
          let asks := p.askWrites (128 - (s.core c).asked)
          (p.unwritten.take asks)[s.env.pick.headD 0 % max 1 asks]? = some j →
          let t := s.popPick; let n := t.perPop r p; let x := (p.buf[j]?).getD ⟨0, 0⟩; let cs := p.held (p.ahead + j + 1)
          t.condsDone cs = true →
          (∀ s2 w, t.streamWrite c k p (t.afterConds p.pts cs) (p.appendElems r ((p.ahead + j) * n) n x.val) = .ok (s2, w) →
            let y := (s2.core c).noteFence (fun z => match z with
              | .stream c' k' r' b n => c' == c && k' == k && r' == r && b == p.num && decide (p.ahead + j < n)
              | _ => false) w
            exec (.streamWriteCompletion c k r) s = .next (s2.setCore c (Core.setSlot { y with smark := max y.smark w } k
              ((y.slot k).setPort r { p.written j w with asked := asks - 1 }))))
          ∧ (∀ f, t.streamWrite c k p (t.afterConds p.pts cs) (p.appendElems r ((p.ahead + j) * n) n x.val) = .bad f →
            exec (.streamWriteCompletion c k r) s = .next ((t.noteFault (.slot c k) f).setSlot c k ((t.slot c k).setPort r { p with asked := 0, fault := some f }))))
  
      ∧ (∀ (s : State) c p, (s.core c).unpinned p = true → p < (s.core c).scrPages ∨ (1016 ≤ p ∧ p < 1024) →
          exec (.pageRefill c p) s = .next (s.setCore c ((s.core c).pin p)))
      ∧ ∀ (s : State) c va, let d := dieOf c; let sp := s.space (.slot c 0)
          let pending := (s.die d).misses.find? fun m => m.space == sp && m.page == va.toNat % 2 ^ 57 / 65536
          let clean := fun (root : Nat) => ∀ a ∈ s.walkPath va.toNat 3 root, s.dev.poisoned.contains (a / 64) = false
          (∀ m, pending = some m → m.walking = true → clean m.root → exec (.tlbWalkCompletion c va) s = .next (s.endWalk d m va.toNat))
          ∧ (pending = none → (s.core c).launch.isSome = true → canonical va.toNat = true → clean (s.rootOf (.slot c 0)) →
            exec (.tlbWalkCompletion c va) s = .next (s.aheadWalk c va.toNat)))

/-- The events of copy engines and of field sequencers take effect (R219, R220, R222, R223, R224, R230, R233, R236, R237,
R239, R370, R372). That the environment picks the chunk, that a chunk goes on line by line and that the completion
word is written by an event of its own are the model’s own readings (log entry 40), and which lanes of a transfer move
together (log entry 22). -/
def Obligations.CopyEnginesAndFieldSequencersAdvance : Prop :=
  (∀ (s : State) c, (s.core c).chalted = false →
      (∀ s2, s.copyStart c = .ok s2 → exec (.copyCommandStart c) s = .next s2)
      ∧ (∀ r, (s.core c).crun = some r → s.env.pick = [] → r.chunks = [] ∨ 0 < r.sent → s.copyMove c = some (none, 0))
      ∧ (∀ r i, (s.core c).crun = some r → s.copyMove c = some (none, i) →
          let words := fun (t : State) (x : CopyRun) => ∀ s3 mark, t.copyWord c x.cmd x.mark = .ok (s3, mark) →
            exec (.copyCommandCompletion c) s = .next (s3.copyRetire c mark)
          (r.chunks = [] → words s.popPick r)
          ∧ (∀ q, r.chunks ≠ [] → s.popPick.copyStep c r i = .ok q → let s2 := q.1.setCore c (Core.grant { q.1.core c with crun := some q.2 })
            (r.cmd.kind ≠ 2 ∨ q.2.chunks ≠ [] → exec (.copyCommandCompletion c) s = .next s2) ∧ (r.cmd.kind = 2 → q.2.chunks = [] → words s2 q.2)))
      ∧ (∀ i j r q, s.copyMove c = some (some j, i) → (s.core c).cover[j]? = some r → s.popPick.copyStep c r i = .ok q →
          exec (.copyCommandCompletion c) s = .next (q.1.setCore c (Core.grant { q.1.core c with cover := (s.core c).cover.set j q.2 })))
      ∧ (∀ w s2, (s.core c).crun = none → (s.core c).cwalk = some w → w.fresh = false → s.walkAsk c w = .ok s2 →
          exec (.chainWalkStep c) s = .next s2)
      ∧ ∀ f slot pc ts n, s.copyFault c = some (f, slot, pc, ts, n) →
          let info := BitVec.ofNat 64 (n % 2 ^ 32 + ((s.core c).eseq + 1) % 2 ^ 32 * 2 ^ 32)
          let s2 := s.noteFault (.slot c slot) f
          exec (.copyEngineFault c) s = .next ((s2.setCore c { s2.core c with chalted := true }).enterRecord c
            (FaultInfo.toRec { f with step := 0 } 2 slot pc (s2.slot c slot).hold.isSome info) ts))
  ∧ (∀ (s : State) f, (s.fold f).fhalted = false → let x := s.fold f
      (∀ m ms, x.frun = none → x.fq = m :: ms → s.condsDone m.conds = true → f < 2 ^ 21 →
        exec (.fieldCommandStart f) s = .next (s.setFold f { x with
          fq := ms,
          frun := some { cmd := { m with pts := max (s.afterConds m.pts m.conds) (if x.gmark = 0 then 0 else x.gmark + 1) }, lane := 0, mark := 0, due := s.ac + m.kind.cycles } }))
      ∧ (∀ r, x.frun = some r →
          (∀ sub g, r.cmd.kind = .op sub g → s.ac < r.due → exec (.fieldCommandCompletion f) s = .next s)
          ∧ (∀ sub g, r.cmd.kind = .op sub g → r.due ≤ s.ac →
            exec (.fieldCommandCompletion f) s = .next ((s.setFold f (x.rowOp sub g).1).fieldRetire f 0 (x.rowOp sub g).2))
          ∧ (∀ m c k e d, r.cmd.kind = .mode m c k e d → let s2 := (s.setWays f m).fieldRetire f 0 0
              s2.awaits (.slot c k) = true →
              exec (.fieldCommandCompletion f) s = .next ((s2.as (.slot c k)).land { e with writes := e.writes ++ wrS d (BitVec.ofNat 64 x.ways) }))
          ∧ ((∀ sub g, r.cmd.kind ≠ .op sub g) → (∀ m c k e d, r.cmd.kind ≠ .mode m c k e d) →
              let r' := s.fieldAt f r; let n := s.lanesLeft f r'; let q := s.fieldLanes f r' (r'.together n)
              exec (.fieldCommandCompletion f) s = .next (if n = 0 then s.fieldRetire f r'.mark 0
                else q.1.setFold f { q.1.fold f with frun := some q.2 }))
          ∧ (∀ g l0, (∃ l o a b, r.cmd.kind = .fin l o l0 a b ∨ r.cmd.kind = .fout l o l0 a b) →
              let r' := s.fieldAt f r
              s.lanesLeft f r' ≠ 0 → s.fieldLane f r' = .bad g →
              let info := BitVec.ofNat 64 ((l0 + r'.lane) % 2 ^ 32 + r.cmd.ticket % 2 ^ 32 * 2 ^ 32)
              let s2 := (s.setFold f { x with fhalted := true, frun := some r' }).noteFault (.slot r.cmd.core r.cmd.slot) g
              exec (.fieldFault f) s = .next (s2.enterRecord r.cmd.core
                (FaultInfo.toRec { g with step := 0 } 3 r.cmd.slot r.cmd.pc (s2.slot r.cmd.core r.cmd.slot).hold.isSome info) (max r.cmd.pts r'.mark)))))

/-- The events of key-addressed maps take effect (R255, R257, R258, R259, R263, R269, R270). The model’s own readings in
it: the cursor of a KITER that meets a KCLR and that a BUSY takes no timestamp (log entry 89), and what a poisoned
line holds back (log entry 90). -/
def Obligations.MapAgentsAdvance : Prop :=
  (∀ (s : State) f r rs g o os m, (s.fold f).agentQ = r :: rs → r.ops = (g, o) :: os →
        let s0 := s.setAgentQ f rs
        let becomes := fun (t : State) => exec (.mapRequestService f) s = .next t
        let home := m.desc.hashOf o.key % 2 ^ (m.group g).level; let d := f / 128
        s0.kmap? r.region = some m →
        (r.busy = true → becomes ((s0.setKmap r.region (m.countBad msBusy r.blocking)).passOn d r
            { val := m.desc.dflt, cursor := BitVec.allOnes 64, ms := msBusy } r.pts))
        ∧ (r.busy = false → s0.mapHeld m g o = true → becomes s)
        ∧ (r.busy = false → s0.mapHeld m g o = false →
          (o.kind ≤ 3 → home = g → s.env.combine = [] →
            let a := m.apply g o
            let s1 := s0.setKmap r.region (a.1.countBad a.2.ms r.blocking)
            let z := if o.kind = 0 then s1.groupLoad r.region g r.pts else s1.groupStore r.region g r.pts
            becomes ((z.1.askSplit r.region g (m.group g).entries.length).passOn d r a.2 z.2))
          ∧ (o.kind ≤ 3 → home ≠ g → s.agentRouted m g home = true →
            becomes (((s0.setKmap r.region { m with desc := { m.desc with forwards := m.desc.forwards + 1 } }).countFold 8 (m.agent home) 1).enqueueMap
              { r with ops := (home, o) :: os }))
          ∧ (o.kind ≤ 3 → home ≠ g → s.agentRouted m g home = false → becomes s)
          ∧ (o.kind = 4 → let z := s0.groupLoad r.region g r.pts
            (∀ i x, g < m.desc.count → m.iterAt g o.x = (i, some x) →
              becomes (z.1.passOn d r { val := x.2, key := x.1, cursor := BitVec.ofNat 64 (g * 2 ^ 32 + i + 1), ms := msHit } z.2))
            ∧ ((m.iterAt g o.x).2 = none → g + 1 < m.desc.count →
              becomes (if s.agentRouted m g (g + 1) then z.1.enqueueMap { r with pts := z.2, ops := (g + 1, o) :: os } else s))
            ∧ ((m.iterAt g o.x).2 = none → g + 1 = m.desc.count → becomes (z.1.passOn d r { val := 0, cursor := BitVec.allOnes 64, ms := msMiss } z.2))
            ∧ (m.desc.count ≤ g → becomes (s0.passOn d r { val := 0, cursor := BitVec.allOnes 64, ms := msMiss } r.pts)))
          ∧ (o.kind = 5 → m.desc.clearing = false → m.desc.splitting = false → becomes (s.setKmap r.region { m with desc := {
              m.desc with clearing := true, splits := 0, forwards := 0, combined := 0, refused := 0, fulls := 0 } }))
          ∧ (o.kind = 5 → m.desc.clearing = true →
            let z := s0.clearMap r.region r.pts
            becomes (z.1.passOn d r { val := BitVec.ofNat 64 m.desc.entries, ms := msHit } z.2.2)
            ∧ ∀ n, (z.1.kmap? r.region = some n → n.groups = [] ∧ n.desc.entries = 0 ∧ n.desc.level = m.desc.level0 ∧ n.desc.s = 0
                ∧ n.desc.clearing = false ∧ n.desc.splitting = false ∧ n.desc.refused = m.desc.refused ∧ n.desc.wts = z.2.2))))
    ∧ (∀ (s : State) d r a ts, let r' := { r with done := r.done ++ [a], ts := max r.ts ts, ops := r.ops.tail }
        s.passOn d r a ts = (if r.ops.tail = [] then s.answerMap r' d else s.enqueueMap r')
        ∧ (r.blocking = true → s.awaits r.who = true → s.routed d (s.standsOn r.who) = true → let s1 := (s.as r.who).count 7
            s.answerMap r' d = s1.land (s1.mapEff r.shape r.eff r'.done r'.ts))
        ∧ (∀ c k num n, r.who = .slot c k → r.shape = .posted num n → k < 16 → let t := s.answerMap r' d
            aget (t.slot c k).posted n = some (max ((aget (s.slot c k).posted n).getD 0) r'.ts)
            ∧ t.posted = s.posted.filter fun p => !(p.core == c && p.num == num)))
    ∧ (∀ (s : State) i p m, s.posted[i]? = some p → s.kmap? p.region = some m → s.condsDone p.conds = true → p.queued = false →
        s.routed (devOf p.core) (m.agentOf p.grp p.op / 128) = true →
        let a := m.agentOf p.grp p.op; let r := p.req (s.afterConds p.pts p.conds); let y := s.carry p.region p.op mostForwards p.grp r.pts

        (∀ q ∈ s.posted.take i, ¬(q.core = p.core ∧ q.slot = p.slot ∧ q.region = p.region ∧ q.op.key = p.op.key ∧ s.standsAt a q = false)) →
        let later := fun (t : State) (r : MapReq) =>
          exec (.postedUpsertApply i) s = .next { t.popDefer.enqueueMap r with posted := s.posted.set i { p with queued := true } }
        (s.deferNow ≠ 2 → y.2.2.2 = true → let x := y.1.serveOp p.region y.2.1 r.pts p.op false (y.1.mapBusy p.region)
          exec (.postedUpsertApply i) s = .next (x.1.popDefer.passOn (a / 128) r x.2.1 x.2.2))
        ∧ (s.deferNow ≠ 2 → y.2.2.2 = false → later y.1 { r with ops := [(y.2.1, p.op)] })
        ∧ (s.deferNow = 2 → later s r)
        ∧ ((s.fold a).agentQ = [] → m.next p.grp p.op m.desc.clearing = p.grp → m.desc.clearing = true ∨ s.mapHeld m p.grp p.op = false →
          y = (s, p.grp, r.pts, true))
        ∧ ((s.fold a).agentQ ≠ [] → y = (s, p.grp, r.pts, false)))
    ∧ (∀ (s : State) i region asker m, s.splitReqs[i]? = some (region, asker) → s.kmap? region = some m → s.routed (m.agent asker / 128) (m.descAgent / 128) = true → m.desc.splitting = false → m.desc.clearing = false →
        m.desc.threshold ≠ 0 → m.desc.count < m.desc.maxgroups → 128 + 512 * (m.desc.count + 1) ≤ 64 * m.lowest →
        exec (.splitRequest i) s = .next (State.setKmap { s with splitReqs := dropAt s.splitReqs i } region { m with desc := { m.desc with splitting := true } }))
    ∧ (∀ (s : State) region m, s.kmap? region = some m → m.desc.splitting = true → s.splitRouted m = true →
        (m.splitMade = false → (∀ ln ∈ m.lines m.desc.s, s.dev.poisoned.contains ln = false) → exec (.split region) s =
          .next (((s.setKmap region m.split).noteTs (m.agent m.desc.s) (m.split.group m.desc.s).rts).noteTs (m.split.agent m.desc.count) (m.split.group m.desc.s).rts))
        ∧ (m.splitMade = true → exec (.splitPublication region) s = .next ((s.setKmap region { m with desc := m.desc.advance }).publish region)))
    ∧ ∀ (s : State) f l n e m u rest, (s.fold f).launch = some l → aget (s.fold f).maps n = some e → s.kmap? e.region = some m →
        takeStale f l n m.stale = some (u, rest) → s.routed (m.descAgent / 128) (f / 128) = true →
        exec (.mapCopyUpdate f l n) s = .next ((s.setKmap e.region { m with stale := rest }).setFold f
          { s.fold f with maps := aset (s.fold f).maps n { e with level := u.1, s := u.2 } })

/-- A split gives each entry of its group to the half its hash names, and leaves every other group (R253, R259). -/
def Obligations.ASplitDividesItsGroup : Prop :=
  ∀ m : KMap, let d := m.desc; let gNew := d.count; d.s ≠ gNew →
    (m.split.group d.s).entries = (m.group d.s).entries.filter (fun e => !(d.hashOf e.1).testBit d.level)
    ∧ (m.split.group gNew).entries = (m.group d.s).entries.filter (fun e => (d.hashOf e.1).testBit d.level)
    ∧ (m.split.group d.s).entries.length + (m.split.group gNew).entries.length = (m.group d.s).entries.length
    ∧ (m.split.group d.s).wts = (m.group d.s).rts + 1 ∧ (m.split.group gNew).wts = (m.group d.s).rts + 1
    ∧ (m.split.group d.s).level = d.level + 1 ∧ (m.split.group gNew).level = d.level + 1
    ∧ ∀ g, g ≠ d.s → g ≠ gNew → m.split.group g = m.group g

/-- MESSAGE_ARRIVAL, GATEWAY_RELAY, QUEUE_REQUEST_SERVICE and CAPSULE_DELIVERY take effect (R287, R294, R295, R298, R302,
R305, R308, R309, R319, R320). -/
def Obligations.MessagesQueuesAndCapsulesMove : Prop :=
  (∀ (s : State) i f, s.msgs[i]? = some f → s.wayOpen f.sender f.core = true →
      (f.sender = none → ∀ g ∈ s.msgs.take i, ¬(g.sender = none ∧ g.core = f.core)) → exec (.messageArrival i) s = .next (State.arrive { s with msgs := dropAt s.msgs i } f)
      ∧ ((s.core f.core).saved = false → (s.core f.core).inbox.length < 32 → (s.core f.core).heldMsgs = [] → s.inboxBad f.core = none →
        let s2 : State := { s with msgs := dropAt s.msgs i }
        exec (.messageArrival i) s = .next ((s2.setCore f.core ((s2.core f.core).enterInbox f.msg false)).answerStatus f.core f.sender 0)))
    ∧ (∀ (s : State) i m ms, s.far[i]? = none → s.env.far = m :: ms →
        exec (.gatewayRelay i) s = .next { s with far := s.far ++ [m], env := { s.env with far := ms } })
    ∧ (∀ (s : State) i m, s.far[i]? = some m → (∀ q ∈ s.far.take i, ¬(q.commons = m.commons ∧ q.core = m.core)) →
        let s2 : State := { s with far := dropAt s.far i }
        (m.commons = s.dev.commons → s.isCompute m.core = true ∨ s.isGateway m.core = true →
          exec (.gatewayRelay i) s = .next { s2 with msgs := s2.msgs ++ [{ core := m.core, msg := m.msg, sender := none }] })
        ∧ (m.commons ≠ s.dev.commons → (s.dev.links.any fun l => l.2.route != 0 && l.2.commons != s.dev.commons) = true →
          exec (.gatewayRelay i) s = .next { s2 with dev := { s2.dev with farOut := s2.dev.farOut ++ [m] } }))
    ∧ (∀ (s : State) f r rs, (s.fold f).qctlQ = r :: rs → let s2 := s.setFold f { s.fold f with qctlQ := rs }
        s2.awaits r.who = true →
        let served := s2.serveQueue r.who (s2.as r.who).myCore r.pts r.eff r.op
        (∀ s3 a, served = .answer s3 a → exec (.queueRequestService f) s = .next (s3.complete (f / 128) r.who (a.eff r.eff)))
        ∧ (∀ s3, served = .waits s3 → exec (.queueRequestService f) s = .next s3)
        ∧ (served = .again → exec (.queueRequestService f) s = .next
            { s.setFold f { s.fold f with qctlQ := s.passed r rs false } with env := { s.env with walk := s.env.walk.tail } })
        ∧ (served = .noRoom → exec (.queueRequestService f) s = .next (s.setFold f { s.fold f with qctlQ := s.passed r rs true }))
        ∧ (∀ claims, s.passed r rs claims = (rs.filter fun q => !(s.sameQueue r q && (!claims || q.op.isClaim))) ++ r ::
            rs.filter fun q => s.sameQueue r q && (!claims || q.op.isClaim))
        ∧ (∀ g, served = .fault g → exec (.queueRequestService f) s = .next ((s2.as r.who).fail g))
        ∧ (∀ s3 fi op pts, served = .onward s3 fi op pts → exec (.queueRequestService f) s = .next (s3.enqueue fi { r with op := op, pts := pts })))
    ∧ ∀ (s : State) i ln j l x c b, transitAt s.dev.launches i = some (ln, j) → s.launch? ln = some l → l.transit[j]? = some x →
        s.inStore x = true → (∀ y ∈ l.transit.take j, y.place ≠ x.place ∨ s.inStore y = false) → s.taker ln l x = some c →
        (s.core c).freeBay = some b → s.bayBad c = none →

        let s2 := s.setLaunch ln { l with transit := dropAt l.transit j }
        let cursors := match x.place with
          | .core _ => s.dev.placeCursors
          | p => aset s.dev.placeCursors (placeKey p) c
        let s3 : State := { s2 with dev := { s2.dev with placeCursors := cursors } }
        exec (.capsuleDelivery i) s = .next (s3.setCore c ((s3.core c).deliver b x l.handlers))

/-- The events of the channel cores take effect (R274, R275, R276, R277, R278, R279, R280, R281, R282, R284, R367). The
model’s own choices in it: which line a full slice gives up (log entry 8), which registers and values travel with
XMIG, come home, and which free context takes a thread (log entry 43). -/
def Obligations.ContextsAndPacketsMove : Prop :=
  (∀ (s : State) c k ch i a b m, (s.slot c k).shipTo = some ch → (s.slot c k).reloc = some (a, b, m) →
      s.routed (devOf c) (ch / 256) = true → (s.chan ch).freeCtx = some i →
      let takes := fun (u : Slot) (val : Nat → Word) => ∃ s2 x, exec (.contextTake c k) s = .next s2 ∧ aget (s2.chan ch).ctxs i = some x
        ∧ x.core = c ∧ x.slot = k ∧ x.live = m ∧ x.thread.pc = u.pc ∧ x.thread.pts = u.pts ∧ x.thread.flags = (u.setFollow false).flags
        ∧ x.fault = none ∧ x.returning = false ∧ ∀ r < 64, x.thread.gr r = if liveReg m r = true then val r else 0
      (∀ e, (s.slot c k).reply = some e → (∀ w ∈ e.writes, ∀ n, w.reg? = some n → liveReg m n = true) →
        takes (((s.as (.slot c k)).commit { e with writes := [] }).slot c k) (shippedReg e.writes))
      ∧ ((s.slot c k).reply = none → takes (s.slot c k) (s.slot c k).gr))
    ∧ (∀ (s : State) c k (e : Eff), k < 16 → (s.slot c k).stopReq = false → e.pops = [] → e.ended = false →
        let t := s.slot c k; let u := ((s.as (.slot c k)).commit { e with writes := [] }).slot c k
        (e.pc = none → u.pc = succPc t.pc 1) ∧ u.pts = max t.pts e.pts
        ∧ ∀ m r, r < 48 → liveReg m r = true → shippedReg (t.liveValues m) r = (t.read r).setWidth 64)
    ∧ (∀ (s : State) ch i x, aget (s.chan ch).ctxs i = some x → s.routed (ch / 256) (devOf x.core) = true →
        (x.returning = true → s.ctxHolds ch i x .packets = true → let s2 := s.freeCtx ch i; let t := (s2.slot x.core x.slot).landed x.thread x.live
          let s3 := s2.setSlot x.core x.slot { t with
            pc := succPc x.thread.pc 1, flags := homeFlags t.flags x.thread.flags,
            pts := max (max t.pts x.thread.pts) t.near, st := if t.stopReq then .stopped else .runnable, stopReq := false, wait := none,
            again := none, wakeAt := s2.ac + 1, reloc := none }
          exec (.xretArrival ch i) s = .next (if t.stopReq then s3.dropFollowers x.core x.slot else s3))
        ∧ (∀ f, x.fault = some f → let s2 := s.freeCtx ch i; let t := (s2.slot x.core x.slot).landed x.thread x.live
          exec (.contextFaultBack ch i) s = .next ((s2.setSlot x.core x.slot { t with
            pc := x.thread.pc, flags := homeFlags t.flags x.thread.flags,
            pts := max t.pts x.thread.pts, reloc := some (ch, i, x.live) }).faultSlot x.core x.slot f 4 (BitVec.ofNat 64 (ch % 256)))))
    ∧ (∀ (s : State) i p, s.packets[i]? = some p → s.condsDone p.conds = true → s.placeReady (devOf p.core) (.mem p.pa) = true →
        (∀ q ∈ s.packets.take i, ¬(q.core = p.core ∧ q.slot = p.slot ∧ q.pa = p.pa)) →
        let s2 : State := { s with packets := dropAt s.packets i }; let ch := channelPa p.pa; let x := s.chan ch
        ((∀ l ∈ x.locks, l.1 ≠ rowPa p.pa) → exec (.nearPacketApply i) s = .next (s2.applyPacket p))
        ∧ ((∃ l ∈ x.locks, l.1 = rowPa p.pa) → exec (.nearPacketApply i) s = .next
            (if x.deferred.length < 32 then s2.setChan ch { x with deferred := x.deferred ++ [p] } else s)))
    ∧ (∀ (s : State) ln, let f := s.fold (homeFold ln)
        (∀ x, aget f.lines ln = some x →
          exec (.lineEviction ln) s = .next (s.setFold (homeFold ln) { f with lines := adel f.lines ln, evict := max f.evict x.rts }))
        ∧ (aget f.lines ln = none → exec (.channelEvictionNotice ln) s = .next (s.setPresent ln false))
        ∧ (aget f.lines ln = none → s.paOk (64 * ln) = true → let m := (s.tsAt (.mem (64 * ln))).1
          exec (.channelFill ln) s = .next ((s.setFold (homeFold ln)
            (Fold.spill { f with lines := aset f.lines ln ⟨m, m, false⟩, greatest := max f.greatest m } ln)).setPresent ln true)))
    ∧ (∀ (f : Fold) ln, (f.lines.length ≤ f.room → f.spill ln = f)
        ∧ ∀ x, f.room < f.lines.length → f.lines.find? (fun y => y.1 != ln) = some x →
          f.spill ln = { f with lines := adel f.lines x.1, evict := max f.evict x.2.rts })
    ∧ ∀ (s : State) ch w y, aget (s.chan ch).windows w = some y → y.arrived = false →
        (∀ ln ∈ y.src, s.dev.poisoned.contains ln = false ∧ s.routed (ch / 256) (64 * ln / 2 ^ 39) = true) →
        let r := s.overlayLines 0 y.src
        exec (.overlayLineArrival ch w) s = .next (r.1.setChan ch { s.chan ch with
          windows := aset (s.chan ch).windows w { y with arrived := true, lines := r.2 } })

/-- TIMER_EXPIRY, SHEPHERD_FAULT_ESCALATION, SYSC_REPLY and the host’s events take effect (R359, R375, R376, R386, R390,
R391, R392, R393, R394, R403). The model’s own choices in it: what system core 0 answers with and for what a call
waits (log entry 52), and that host accesses behind a held one are held too (log entry 54). -/
def Obligations.TimersCallsAndTheHostTakeEffect : Prop :=
  ((∀ (s : State) c, (s.core c).expired = true → (s.core c).saved = false → s.expiryHeld c = none → exec (.timerExpiry c) s = .next (s.setCore c (s.core c).expire))
      ∧ (∀ (s : State) c, (s.core c).escal ≠ [] →
          ((s.core c).saved = true → exec (.shepherdFaultEscalation c) s = .next (s.enterExceptions c (s.core c).escal))
          ∧ ((s.core c).saved = false → s.quietCore c = true →
            exec (.shepherdFaultEscalation c) s = .next ((s.saveCore c).enterExceptions c (s.core c).escal))
          ∧ ((s.core c).saved = false → s.quietCore c = false → exec (.shepherdFaultEscalation c) s = .next (s.spillHeld c)))
      ∧ ∀ (s : State) i r, s.sysc[i]? = some r →
          let s2 : State := { s with sysc := dropAt s.sysc i }; let pts := ((s.dev.sysThreads[0]?).getD Slot.initial).pts
          let replies := fun (t : State) v ts pages => exec (.syscReply i) s = .next
            (State.complete { t with env := { t.env with pages := t.env.pages ++ pages } } t.dev.devnum r.who { r.eff with writes := r.eff.writes ++ wrS r.d v, pts := max r.eff.pts ts })
          (∀ v, r.result = some v → s.condsDone r.conds = true → replies s2 v pts r.pages)
          ∧ (r.result = none → let q := (s2.takeSysc r).residentCall r pts
            (∀ v ts cs pages, q.2 = .value v ts cs pages →
              let s3 := q.1.setResidentPts ts
              (s3.condsDone cs = true → replies s3 v ts pages)
              ∧ (s3.condsDone cs = false → exec (.syscReply i) s =
                .next { s3 with sysc := s3.sysc ++ [{ r with result := some v, conds := cs, pages := pages }] }))
            ∧ (q.2 = .never → exec (.syscReply i) s = .next q.1)
            ∧ (q.2 = .later → exec (.syscReply i) s = .next s)))
  ∧ ((∀ (s : State) off bytes, (s.hostReady off bytes.length = true → exec (.hostWrite off bytes) s = .next
          ((barParts off bytes.length).foldl (fun s p => s.hostStore p.1 p.2 (natOf ((bytes.drop (p.1 - off)).take p.2))) s))
        ∧ (s.hostReady off bytes.length = false →
          exec (.hostWrite off bytes) s = .next (s.holdHost { off := off, data := some bytes, n := bytes.length })
          ∧ exec (.hostRead off bytes.length) s = .next (s.holdHost { off := off, data := none, n := bytes.length })))
      ∧ (∀ (s : State) off n, s.hostReady off n = true → ∃ s2 bs, exec (.hostRead off n) s = .next s2 ∧ s2.dev.hostReads = s.dev.hostReads ++ [bs]
          ∧ bs = (barParts off n).flatMap fun p => match s.hostPa p.1 with
            | some pa => bytesOf p.2 (s.mem.readNat pa p.2)
            | none => List.replicate p.2 0xFF)
      ∧ ∀ (s : State) (v : BitVec 64), let x := v.toNat
          let good := x / 2 ^ 47 = 0 ∧ x / 2 ^ 39 % 256 = s.dev.devnum ∧ x / 2 ^ 36 % 8 < s.part.pastures ∧ x % 2 ^ 36 = 0
          (good → exec (.winbaseWrite v) s = .next { s with dev := { s.dev with winbase := v } } ∧ exec (.registerBarWrite 0x18 v) s = exec (.winbaseWrite v) s)
          ∧ (¬good → exec (.winbaseWrite v) s = .next s) ∧ ∀ off, off ≠ 0x18 → exec (.registerBarWrite off v) s = .next s)

/-- The events of launches and modules take effect (R16, R17, R18, R20, R21, R23, R289, R290, R291, R292, R353). The
launch number given is the model’s own choice (log entry 87). -/
def Obligations.LaunchesAdvance : Prop :=
  (∀ (s : State) i r, s.dev.rings[i]? = some r → s.dev.stage = 4 → s.dev.errcode = 0 → s.dev.removed = false → s.dev.poisoned = [] →
      let head := s.mem.readNat r.hdr 8; let tail := s.mem.readNat (r.hdr + 8) 8; let size := s.mem.readNat (r.hdr + 16) 4
      let a := r.hdr + 64 + 64 * (head % size); let d := s.mem.readNat a 64; let n := s.unusedFrom (s.dev.launches.length + 1) s.dev.nextLaunch
      head ≠ tail → size ≠ 0 → imgGet d 17 1 = 1 → s.pendingOf (8 * s.dev.devnum + r.pasture) < 64 → s.ringWaits r.pasture i = false →
      ∃ s2 l, exec (.launchRecordTake i) s = .next s2 ∧ s2.launch? n = some l ∧ l.prio = imgGet d 16 1 ∧ l.recAddr = a ∧ l.ring = i
        ∧ (l.st = .queued ∨ l.st = .retired ∧ l.status = 3)
        ∧ (l.st = .retired ↔ s.refuses (imgGet d 16 1) (imgGet d 18 1) (BitVec.ofNat 64 (imgGet d 8 8)) (s.readTable r.root (imgGet d 0 8) 128) (s.moduleOf r.root (imgGet d 0 8)) = true)
        ∧ aget s2.dev.ringTurn r.pasture = some i
        ∧ (l.st = .queued ∨ imgGet d 8 8 = 0 → s2.mem.readNat r.hdr 8 = (head + 1) % 2 ^ 64 ∧ s2.mem.readNat (a + 17) 1 = 0)
        ∧ (l.st = .retired → imgGet d 8 8 = 0 → s2.mem.readNat (r.hdr + 24) 8 = (s.mem.readNat (r.hdr + 24) 8 + 1) % 2 ^ 64))
    ∧ (∀ (s : State) n l, s.launch? n = some l →
        (l.st = .queued → l.prio < 3 → l.raisedAt + 2 ^ 24 ≤ s.ac →
          exec (.launchPriorityRaise n) s = .next (s.setLaunch n { l with prio := l.prio + 1, raisedAt := s.ac }))
        ∧ (s.mayPlace n l = true →
          let got := ((s.candidates l).filter fun f => (s.fold f).launch.isNone).take (l.desc.folds - l.gathered.length)
          let s2 := got.foldl (fun s f => s.setFold f { s.fold f with launch := some n }) s
          let l2 : Launch := { l with st := .placing, gathered := l.gathered ++ got }
          (l2.gathered.length < l.desc.folds → exec (.launchPlacement n) s = .next (s2.setLaunch n l2))
          ∧ (l.desc.folds ≤ l2.gathered.length → s.dev.poisoned = [] → exec (.launchPlacement n) s = .next (match l.released with
            | none => s2.placeFresh n l2
            | some was => s2.placeAgain n l2 was)))
        ∧ (l.st = .retiring ∨ l.st = .running ∧ ((coresOfPlacement l.folds l.desc.cores).all fun c => (s.slot c 0).st == .ended) = true →
          let s2 := (s.freeLocks n).setLaunch n { l with st := .retiring }
          exec (.launchRetirement n) s = .next (if s2.drained l && !s2.retHeld l then s2.finishLaunch n l.status else s2))
        ∧ (∀ st, (l.st = .queued → exec (.launchAbort n st) s = .next (if s.retHeld l
              then s.setLaunch n { l with st := .retiring, status := 1, aborted := true } else s.finishLaunch n 1))
          ∧ (l.st = .running ∨ l.st = .placing ∨ l.st = .preempted ∨ l.st = .retiring → l.aborted = false → let x := if st = 2 ∧ l.st = .running then 2 else 1; let s2 := s.abandonWork n l
            let s3 := s2.setLaunch n { (s2.launch? n).getD l with st := .retiring, status := x }
            exec (.launchAbort n st) s = .next (if s3.drained l && !s3.retHeld l then s3.finishLaunch n x else s3))
          ∧ (l.st ≠ .queued ∧ l.aborted = true ∨ l.st = .retired → exec (.launchAbort n st) s = .next s)))
    ∧ ∀ (s : State) m, (s.moduleAt m).st = 2 → (s.moduleAt m).use = 0 →
        exec (.moduleFree m) s = .next (((s.dropCode (s.moduleAt m).textbase.toNat (s.moduleAt m).textsize.toNat).setModule m {}).answerModul m)

/-- The events of links, spares, errors, reset, update, removal and heat take effect (R367, R394, R396, R397, R398, R399,
R400, R402, R403, R404, R405, R406). The model’s own choices in it: that memory and what flash and fuses hold stand
over a device reset (log entry 1), that a spare core has the register banks of the core it stands for and in what
order over-temperature and removal abort, set ERRCODE and halt (log entry 55), and which lines may be poisoned (log
entry 66). -/
def Obligations.LinksSparesErrorsAndBootTakeEffect : Prop :=
  (∀ s : State,
      (∀ p, exec (.linkBringup p) s = .next { s with dev := s.dev.bringUp s.part.ports p })
      ∧ (∀ p lane l, aget s.dev.links p = some l → let l2 : Link := { l with good := l.good &&& ~~~(BitVec.twoPow 18 lane) }
          exec (.linkLaneFailure p lane) s = .next { s with dev := { s.dev with links := aset s.dev.links p (if l2.width = 0 then l2 else if l2.widthOf = 0 then l2.down else { l2 with width := l2.widthOf }) } })
      ∧ (∀ i m, s.dev.farOut[i]? = some m → (s.dev.links.any fun l => l.2.route != 0 && l.2.width != 0 && l.2.commons != s.dev.commons) = false →
          exec (.linkRequestRetry i) s = .next { s with dev := { s.dev with farOut := dropAt s.dev.farOut i }, far := m :: s.far })
      ∧ (∀ ln, (s.dev.poisoned.contains ln = false →
            (s.cleanCopy ln = false → s.mayPoison ln = true → exec (.uncorrectableDataError ln) s = .next { s with dev := { s.dev with poisoned := ln :: s.dev.poisoned } })
            ∧ (s.cleanCopy ln = true → exec (.uncorrectableDataError ln) s = .next s))
          ∧ (s.dev.poisoned.contains ln = true →
            exec (.uncorrectableDataError ln) s = .next ((s.poisonWaiters ln).eraseDups.foldl (fun s n => s.abortLaunch n 1) s)))
      ∧ (∀ ch row, let n := s.dev.rowCount ch row + 1; let others := s.dev.rowErrors.filter fun x => x.1 != (ch, row); let s1 := s.stackFix (ch / 32)
          (s.dev.rowlimit < n → (∀ l ∈ (s.chan ch).locks, l.1 ≠ row) →
            exec (.hbmRowSpare ch row) s = .next { s1 with dev := { s1.dev with rowErrors := others, sparedRows := (ch, row) :: s.dev.sparedRows } })
          ∧ (n ≤ s.dev.rowlimit ∨ (∃ l ∈ (s.chan ch).locks, l.1 = row) →
            exec (.hbmRowSpare ch row) s = .next { s1 with dev := { s1.dev with rowErrors := ((ch, row), n) :: others } }))
      ∧ (∀ ch, (aget s.dev.laneSpares ch).getD 0 < 2 → exec (.hbmLaneSpare ch) s =
          .next { s with dev := { s.dev with laneSpares := aset s.dev.laneSpares ch ((aget s.dev.laneSpares ch).getD 0 + 1) } })
      ∧ (∀ a, let s1 := s.sramFix a; exec (.sramRowSpare a) s = .next { s1 with dev := { s1.dev with sramSpares := a :: s1.dev.sramSpares } })
      ∧ ∀ c, let f := s.fold (foldOf c)
          s.isCompute c = true → devOf c = s.dev.devnum → f.launch = none → f.spare = none →
          exec (.spareMapping c) s = .next ((s.setFold (foldOf c) { f with spare := some c }).setCore c
            { Core.initial with banks := (s.core c).banks, nslots := popBits 16 (s.core c).banks.toNat }))
  ∧ (∀ s : State,
      (s.dev.keys = 0 → ∃ t, exec .deviceReset s = .next t ∧ t.dev.stage = 15 ∧ t.dev.errcode = 3)
      ∧ (s.dev.keys ≠ 0 → s.dev.bootSlot = none → ∃ t, exec .deviceReset s = .next t ∧ t.dev.stage = 15 ∧ t.dev.errcode = 1)
      ∧ (s.dev.keys ≠ 0 → s.dev.bootSlot ≠ none → s.env.hbmBad = true → ∃ t, exec .deviceReset s = .next t ∧ t.dev.stage = 15 ∧ t.dev.errcode = 2)
      ∧ (s.dev.keys ≠ 0 → s.dev.bootSlot ≠ none → s.env.hbmBad = false →
          ∃ t, exec .deviceReset s = .next t ∧ t.dev.stage = 4 ∧ t.dev.errcode = 0 ∧ t.dev.published = true
            ∧ ∀ a, (∀ r ∈ s.env.rings, a ≠ r.hdr + 20) → t.mem.readNat a 1 = s.mem.readNat a 1)
      ∧ (∀ image keyid ok, let i := 1 - s.dev.activeImage
          (s.dev.keyOk keyid ok = true → exec (.liveFirmwareUpdate image keyid ok) s = .next { s with dev := { s.dev.extend 3 image with
            images := s.dev.images.setIfInBounds i { digest := image, keyid := keyid, sigOk := ok }, activeImage := i } })
          ∧ (s.dev.keyOk keyid ok = false → exec (.liveFirmwareUpdate image keyid ok) s = .next s))
      ∧ (let t := s.abortAll;
          (t.allRetired = true →
            exec .moduleRemoval s = .next { t with dev := { t.dev with links := t.dev.links.map (fun p => (p.1, p.2.down)), removed := true } }
            ∧ exec .overTemperature s = .next { t with dev := t.dev.halt 4 })
          ∧ (t.allRetired = false → exec .moduleRemoval s = .next t
            ∧ exec .overTemperature s = .next { t with dev := { t.dev with errcode := 4 } })))

/-- A PC is a slot address, and its linear number names its line and slot (R65). -/
def Obligations.ProgramCountersNameSlots : Prop :=
  ∀ pc : Word,
    (isSlotAddr pc = true ↔ pc.extractLsb' 3 3 = 0 ∧ (pc.extractLsb' 0 3).toNat ≤ 4 ∧ pc.extractLsb' 57 7 = (if pc.getLsbD 56 then 0x7F else 0))
    ∧ linear pc = (pc >>> 6).toNat * 5 + (pc.extractLsb' 0 3).toNat
    ∧ (∀ n, n < 5 * 2 ^ 58 → ((pcOf n).extractLsb' 6 58).toNat = n / 5 ∧ ((pcOf n).extractLsb' 0 6).toNat = n % 5)
    ∧ (isSlotAddr pc = true → pcOf (linear pc) = pc)

/-- Take and wait-empty act at completion, and not at a fault (R75). -/
def Obligations.TakeAndWaitEmptyActAtCompletion : Prop :=
  (∀ (s : State) c k, s.cur = .slot c k → k < 16 → (s.slot c k).ports = [] →
      (∀ u s1 e, s.prepare u = .ok (s1, e) → ∀ r, r ∈ e.takes ↔ (r, true) ∈ u.reads)
      ∧ (∀ (e : Eff) r, r < 96 → r ∈ e.takes → e.pops = [] → e.late = [] → (∀ w ∈ e.writes, w.reg? ≠ some r) →
          let t := s.slot c k; let u := (s.commit e).slot c k
          (aget t.holders r = none → u.fe.getLsbD r = false)
          ∧ (∀ h, aget t.holders r = some h → u.fe.getLsbD r = true ∧ u.reg r = (if r < 64 then (h.val.setWidth 64).setWidth 2048 else h.val)))
      ∧ (∀ (e : Eff) n x, n < 64 → n ∈ e.takes → e.pops = [] → e.early = [] → e.late = [] → e.writes = [.g n x] →
          let t := s.slot c k; let u := (s.commit e).slot c k
          u.gr n = x ∧ u.fe.getLsbD n = true ∧ aget u.holders n = aget t.holders n)
      ∧ (∀ (e : Eff) n x, n < 32 → 64 + n ∈ e.takes → e.pops = [] → e.early = [] → e.late = [] → e.writes = [.v n x] →
          let t := s.slot c k; let u := (s.commit e).slot c k
          u.vr n = s.vmask x ∧ u.fe.getLsbD (64 + n) = true ∧ aget u.holders (64 + n) = aget t.holders (64 + n))
      ∧ (∀ u : Uses, (∀ r ∈ u.reads, (s.slot c k).fe.getLsbD r.1 = true) →
          ((∃ rs, s.prepare u = .wait (.full rs)) ↔ ∃ r, (r, true) ∈ u.writes ∧ (s.slot c k).fe.getLsbD r = true ∧ (r, true) ∉ u.reads)))
    ∧ ∀ (s : State) f, (∀ c k, let t := s.slot c k; let u := (s.raise f).slot c k
        u.g = t.g ∧ u.v = t.v ∧ u.p = t.p ∧ u.fe = t.fe ∧ u.holders = t.holders)
      ∧ (let t := s.thread; let u := (s.raise f).thread; u.g = t.g ∧ u.p = t.p ∧ u.fe = t.fe)

/-- The shepherd’s instructions fault PRIV from any other slot, and the system cores’ on any other core (R81). -/
def Obligations.RestrictedInstructionsFaultPriv : Prop :=
  ∀ (f : FmtR) (s : State),
    (∀ i ∈ [Instr.tstart f, .tstop f, .treap f, .trd f, .twr f, .tret f, .fdmode f, .plset f, .plinv f, .knew f, .kclr f, .htset f,
        .trset f, .trsetClr f], ∀ c k, s.cur = .slot c k → (∀ v, i.view = some v → v.spec.unit = .none ∨ s.part.full = true) →
      i.check7 s.thread.ety s.part.vw false = none →
      (k ≠ 0 → exec i s = .next (s.raise (stepFault .priv 8 0))) ∧ (k = 0 → ∀ g, s.precheck i = some g → g.code ≠ .priv))
    ∧ (∀ c k, s.cur = .slot c k → ∀ g, s.precheck (.tstat f) = some g → g.code ≠ .priv)
    ∧ (∀ i ∈ [Instr.modld f, .modldDbg f, .modul f, .prmt f, .prmtL f, .resm f, .resmL f, .tlbinvG f],
      (∀ c k, s.cur = .slot c k → i.check7 s.thread.ety s.part.vw false = none → exec i s = .next (s.raise (stepFault .priv 8 0)))
      ∧ (∀ n, s.cur = .sys n → ∀ g, s.precheck i = some g → g.code ≠ .priv))

/-- An instruction that a check refuses faults, and one whose operands are not there parks, with no effect of its own (R6,
R10, R26, R80, R82, R120). -/
def Obligations.ChecksComeBeforeAnyEffect : Prop :=
  ∀ (i : Instr) (v : View) (s : State), i.view = some v →
    (∀ f, s.precheck i = some f → exec i s = .next (s.raise f))
    ∧ (s.precheck i = none → let p := s.prepare (usesOf i s.thread.ety s.part.vw s.isSys)
        (∀ f, p = .bad f → exec i s = .next (s.raise f)) ∧ (∀ w, p = .wait w → exec i s = .next (s.park w)))
    ∧ (v.spec.unit ≠ .none → s.part.full = false → exec i s = .next (s.raise (stepFault .unitAbsent 6 0)))

/-- Every step answers a next state, but for a halted device that nothing from outside moves (R6, R394, R396, R406). -/
def Obligations.EveryStepAnswers : Prop :=
  (∀ (i : Instr) s, ∃ t, exec i s = .next t)
    ∧ ∀ s : State, (s.agenda ≠ [] ∨ s.dev.stage ≠ 15 → ∃ t, step s = .next t) ∧ (s.agenda = [] → s.dev.stage = 15 → step s = .fault .halted)

/-- A slot that faults is FAULTED with its record in the core’s queue, and TRET runs it again from its state (R368, R370,
R371, R373, R374, R375, R131). -/
def Obligations.AFaultIsTakenAndReturnedFrom : Prop :=
  (∀ (s : State) f c k, s.cur = .slot c k → k < 16 → f.brk = false → (s.slot c k).hold = none →
      let t := s.slot c k; let x := s.core c; let u := s.raise f
      let tail := x.scr.readNat frqOff 8; let head := x.scr.readNat (frqOff + 8) 8
      (u.slot c k).st = .faulted ∧ (u.slot c k).again = none ∧ (u.slot c k).vec = none ∧ KeepsSlot t (u.slot c k) ∧ u.mem = s.mem
      ∧ (k ≠ 0 → s.dev.poisoned = [] → tail - head < 16 →
          (u.core c).scr.readNat (frqOff + 64 + 32 * (tail % 16)) 32 = (FaultInfo.toRec f 1 k t.pc false f.info).toNat
          ∧ (u.core c).scr.readNat frqOff 8 = (tail + 1) % 2 ^ 64 ∧ (u.core c).scr.readNat (frqOff + 8) 8 = head
          ∧ (u.slot c 0).ready = true)
      ∧ (k ≠ 0 → s.dev.poisoned = [] → 16 ≤ tail - head →
          (u.core c).scr.readNat (frqOff + 16) 8 = (x.scr.readNat (frqOff + 16) 8 + 1) % 2 ^ 64
          ∧ (u.core c).waitingRecs = x.waitingRecs ++ [FaultInfo.toRec f 1 k t.pc false f.info])
      ∧ (k = 0 → (u.core c).escal = x.escal ++ [FaultInfo.toRec f 5 k t.pc false f.info] ∧ (u.core c).scr = x.scr))
    ∧ ∀ (s : State) c k pts, k < 16 → (s.slot c k).reloc = none →
      let t := s.slot c k; let u := (s.returnSlot c k pts).slot c k
      u.st = .runnable ∧ u.pc = t.pc ∧ u.g = t.g ∧ u.v = t.v ∧ u.p = t.p ∧ u.fe = t.fe ∧ u.flags = t.flags ∧ u.pts = max t.pts pts
      ∧ (s.returnSlot c k pts).mem = s.mem

/-- The branches, scalar and vector instructions of a pair’s classes change nothing but their destinations, takes, sticky
flags and PC (R6, R75, R77, R119, R140, R155, R157). -/
def Obligations.RegisterInstructionsChangeOnlyTheirDestinations : Prop :=
  ∀ (i : Instr) (s : State) c k s1 e t, s.cur = .slot c k → k < 16 → (pairBody i).isSome = true → Ready i s s1 e →
    exec i s = .next t → (t.slot c k).st ≠ .faulted →
    let x := s.slot c k; let y := t.slot c k
    (SlotsOnly c k s t ∨ ∃ pc, branchTarget i s1 = some pc ∧ SlotsOnly c k (s1.targetFetch pc) t)
    ∧ KeepsOthers (usesOf i x.ety s.part.vw false) x y
    ∧ (∀ n < 8, (∀ d, dKind i = some d → opName d ≠ 96 + n) → y.pr n = x.pr n)
    ∧ y.flags.extractLsb' 6 5 = x.flags.extractLsb' 6 5 ∧ y.efmt = x.efmt
    ∧ (x.fillTs = [] → x.ports = [] → x.again = none → y.pts = x.pts)
    ∧ (∀ v, i.view = some v → 0x10 ≤ v.op → v.op ≤ 0x12 → (y.flags ^^^ x.flags) &&& 0x7DD = 0)

/-- Loads change no byte, and stores and atomics only the bytes at their addresses, which then hold the value (R6, R203,
R207, R208, R209, R210, R211, R212, R213, R214). -/
def Obligations.MemoryInstructionsChangeOnlyTheirBytes : Prop :=
  ∀ (f : FmtR) s s1 e, let ty := f.ty.toNat; let n := esize ty; let a := (s1.ea f n).toNat
    let own := fun (i : Instr) (t : State) => ∀ c k, s.cur = .slot c k → k < 16 → let x := s.slot c k; let y := t.slot c k
      KeepsOthers (usesOf i x.ety s.part.vw false) x y ∧ y.p = x.p ∧ y.efmt = x.efmt ∧ y.flags.extractLsb' 0 11 = x.flags.extractLsb' 0 11
    (∀ i ∈ [Instr.ld f, .ldv f, .gth f], Ready i s s1 e → ∀ t, exec i s = .next t → t.thread.st ≠ .faulted →
        KeepsOutsideAll [] 0 s t ∧ own i t)
    ∧ (∀ l, a % n = 0 →
        (Ready (.st f) s s1 e → s1.reach s1.cur a n .store = .ok l → ∃ t, exec (.st f) s = .next t ∧ KeepsOutside l n s t
          ∧ t.peek l n = (s1.rs f.c).toNat % 2 ^ (8 * n) ∧ own (.st f) t)
        ∧ (s1.reach s1.cur a n .atomic = .ok l →
          (Ready (.amo f) s s1 e → ∃ t, exec (.amo f) s = .next t ∧ KeepsOutside l n s t
            ∧ t.peek l n = amoNew (amoOp f) ty (s.peek l n) (s1.rs f.c).toNat % 2 ^ (8 * n) ∧ own (.amo f) t)
          ∧ (Ready (.cas f) s s1 e → ∃ t, exec (.cas f) s = .next t ∧ KeepsOutside l n s t
            ∧ t.peek l n = (if s.peek l n = (s1.rs f.d).toNat % 2 ^ (8 * n) then (s1.rs f.c).toNat % 2 ^ (8 * n) else s.peek l n) ∧ own (.cas f) t)))
    ∧ (∀ ls, s1.unitPlaces (s1.ea f (esize (s1.tyOf f))).toNat (esize (s1.tyOf f)) .store (s1.activeUnits f (esize (s1.tyOf f))) = .ok ls →
        Ready (.stv f) s s1 e → ∃ t, exec (.stv f) s = .next t ∧ KeepsOutsideAll (ls.map (·.2.2)) (esize (s1.tyOf f)) s t ∧ own (.stv f) t)
    ∧ (∀ ls, s1.gatherPlaces f .store = .ok ls →
        Ready (.sct f) s s1 e → ∃ t, exec (.sct f) s = .next t ∧ KeepsOutsideAll (ls.map (·.2.2)) n s t ∧ own (.sct f) t)
    ∧ (∀ ls, a % 32 = 0 → Chk.all (fun i => (s1.reach s1.cur (a + n * i) n .atomic).bind fun l => .ok (i, a + n * i, l))
          ((List.range (32 / n)).filter (s1.active f.pg ty)) = .ok ls →
        Ready (.amov f) s s1 e → ∃ t, exec (.amov f) s = .next t ∧ KeepsOutsideAll (ls.map (·.2.2)) n s t ∧ own (.amov f) t)

/-- A misaligned access faults ALIGN, and one that its page does not permit faults XLATE, PROT or MAP_REGION (R199, R200,
R201, R207, R214, R340, R341, R342, R343, R371). That alignment is judged before canonicity and translation is the
model’s own reading (log entry 11). -/
def Obligations.MemoryAccessesFaultWhereTheyMustNotGo : Prop :=
  ∀ (f : FmtR) s s1 e, let n := esize f.ty.toNat; let a := (s1.ea f n).toNat
    ∀ p ∈ [(Instr.ld f, Acc.load), (.st f, .store), (.amo f, .atomic), (.cas f, .atomic)], Ready p.1 s s1 e →
      (a % n ≠ 0 → exec p.1 s = .next (s.raise (flt .align 0 p.2.code a)))
      ∧ (a % n = 0 → ∀ c k, s1.cur = .slot c k → a < apBase ∨ winBase + 2 ^ 22 ≤ a →
          (canonical a = false → exec p.1 s = .next (s.raise (flt .xlate 0 p.2.code a)))
          ∧ (canonical a = true → s1.translate s1.cur a true = .ok none → exec p.1 s = .next (s.fail (flt .xlate 0 p.2.code a)))
          ∧ (∀ w, canonical a = true → s1.translate s1.cur a true = .wait w → exec p.1 s = .next (s.parkOn w))
          ∧ (∀ l, canonical a = true → s1.translate s1.cur a true = .ok (some l) →
              (l.pte.getLsbD 5 = true → exec p.1 s = .next (s.fail (flt .mapRegion 0 p.2.code a)))
              ∧ (l.pte.getLsbD 5 = false → l.pte.getLsbD 6 = false →
                  (p.2 = .load ∧ l.pte.getLsbD 2 = false) ∨ (p.2 ≠ .load ∧ l.pte.getLsbD 3 = false) →
                  exec p.1 s = .next (s.fail (flt .prot 0 p.2.code a)))))
      ∧ (Ready (.amov f) s s1 e → a % 32 ≠ 0 → exec (.amov f) s = .next (s.raise (flt .align 0 4 a)))

/-- A home gives each store a timestamp above every read before it, and each load a lease (R202, R203, R204, R274). -/
def Obligations.HomesOrderTheirAccesses : Prop :=
  ∀ (s : State) (l : Loc) ts alloc,
    let held := ∀ pa, l = .mem pa → alloc = true ∨ (aget (s.fold (homeFold (pa / 64))).lines (pa / 64)).isSome = true
    (∀ n v, let w := (s.homeWrite l n v ts alloc).2; let t := (s.homeWrite l n v ts alloc).1
      w = max (min ts (s.homeGreatest l + 2 ^ 40)) ((s.tsAt l).2 + 1) ∧ (held → t.tsAt l = (w, w))
      ∧ t.peek l n = v % 2 ^ (8 * n) ∧ KeepsOutside l n s t)
    ∧ (∀ lam, let r := s.homeRead l ts lam alloc
      r.2 = (s.tsAt l).1 ∧ (held → r.1.tsAt l = ((s.tsAt l).1, max (s.tsAt l).2 (min ts (s.homeGreatest l + 2 ^ 40) + (match l with
        | .mem _ => lam
        | .scr .. => 0))))
      ∧ KeepsOutside l 0 s r.1)

/-- Memory reads back what was written, keeps every other byte, and stays in its canonical form (R7, R198, R199). -/
def Obligations.MemoryReadsBackWhatWasWritten : Prop :=
  ∀ (m : Memory) a n v,
    Memory.readNat (Memory.writeNat m a n v) a n = v % 2 ^ (8 * n)
    ∧ (∀ j < n, Memory.get (Memory.writeNat m a n v) (a + j) = BitVec.ofNat 8 (v / 2 ^ (8 * j)))
    ∧ (∀ x, x < a ∨ a + n ≤ x → Memory.get (Memory.writeNat m a n v) x = Memory.get m x)
    ∧ (Memory.wf m = true → Memory.wf (Memory.writeNat m a n v) = true)
    ∧ (∀ m' : Memory, Memory.wf m = true → Memory.wf m' = true → (∀ x, Memory.get m x = Memory.get m' x) → m = m')

/-- A remote fill enters an empty register, is held for a full one, and is refused where one is held (R119, R278). -/
def Obligations.RemoteFillsEnterOnce : Prop :=
  ∀ (t : Slot) r x ts, r < 96 → t.port r = none →
    let reg := fun y : VReg => if r < 64 then (y.setWidth 64).setWidth 2048 else y
    let counts := t.fe.getLsbD r = true ∨ t.awayLive r = true
    (¬counts → ∃ u, t.remoteFill r x ts = some u ∧ u.reg r = reg x ∧ u.fe.getLsbD r = true ∧ aget u.fillTs r = some ts
      ∧ u.holders = t.holders)
    ∧ (counts → aget t.holders r = none → ∃ u, t.remoteFill r x ts = some u ∧ u.reg r = t.reg r ∧ u.fe = t.fe
      ∧ aget u.holders r = some { val := x, ts := ts })
    ∧ (counts → (aget t.holders r).isSome = true → t.remoteFill r x ts = none)
    ∧ (∀ h, aget t.holders r = some h → (t.empty r).reg r = reg h.val ∧ (t.empty r).fe.getLsbD r = true ∧ aget (t.empty r).fillTs r = some h.ts)
    ∧ (aget t.holders r = none → (t.empty r).reg r = t.reg r ∧ (t.empty r).fe.getLsbD r = false)

/-- A step of a wheel runs the instruction or pair that its line holds at the PC (R24, R61, R62, R77, R78, R82, R122). -/
def Obligations.AStepRunsTheDecodedInstruction : Prop :=
  (∀ (l : Line) pc i, lineWordBad l = none → decodeSlot (slotBits l (pc.toNat % 8)) = some i →
      ((pmask l).testBit (pc.toNat % 8) = false → bundleAt l pc = .ok { pc := pc, first := i })
      ∧ (∀ j, (pmask l).testBit (pc.toNat % 8) = true → decodeSlot (slotBits l (pc.toNat % 8 + 1)) = some j →
          pairBad ((slotBits l (pc.toNat % 8)).extractLsb' 88 8).toNat ((slotBits l (pc.toNat % 8 + 1)).extractLsb' 88 8).toNat (some i) (some j) = false →
          bundleAt l pc = .ok { pc := pc, first := i, second := some j }))
    ∧ (∀ (s s2 : State) l, s.thread.subst = none → s.thread.follow = false → isSlotAddr s.thread.pc = true →
        s.fetch s.cur s.thread.pc = (s2, .line l) → s.thread.entry = false ∨ (tmask l).testBit (s.thread.pc.toNat % 8) = true →
        s.bundle = (s2, bundleAt l s.thread.pc))
    ∧ (let runs := fun (s : State) (b : Bundle) (s5 : State) =>
          (b.second = none → b.bad2 = false → ∃ t, exec b.first s5 = .next t ∧ step s = .next (t.afterIssue b))
          ∧ (b.second = none → b.bad2 = true → step s = .next ((s5.runBadPair b.first).afterIssue b))
          ∧ (∀ j, b.second = some j → step s = .next ((s5.runPair b.first j).afterIssue b))
      (∀ (s : State) c k es b s3, s.agenda = .bundleIssue (.core c) :: es → s.coreLive c = true → s.env.gate.headD 0 ≠ 1 →
        let s1 := State.turn { s with agenda := es } c
        rotate 16 (s1.core c).lastSlot (fun k => decide (k < (s1.core c).nslots) && s1.mayIssue c k) = some k →
        let s2 := (s1.setCore c { s1.core c with lastSlot := k }).as (.slot c k)
        let s' := s2.setThread { s2.thread with lastIssue := some s2.ac, wait := none, again := none, peer := none }
        let sa := s'.setCore c (((s'.core c).addFixed 1 1).count 1 k)
        let sb : State := if sa.env.stall.head? = some 0 then { sa with env := { sa.env with stall := sa.env.stall.tail } } else sa
        sb.bundle = (s3, .ok b) → s3.cur = .slot c k →
        let s4 := s3.setThread { s3.thread with entry := b.entryBad }
        runs s b { (if b.second.isSome || b.bad2 then s4.setCore c ((s4.core c).addFixed 2 1) else s4) with issue := none })
      ∧ (∀ (s : State) w es b, s.agenda = .replyArrival w :: es →
        let s1 := State.as { s with agenda := es } w; let t := s1.thread
        s1.replyReady w t = true → t.vec = none → t.reply = none → t.again = some b →
        runs s b { s1.setThread { t with st := .runnable, wait := none } with issue := none }))

/-- The spec’s worked encodings decode to the instructions they stand for, and unassigned ones to none (R61, R69, R70,
R79, R80). -/
def Obligations.WordsOfTheSpecDecode : Prop :=
  (∀ p ∈ [(0x100010000301020000000000, Instr.add { ty := 4, d := 3, a := 1, b := 2 }),
      (0x30004AC042C0410000000000, .vadd { ty := 0x12, pg := 0xB, d := 0x42, a := 0xC0, b := 0x41 }),
      (0x010000000000FFFFFFFFFFF9, .br { disp := (-7) }),
      (0x0A0000010000001000000040, .setsi { mod := 1, imm := 0x1000000040 }),
      (0x10040C020A0B0C0D00000000, .madd { ty := 3, mod := 2, d := 0xA, a := 0xB, b := 0xC, c := 0xD }),
      (0x110800000100FFFFFFC00000, .li { d := 1, imm := 0xFFFFFFC00000 }),
      (0x30034A854441424300000000, .vfma { ty := 0x12, pg := 0xA, mod := 5, d := 0x44, a := 0x41, b := 0x42, c := 0x43 }),
      (0x320040026145460000000000, .vcmp { ty := 0x10, mod := 2, d := 0x61, a := 0x45, b := 0x46 }),
      (0x360048006001020000000000, .plt { ty := 0x12, d := 0x60, a := 1, b := 2 }),
      (0x33024C104841004900000001, .vqnt { ty := 0x13, mod := 0x10, d := 0x48, a := 0x41, c := 0x49, imm := 1 }),
      (0x50004C106A48005000000003, .mma { ty := 0x13, mod := 0x10, d := 0x6A, a := 0x48, c := 0x50, imm := 3 }),
      (0x520000000A01000040000043, .wbld { d := 0xA, a := 1, p1 := 4, imm := 0x43 }),
      (0x600010010401020000000008, .ld { ty := 4, mod := 1, d := 4, a := 1, b := 2, imm := 8 }),
      (0x680000001401020030090000, .cpy { d := 0x14, a := 1, b := 2, p1 := 3, p2 := 9 }),
      (0x72000002100008C81C71C000, .fdadd { mod := 2, drow := 0x10, brow := 8, mrow := 0xC8, dw := 7, aw := 7, bw := 7 }),
      (0x780280100001000200000000, .kupsPost { ty := 0x20, mod := 0x10, a := 1, c := 2 }),
      (0x800210090001020300000008, .xupd { ty := 4, mod := 9, a := 1, b := 2, c := 3, imm := 8 }),
      (0x880000000501004300000007, .send { d := 5, a := 1, c := 0x43, imm := 7 }),
      (0x900500000001000000000009, .capset { a := 1, imm := 9 }),
      (0x980600010500000000000000, .tlbinvL { mod := 1, d := 5 }),
      (0xA00000000500000000000003, .bara { d := 5, imm := 3 }),
      (0x0B0000000001000000000021, .trap { a := 1, imm := 0x21 })], decodeSlot (BitVec.ofNat 96 p.1) = some p.2)
    ∧ (∀ w : Slot96, w.extractLsb' 88 8 = 0x0C ∨ w.extractLsb' 88 8 = 0xFF ∨ (w.extractLsb' 88 8 = 0x10 ∧ w.extractLsb' 80 8 = 0x13) → decodeSlot w = none)

/-- Encoding and decoding agree on every instruction and on every word (R61, R69, R70, R79, R80). -/
def Obligations.EncodingsAreReadBackAndComplete : Prop :=
  (∀ (i : Instr) w, i.wf = true → i.encode = some w → decodeSlot w = some i)
    ∧ (∀ (w : Slot96) i, decodeSlot w = some i → i.wf = true ∧ i.encode = some w)
    ∧ ∀ w : Slot96, decodeSlot w = none ↔ ∀ i : Instr, i.wf = true → i.encode ≠ some w

/-- Every step keeps memory in its canonical form (R7, R198, R199, R340). -/
def Obligations.EveryStepKeepsMemoryCanonical : Prop :=
  ∀ s t : State, Inv s → step s = .next t → Inv t

/-- The state after reset keeps the invariant and is that of a device before its boot (R117, R118, R121, R394, R396). That
memory lists nothing, so that every byte reads 0, and that the lists are empty are the model’s own choice (log entries
2 and 1). -/
def Obligations.ResetLeavesTheDeviceBeforeBoot : Prop :=
  Inv State.reset ∧ State.reset.mem = [] ∧ State.reset.dev.stage = 0 ∧ State.reset.dev.errcode = 0 ∧ State.reset.dev.published = false
    ∧ (∀ c k, (State.reset.slot c k).st = .idle ∧ (State.reset.slot c k).flags = 0 ∧ (State.reset.slot c k).efmt = 0)
    ∧ State.reset.dev.launches = [] ∧ State.reset.kmaps = [] ∧ State.reset.msgs = []
end

