-- ==== Sys2Proof/Laws/Lists.lean ====
section
/-! SUPPORT. Entries of a list by number, and the cores and slots of a state, read after one is set. -/

namespace Sys2Proof.Machine

/-- The entry just set is read back. -/
@[simp] theorem aget_aset_self {α : Type} (l : List (Nat × α)) (k : Nat) (v : α) : aget (aset l k v) k = some v := by
  induction l with
  | nil => simp [aset, aget]
  | cons x l ih =>
    obtain ⟨j, y⟩ := x
    simp only [aset]
    split
    · simp [aget]
    · split
      · simp [aget]
      · rw [aget, if_neg (fun h => by simp_all), ih]

/-- Every other entry stands. -/
theorem aget_aset_ne {α : Type} (l : List (Nat × α)) {j k : Nat} (v : α) (h : j ≠ k) : aget (aset l k v) j = aget l j := by
  induction l with
  | nil => simp [aset, aget, Ne.symm h]
  | cons x l ih =>
    obtain ⟨i, y⟩ := x
    simp only [aset]
    split
    · simp [aget, Ne.symm h]
    · split
      · next e => subst e; simp [aget, Ne.symm h]
      · simp only [aget, ih]

/-- A deleted entry is gone. -/
@[simp] theorem aget_adel_self {α : Type} (l : List (Nat × α)) (k : Nat) : aget (adel l k) k = none := by
  induction l with
  | nil => rfl
  | cons x l ih =>
    obtain ⟨j, y⟩ := x
    by_cases h : j = k
    · simpa [adel, h] using ih
    · simpa [adel, h, aget] using ih

/-- Every other entry stands. -/
theorem aget_adel_ne {α : Type} (l : List (Nat × α)) {j k : Nat} (h : j ≠ k) : aget (adel l k) j = aget l j := by
  induction l with
  | nil => rfl
  | cons x l ih =>
    obtain ⟨i, y⟩ := x
    by_cases hi : i = k
    · subst hi; simpa [adel, aget, Ne.symm h] using ih
    · have : adel ((i, y) :: l) k = (i, y) :: adel l k := by simp [adel, hi]
      rw [this, aget, aget, ih]

/-- A core just set is read back. -/
@[simp] theorem State.core_setCore_self (s : State) (c : Nat) (x : Core) : (s.setCore c x).core c = x := by
  simp [State.core, State.setCore]

/-- Every other core stands. -/
theorem State.core_setCore_ne (s : State) {c d : Nat} (x : Core) (h : d ≠ c) : (s.setCore c x).core d = s.core d := by
  simp [State.core, State.setCore, aget_aset_ne _ _ h]

/-- A slot just set is read back. -/
theorem Core.slot_setSlot_self (c : Core) {k : Nat} (t : Slot) (h : k < 16) : (c.setSlot k t).slot k = t := by
  simp [Core.slot, Core.setSlot, h]

/-- Every other slot stands. -/
theorem Core.slot_setSlot_ne (c : Core) {j k : Nat} (t : Slot) (h : j ≠ k) : (c.setSlot k t).slot j = c.slot j := by
  simp [Core.slot, Core.setSlot, Ne.symm h]

/-- A slot of a state just set is read back. -/
theorem State.slot_setSlot_self (s : State) (c : Nat) {k : Nat} (t : Slot) (h : k < 16) : (s.setSlot c k t).slot c k = t := by
  simp [State.slot, State.setSlot, Core.slot_setSlot_self _ _ h]

/-- Every other slot of the state stands. -/
theorem State.slot_setSlot_ne (s : State) {c d j k : Nat} (t : Slot) (h : d ≠ c ∨ j ≠ k) :
    (s.setSlot c k t).slot d j = s.slot d j := by
  unfold State.slot State.setSlot
  by_cases hd : d = c
  · subst hd
    rw [State.core_setCore_self, Core.slot_setSlot_ne _ _ (h.resolve_left (by simp))]
  · rw [State.core_setCore_ne _ _ hd]

/-- The current thread of a slot. -/
theorem State.thread_slot {s : State} {c k : Nat} (h : s.cur = .slot c k) : s.thread = s.slot c k := by
  simp [State.thread, h]

/-- The current thread of a slot replaced. -/
theorem State.setThread_slot {s : State} {c k : Nat} (t : Slot) (h : s.cur = .slot c k) : s.setThread t = s.setSlot c k t := by
  simp [State.setThread, h]

end Sys2Proof.Machine
end

