-- ==== Sys2Proof/Laws/Memory.lean ====
section
/-! SUPPORT. Bytes read after a write, and the canonical form that every memory operation keeps. -/

namespace Sys2Proof.Machine

/-! ## Reading one byte -/

theorem Memory.get_erase_self (m : Memory) (a : Nat) : Memory.get (Memory.erase m a) a = Memory.blank := by
  induction m with
  | nil => rfl
  | cons x m ih =>
    obtain ⟨b, y⟩ := x
    simp only [Memory.erase]
    split
    · exact ih
    · next h => simp [Memory.get, h, ih]

theorem Memory.get_erase_ne (m : Memory) {a x : Nat} (h : x ≠ a) : Memory.get (Memory.erase m a) x = Memory.get m x := by
  induction m with
  | nil => rfl
  | cons y m ih =>
    obtain ⟨b, y⟩ := y
    simp only [Memory.erase]
    split
    · next e => subst e; simp [Memory.get, Ne.symm h, ih]
    · simp [Memory.get, ih]

theorem Memory.get_insert_self (m : Memory) (a : Nat) (v : Byte) : Memory.get (Memory.insert m a v) a = v := by
  induction m with
  | nil => simp [Memory.insert, Memory.get]
  | cons x m ih =>
    obtain ⟨b, y⟩ := x
    simp only [Memory.insert]
    split
    · simp [Memory.get]
    · split
      · simp [Memory.get]
      · next h => rw [Memory.get, if_neg (Ne.symm h), ih]

theorem Memory.get_insert_ne (m : Memory) {a x : Nat} (v : Byte) (h : x ≠ a) :
    Memory.get (Memory.insert m a v) x = Memory.get m x := by
  induction m with
  | nil => simp [Memory.insert, Memory.get, Ne.symm h]
  | cons y m ih =>
    obtain ⟨b, y⟩ := y
    simp only [Memory.insert]
    split
    · simp [Memory.get, Ne.symm h]
    · split
      · next e => subst e; simp [Memory.get, Ne.symm h]
      · simp [Memory.get, ih]

/-- The byte written is read back. -/
@[simp] theorem Memory.get_put_self (m : Memory) (a : Nat) (v : Byte) : Memory.get (Memory.put m a v) a = v := by
  unfold Memory.put
  split
  · next h => rw [Memory.get_erase_self, h]
  · exact Memory.get_insert_self m a v

/-- Every other byte reads as before. -/
theorem Memory.get_put_ne (m : Memory) {a x : Nat} (v : Byte) (h : x ≠ a) : Memory.get (Memory.put m a v) x = Memory.get m x := by
  unfold Memory.put
  split
  · exact Memory.get_erase_ne m h
  · exact Memory.get_insert_ne m v h

/-! ## Several bytes -/

/-- A byte outside the bytes written reads as before. -/
theorem Memory.get_writeNat_out (m : Memory) (a n v x : Nat) (h : x < a ∨ a + n ≤ x) :
    Memory.get (Memory.writeNat m a n v) x = Memory.get m x := by
  induction n generalizing m a v with
  | zero => rfl
  | succ n ih =>
    rw [Memory.writeNat, ih _ _ _ (by omega), Memory.get_put_ne _ _ (by omega)]

/-- The bytes written are read back, least significant first. -/
theorem Memory.readNat_writeNat (m : Memory) (a n v : Nat) : Memory.readNat (Memory.writeNat m a n v) a n = v % 2 ^ (8 * n) := by
  induction n generalizing m a v with
  | zero => simp [Memory.readNat, Nat.mod_one]
  | succ n ih =>
    rw [Memory.writeNat, Memory.readNat, ih, Memory.get_writeNat_out _ _ _ _ _ (by omega), Memory.get_put_self]
    have h : 2 ^ (8 * (n + 1)) = 256 * 2 ^ (8 * n) := by rw [Nat.mul_succ, Nat.pow_add]; omega
    rw [h, Nat.mod_mul, BitVec.toNat_ofNat]
    omega

/-! ## The canonical form -/

/-- No entry of a memory lies below an address. -/
def Memory.above (a : Nat) : Memory → Bool
  | [] => true
  | (b, _) :: _ => decide (a < b)

/-- The canonical form, entry by entry. -/
theorem Memory.wf_cons (a : Nat) (x : Byte) (m : Memory) :
    Memory.wf ((a, x) :: m) = (x != Memory.blank && Memory.above a m && Memory.wf m) := by
  cases m with
  | nil => simp [Memory.wf, Memory.above]
  | cons y m => obtain ⟨b, z⟩ := y; simp [Memory.wf, Memory.above]

theorem Memory.above_trans {a b : Nat} {m : Memory} (h : a ≤ b) (hm : Memory.above b m = true) : Memory.above a m = true := by
  cases m with
  | nil => rfl
  | cons y m => obtain ⟨c, z⟩ := y; simp [Memory.above] at *; omega

theorem Memory.erase_above {a c : Nat} {m : Memory} (h : Memory.above c m = true) (hw : Memory.wf m = true) :
    Memory.above c (Memory.erase m a) = true := by
  induction m generalizing c with
  | nil => rfl
  | cons y m ih =>
    obtain ⟨b, z⟩ := y
    rw [Memory.wf_cons] at hw
    simp only [Bool.and_eq_true] at hw
    simp only [Memory.erase]
    have hcb : c ≤ b := by simp [Memory.above] at h; omega
    split
    · exact ih (Memory.above_trans hcb hw.1.2) hw.2
    · exact h

theorem Memory.erase_wf {m : Memory} (a : Nat) (h : Memory.wf m = true) : Memory.wf (Memory.erase m a) = true := by
  induction m with
  | nil => rfl
  | cons y m ih =>
    obtain ⟨b, z⟩ := y
    rw [Memory.wf_cons] at h
    simp only [Bool.and_eq_true] at h
    simp only [Memory.erase]
    split
    · exact ih h.2
    · rw [Memory.wf_cons]
      simp only [Bool.and_eq_true]
      exact ⟨⟨h.1.1, Memory.erase_above h.1.2 h.2⟩, ih h.2⟩

theorem Memory.insert_above {a c : Nat} {v : Byte} {m : Memory} (h : Memory.above c m = true) (hc : c < a) :
    Memory.above c (Memory.insert m a v) = true := by
  cases m with
  | nil => simp [Memory.insert, Memory.above, hc]
  | cons y m =>
    obtain ⟨b, z⟩ := y
    simp only [Memory.insert]
    split
    · simp [Memory.above, hc]
    · split
      · simp [Memory.above, hc]
      · simpa [Memory.above] using h

theorem Memory.insert_wf {m : Memory} (a : Nat) {v : Byte} (hv : v ≠ Memory.blank) (h : Memory.wf m = true) :
    Memory.wf (Memory.insert m a v) = true := by
  induction m with
  | nil => simp [Memory.insert, Memory.wf, hv]
  | cons y m ih =>
    obtain ⟨b, z⟩ := y
    have h' := h
    rw [Memory.wf_cons] at h
    simp only [Bool.and_eq_true] at h
    simp only [Memory.insert]
    split
    · next hlt => rw [Memory.wf_cons, h']; simp [hv, Memory.above, hlt]
    · split
      · next e => subst e; rw [Memory.wf_cons]; simp [hv, h.1.2, h.2]
      · rw [Memory.wf_cons]
        simp only [Bool.and_eq_true]
        exact ⟨⟨h.1.1, Memory.insert_above h.1.2 (by omega)⟩, ih h.2⟩

/-- A byte written keeps the canonical form. -/
theorem Memory.put_wf {m : Memory} (a : Nat) (v : Byte) (h : Memory.wf m = true) : Memory.wf (Memory.put m a v) = true := by
  unfold Memory.put
  split
  · exact Memory.erase_wf a h
  · next hv => exact Memory.insert_wf a hv h

/-- So does a write of several. -/
theorem Memory.writeNat_wf {m : Memory} (a n v : Nat) (h : Memory.wf m = true) : Memory.wf (Memory.writeNat m a n v) = true := by
  induction n generalizing m a v with
  | zero => exact h
  | succ n ih => exact ih _ _ (Memory.put_wf a _ h)

/-- So does a part of it kept. -/
theorem Memory.filter_above {c : Nat} {m : Memory} (p : Host.Cell → Bool) (h : Memory.above c m = true) (hw : Memory.wf m = true) :
    Memory.above c (m.filter p) = true := by
  induction m generalizing c with
  | nil => rfl
  | cons y m ih =>
    obtain ⟨b, z⟩ := y
    rw [Memory.wf_cons] at hw
    simp only [Bool.and_eq_true] at hw
    by_cases hp : p (b, z) = true
    · rw [List.filter_cons_of_pos hp]; exact h
    · rw [List.filter_cons_of_neg hp]
      have hcb : c ≤ b := by simp [Memory.above] at h; omega
      exact ih (Memory.above_trans hcb hw.1.2) hw.2

theorem Memory.filter_wf {m : Memory} (p : Host.Cell → Bool) (h : Memory.wf m = true) : Memory.wf (m.filter p) = true := by
  induction m with
  | nil => rfl
  | cons y m ih =>
    obtain ⟨b, z⟩ := y
    rw [Memory.wf_cons] at h
    simp only [Bool.and_eq_true] at h
    by_cases hp : p (b, z) = true
    · rw [List.filter_cons_of_pos hp, Memory.wf_cons]
      simp only [Bool.and_eq_true]
      exact ⟨⟨h.1.1, Memory.filter_above p h.1.2 h.2⟩, ih h.2⟩
    · rw [List.filter_cons_of_neg hp]; exact ih h.2

/-- The memory of the state after reset stands in canonical form. -/
theorem reset_mem_wf : Memory.wf State.reset.mem = true := rfl

end Sys2Proof.Machine
end

