-- ==== Sys2Proof/Laws/State.lean ====
section
/-! SUPPORT. What each update of the state leaves alone: one lemma per field of `State` and update, so that no proof unfolds a
record update. -/

namespace Sys2Proof.Machine

/-! ## `State.setCore` -/

@[simp] theorem State.setCore_part (s : State) (c : Nat) (x : Core) : (s.setCore c x).part = s.part := rfl
@[simp] theorem State.setCore_cores (s : State) (c : Nat) (x : Core) : (s.setCore c x).cores = aset s.cores c x := rfl
@[simp] theorem State.setCore_folds (s : State) (c : Nat) (x : Core) : (s.setCore c x).folds = s.folds := rfl
@[simp] theorem State.setCore_dies (s : State) (c : Nat) (x : Core) : (s.setCore c x).dies = s.dies := rfl
@[simp] theorem State.setCore_channels (s : State) (c : Nat) (x : Core) : (s.setCore c x).channels = s.channels := rfl
@[simp] theorem State.setCore_dev (s : State) (c : Nat) (x : Core) : (s.setCore c x).dev = s.dev := rfl
@[simp] theorem State.setCore_mem (s : State) (c : Nat) (x : Core) : (s.setCore c x).mem = s.mem := rfl
@[simp] theorem State.setCore_kmaps (s : State) (c : Nat) (x : Core) : (s.setCore c x).kmaps = s.kmaps := rfl
@[simp] theorem State.setCore_splitReqs (s : State) (c : Nat) (x : Core) : (s.setCore c x).splitReqs = s.splitReqs := rfl
@[simp] theorem State.setCore_posted (s : State) (c : Nat) (x : Core) : (s.setCore c x).posted = s.posted := rfl
@[simp] theorem State.setCore_chain (s : State) (c : Nat) (x : Core) : (s.setCore c x).chain = s.chain := rfl
@[simp] theorem State.setCore_packets (s : State) (c : Nat) (x : Core) : (s.setCore c x).packets = s.packets := rfl
@[simp] theorem State.setCore_fills (s : State) (c : Nat) (x : Core) : (s.setCore c x).fills = s.fills := rfl
@[simp] theorem State.setCore_msgs (s : State) (c : Nat) (x : Core) : (s.setCore c x).msgs = s.msgs := rfl
@[simp] theorem State.setCore_far (s : State) (c : Nat) (x : Core) : (s.setCore c x).far = s.far := rfl
@[simp] theorem State.setCore_sysc (s : State) (c : Nat) (x : Core) : (s.setCore c x).sysc = s.sysc := rfl
@[simp] theorem State.setCore_cur (s : State) (c : Nat) (x : Core) : (s.setCore c x).cur = s.cur := rfl
@[simp] theorem State.setCore_issue (s : State) (c : Nat) (x : Core) : (s.setCore c x).issue = s.issue := rfl
@[simp] theorem State.setCore_ac (s : State) (c : Nat) (x : Core) : (s.setCore c x).ac = s.ac := rfl
@[simp] theorem State.setCore_agenda (s : State) (c : Nat) (x : Core) : (s.setCore c x).agenda = s.agenda := rfl
@[simp] theorem State.setCore_env (s : State) (c : Nat) (x : Core) : (s.setCore c x).env = s.env := rfl

/-! ## `State.setFold` -/

@[simp] theorem State.setFold_part (s : State) (f : Nat) (x : Fold) : (s.setFold f x).part = s.part := rfl
@[simp] theorem State.setFold_cores (s : State) (f : Nat) (x : Fold) : (s.setFold f x).cores = s.cores := rfl
@[simp] theorem State.setFold_folds (s : State) (f : Nat) (x : Fold) : (s.setFold f x).folds = aset s.folds f x := rfl
@[simp] theorem State.setFold_dies (s : State) (f : Nat) (x : Fold) : (s.setFold f x).dies = s.dies := rfl
@[simp] theorem State.setFold_channels (s : State) (f : Nat) (x : Fold) : (s.setFold f x).channels = s.channels := rfl
@[simp] theorem State.setFold_dev (s : State) (f : Nat) (x : Fold) : (s.setFold f x).dev = s.dev := rfl
@[simp] theorem State.setFold_mem (s : State) (f : Nat) (x : Fold) : (s.setFold f x).mem = s.mem := rfl
@[simp] theorem State.setFold_kmaps (s : State) (f : Nat) (x : Fold) : (s.setFold f x).kmaps = s.kmaps := rfl
@[simp] theorem State.setFold_splitReqs (s : State) (f : Nat) (x : Fold) : (s.setFold f x).splitReqs = s.splitReqs := rfl
@[simp] theorem State.setFold_posted (s : State) (f : Nat) (x : Fold) : (s.setFold f x).posted = s.posted := rfl
@[simp] theorem State.setFold_chain (s : State) (f : Nat) (x : Fold) : (s.setFold f x).chain = s.chain := rfl
@[simp] theorem State.setFold_packets (s : State) (f : Nat) (x : Fold) : (s.setFold f x).packets = s.packets := rfl
@[simp] theorem State.setFold_fills (s : State) (f : Nat) (x : Fold) : (s.setFold f x).fills = s.fills := rfl
@[simp] theorem State.setFold_msgs (s : State) (f : Nat) (x : Fold) : (s.setFold f x).msgs = s.msgs := rfl
@[simp] theorem State.setFold_far (s : State) (f : Nat) (x : Fold) : (s.setFold f x).far = s.far := rfl
@[simp] theorem State.setFold_sysc (s : State) (f : Nat) (x : Fold) : (s.setFold f x).sysc = s.sysc := rfl
@[simp] theorem State.setFold_cur (s : State) (f : Nat) (x : Fold) : (s.setFold f x).cur = s.cur := rfl
@[simp] theorem State.setFold_issue (s : State) (f : Nat) (x : Fold) : (s.setFold f x).issue = s.issue := rfl
@[simp] theorem State.setFold_ac (s : State) (f : Nat) (x : Fold) : (s.setFold f x).ac = s.ac := rfl
@[simp] theorem State.setFold_agenda (s : State) (f : Nat) (x : Fold) : (s.setFold f x).agenda = s.agenda := rfl
@[simp] theorem State.setFold_env (s : State) (f : Nat) (x : Fold) : (s.setFold f x).env = s.env := rfl

/-! ## `State.setDie` -/

@[simp] theorem State.setDie_part (s : State) (d : Nat) (x : Die) : (s.setDie d x).part = s.part := rfl
@[simp] theorem State.setDie_cores (s : State) (d : Nat) (x : Die) : (s.setDie d x).cores = s.cores := rfl
@[simp] theorem State.setDie_folds (s : State) (d : Nat) (x : Die) : (s.setDie d x).folds = s.folds := rfl
@[simp] theorem State.setDie_dies (s : State) (d : Nat) (x : Die) : (s.setDie d x).dies = aset s.dies d x := rfl
@[simp] theorem State.setDie_channels (s : State) (d : Nat) (x : Die) : (s.setDie d x).channels = s.channels := rfl
@[simp] theorem State.setDie_dev (s : State) (d : Nat) (x : Die) : (s.setDie d x).dev = s.dev := rfl
@[simp] theorem State.setDie_mem (s : State) (d : Nat) (x : Die) : (s.setDie d x).mem = s.mem := rfl
@[simp] theorem State.setDie_kmaps (s : State) (d : Nat) (x : Die) : (s.setDie d x).kmaps = s.kmaps := rfl
@[simp] theorem State.setDie_splitReqs (s : State) (d : Nat) (x : Die) : (s.setDie d x).splitReqs = s.splitReqs := rfl
@[simp] theorem State.setDie_posted (s : State) (d : Nat) (x : Die) : (s.setDie d x).posted = s.posted := rfl
@[simp] theorem State.setDie_chain (s : State) (d : Nat) (x : Die) : (s.setDie d x).chain = s.chain := rfl
@[simp] theorem State.setDie_packets (s : State) (d : Nat) (x : Die) : (s.setDie d x).packets = s.packets := rfl
@[simp] theorem State.setDie_fills (s : State) (d : Nat) (x : Die) : (s.setDie d x).fills = s.fills := rfl
@[simp] theorem State.setDie_msgs (s : State) (d : Nat) (x : Die) : (s.setDie d x).msgs = s.msgs := rfl
@[simp] theorem State.setDie_far (s : State) (d : Nat) (x : Die) : (s.setDie d x).far = s.far := rfl
@[simp] theorem State.setDie_sysc (s : State) (d : Nat) (x : Die) : (s.setDie d x).sysc = s.sysc := rfl
@[simp] theorem State.setDie_cur (s : State) (d : Nat) (x : Die) : (s.setDie d x).cur = s.cur := rfl
@[simp] theorem State.setDie_issue (s : State) (d : Nat) (x : Die) : (s.setDie d x).issue = s.issue := rfl
@[simp] theorem State.setDie_ac (s : State) (d : Nat) (x : Die) : (s.setDie d x).ac = s.ac := rfl
@[simp] theorem State.setDie_agenda (s : State) (d : Nat) (x : Die) : (s.setDie d x).agenda = s.agenda := rfl
@[simp] theorem State.setDie_env (s : State) (d : Nat) (x : Die) : (s.setDie d x).env = s.env := rfl

/-! ## `State.setChan` -/

@[simp] theorem State.setChan_part (s : State) (ch : Nat) (x : Channel) : (s.setChan ch x).part = s.part := rfl
@[simp] theorem State.setChan_cores (s : State) (ch : Nat) (x : Channel) : (s.setChan ch x).cores = s.cores := rfl
@[simp] theorem State.setChan_folds (s : State) (ch : Nat) (x : Channel) : (s.setChan ch x).folds = s.folds := rfl
@[simp] theorem State.setChan_dies (s : State) (ch : Nat) (x : Channel) : (s.setChan ch x).dies = s.dies := rfl
@[simp] theorem State.setChan_channels (s : State) (ch : Nat) (x : Channel) : (s.setChan ch x).channels = aset s.channels ch x := rfl
@[simp] theorem State.setChan_dev (s : State) (ch : Nat) (x : Channel) : (s.setChan ch x).dev = s.dev := rfl
@[simp] theorem State.setChan_mem (s : State) (ch : Nat) (x : Channel) : (s.setChan ch x).mem = s.mem := rfl
@[simp] theorem State.setChan_kmaps (s : State) (ch : Nat) (x : Channel) : (s.setChan ch x).kmaps = s.kmaps := rfl
@[simp] theorem State.setChan_splitReqs (s : State) (ch : Nat) (x : Channel) : (s.setChan ch x).splitReqs = s.splitReqs := rfl
@[simp] theorem State.setChan_posted (s : State) (ch : Nat) (x : Channel) : (s.setChan ch x).posted = s.posted := rfl
@[simp] theorem State.setChan_chain (s : State) (ch : Nat) (x : Channel) : (s.setChan ch x).chain = s.chain := rfl
@[simp] theorem State.setChan_packets (s : State) (ch : Nat) (x : Channel) : (s.setChan ch x).packets = s.packets := rfl
@[simp] theorem State.setChan_fills (s : State) (ch : Nat) (x : Channel) : (s.setChan ch x).fills = s.fills := rfl
@[simp] theorem State.setChan_msgs (s : State) (ch : Nat) (x : Channel) : (s.setChan ch x).msgs = s.msgs := rfl
@[simp] theorem State.setChan_far (s : State) (ch : Nat) (x : Channel) : (s.setChan ch x).far = s.far := rfl
@[simp] theorem State.setChan_sysc (s : State) (ch : Nat) (x : Channel) : (s.setChan ch x).sysc = s.sysc := rfl
@[simp] theorem State.setChan_cur (s : State) (ch : Nat) (x : Channel) : (s.setChan ch x).cur = s.cur := rfl
@[simp] theorem State.setChan_issue (s : State) (ch : Nat) (x : Channel) : (s.setChan ch x).issue = s.issue := rfl
@[simp] theorem State.setChan_ac (s : State) (ch : Nat) (x : Channel) : (s.setChan ch x).ac = s.ac := rfl
@[simp] theorem State.setChan_agenda (s : State) (ch : Nat) (x : Channel) : (s.setChan ch x).agenda = s.agenda := rfl
@[simp] theorem State.setChan_env (s : State) (ch : Nat) (x : Channel) : (s.setChan ch x).env = s.env := rfl

/-! ## `State.setLaunch` -/

@[simp] theorem State.setLaunch_part (s : State) (l : Nat) (x : Launch) : (s.setLaunch l x).part = s.part := rfl
@[simp] theorem State.setLaunch_cores (s : State) (l : Nat) (x : Launch) : (s.setLaunch l x).cores = s.cores := rfl
@[simp] theorem State.setLaunch_folds (s : State) (l : Nat) (x : Launch) : (s.setLaunch l x).folds = s.folds := rfl
@[simp] theorem State.setLaunch_dies (s : State) (l : Nat) (x : Launch) : (s.setLaunch l x).dies = s.dies := rfl
@[simp] theorem State.setLaunch_channels (s : State) (l : Nat) (x : Launch) : (s.setLaunch l x).channels = s.channels := rfl
@[simp] theorem State.setLaunch_dev (s : State) (l : Nat) (x : Launch) : (s.setLaunch l x).dev = { s.dev with launches := aset s.dev.launches l x } := rfl
@[simp] theorem State.setLaunch_mem (s : State) (l : Nat) (x : Launch) : (s.setLaunch l x).mem = s.mem := rfl
@[simp] theorem State.setLaunch_kmaps (s : State) (l : Nat) (x : Launch) : (s.setLaunch l x).kmaps = s.kmaps := rfl
@[simp] theorem State.setLaunch_splitReqs (s : State) (l : Nat) (x : Launch) : (s.setLaunch l x).splitReqs = s.splitReqs := rfl
@[simp] theorem State.setLaunch_posted (s : State) (l : Nat) (x : Launch) : (s.setLaunch l x).posted = s.posted := rfl
@[simp] theorem State.setLaunch_chain (s : State) (l : Nat) (x : Launch) : (s.setLaunch l x).chain = s.chain := rfl
@[simp] theorem State.setLaunch_packets (s : State) (l : Nat) (x : Launch) : (s.setLaunch l x).packets = s.packets := rfl
@[simp] theorem State.setLaunch_fills (s : State) (l : Nat) (x : Launch) : (s.setLaunch l x).fills = s.fills := rfl
@[simp] theorem State.setLaunch_msgs (s : State) (l : Nat) (x : Launch) : (s.setLaunch l x).msgs = s.msgs := rfl
@[simp] theorem State.setLaunch_far (s : State) (l : Nat) (x : Launch) : (s.setLaunch l x).far = s.far := rfl
@[simp] theorem State.setLaunch_sysc (s : State) (l : Nat) (x : Launch) : (s.setLaunch l x).sysc = s.sysc := rfl
@[simp] theorem State.setLaunch_cur (s : State) (l : Nat) (x : Launch) : (s.setLaunch l x).cur = s.cur := rfl
@[simp] theorem State.setLaunch_issue (s : State) (l : Nat) (x : Launch) : (s.setLaunch l x).issue = s.issue := rfl
@[simp] theorem State.setLaunch_ac (s : State) (l : Nat) (x : Launch) : (s.setLaunch l x).ac = s.ac := rfl
@[simp] theorem State.setLaunch_agenda (s : State) (l : Nat) (x : Launch) : (s.setLaunch l x).agenda = s.agenda := rfl
@[simp] theorem State.setLaunch_env (s : State) (l : Nat) (x : Launch) : (s.setLaunch l x).env = s.env := rfl

/-! ## `State.setSlot` -/

@[simp] theorem State.setSlot_part (s : State) (c k : Nat) (t : Slot) : (s.setSlot c k t).part = s.part := rfl
@[simp] theorem State.setSlot_cores (s : State) (c k : Nat) (t : Slot) : (s.setSlot c k t).cores = aset s.cores c ((s.core c).setSlot k t) := rfl
@[simp] theorem State.setSlot_folds (s : State) (c k : Nat) (t : Slot) : (s.setSlot c k t).folds = s.folds := rfl
@[simp] theorem State.setSlot_dies (s : State) (c k : Nat) (t : Slot) : (s.setSlot c k t).dies = s.dies := rfl
@[simp] theorem State.setSlot_channels (s : State) (c k : Nat) (t : Slot) : (s.setSlot c k t).channels = s.channels := rfl
@[simp] theorem State.setSlot_dev (s : State) (c k : Nat) (t : Slot) : (s.setSlot c k t).dev = s.dev := rfl
@[simp] theorem State.setSlot_mem (s : State) (c k : Nat) (t : Slot) : (s.setSlot c k t).mem = s.mem := rfl
@[simp] theorem State.setSlot_kmaps (s : State) (c k : Nat) (t : Slot) : (s.setSlot c k t).kmaps = s.kmaps := rfl
@[simp] theorem State.setSlot_splitReqs (s : State) (c k : Nat) (t : Slot) : (s.setSlot c k t).splitReqs = s.splitReqs := rfl
@[simp] theorem State.setSlot_posted (s : State) (c k : Nat) (t : Slot) : (s.setSlot c k t).posted = s.posted := rfl
@[simp] theorem State.setSlot_chain (s : State) (c k : Nat) (t : Slot) : (s.setSlot c k t).chain = s.chain := rfl
@[simp] theorem State.setSlot_packets (s : State) (c k : Nat) (t : Slot) : (s.setSlot c k t).packets = s.packets := rfl
@[simp] theorem State.setSlot_fills (s : State) (c k : Nat) (t : Slot) : (s.setSlot c k t).fills = s.fills := rfl
@[simp] theorem State.setSlot_msgs (s : State) (c k : Nat) (t : Slot) : (s.setSlot c k t).msgs = s.msgs := rfl
@[simp] theorem State.setSlot_far (s : State) (c k : Nat) (t : Slot) : (s.setSlot c k t).far = s.far := rfl
@[simp] theorem State.setSlot_sysc (s : State) (c k : Nat) (t : Slot) : (s.setSlot c k t).sysc = s.sysc := rfl
@[simp] theorem State.setSlot_cur (s : State) (c k : Nat) (t : Slot) : (s.setSlot c k t).cur = s.cur := rfl
@[simp] theorem State.setSlot_issue (s : State) (c k : Nat) (t : Slot) : (s.setSlot c k t).issue = s.issue := rfl
@[simp] theorem State.setSlot_ac (s : State) (c k : Nat) (t : Slot) : (s.setSlot c k t).ac = s.ac := rfl
@[simp] theorem State.setSlot_agenda (s : State) (c k : Nat) (t : Slot) : (s.setSlot c k t).agenda = s.agenda := rfl
@[simp] theorem State.setSlot_env (s : State) (c k : Nat) (t : Slot) : (s.setSlot c k t).env = s.env := rfl

/-! ## `State.as` -/

@[simp] theorem State.as_part (s : State) (w : Who) : (s.as w).part = s.part := rfl
@[simp] theorem State.as_cores (s : State) (w : Who) : (s.as w).cores = s.cores := rfl
@[simp] theorem State.as_folds (s : State) (w : Who) : (s.as w).folds = s.folds := rfl
@[simp] theorem State.as_dies (s : State) (w : Who) : (s.as w).dies = s.dies := rfl
@[simp] theorem State.as_channels (s : State) (w : Who) : (s.as w).channels = s.channels := rfl
@[simp] theorem State.as_dev (s : State) (w : Who) : (s.as w).dev = s.dev := rfl
@[simp] theorem State.as_mem (s : State) (w : Who) : (s.as w).mem = s.mem := rfl
@[simp] theorem State.as_kmaps (s : State) (w : Who) : (s.as w).kmaps = s.kmaps := rfl
@[simp] theorem State.as_splitReqs (s : State) (w : Who) : (s.as w).splitReqs = s.splitReqs := rfl
@[simp] theorem State.as_posted (s : State) (w : Who) : (s.as w).posted = s.posted := rfl
@[simp] theorem State.as_chain (s : State) (w : Who) : (s.as w).chain = s.chain := rfl
@[simp] theorem State.as_packets (s : State) (w : Who) : (s.as w).packets = s.packets := rfl
@[simp] theorem State.as_fills (s : State) (w : Who) : (s.as w).fills = s.fills := rfl
@[simp] theorem State.as_msgs (s : State) (w : Who) : (s.as w).msgs = s.msgs := rfl
@[simp] theorem State.as_far (s : State) (w : Who) : (s.as w).far = s.far := rfl
@[simp] theorem State.as_sysc (s : State) (w : Who) : (s.as w).sysc = s.sysc := rfl
@[simp] theorem State.as_cur (s : State) (w : Who) : (s.as w).cur = w := rfl
@[simp] theorem State.as_issue (s : State) (w : Who) : (s.as w).issue = s.issue := rfl
@[simp] theorem State.as_ac (s : State) (w : Who) : (s.as w).ac = s.ac := rfl
@[simp] theorem State.as_agenda (s : State) (w : Who) : (s.as w).agenda = s.agenda := rfl
@[simp] theorem State.as_env (s : State) (w : Who) : (s.as w).env = s.env := rfl

/-! ## `State.popDefer` -/

@[simp] theorem State.popDefer_part (s : State) : (s.popDefer).part = s.part := rfl
@[simp] theorem State.popDefer_cores (s : State) : (s.popDefer).cores = s.cores := rfl
@[simp] theorem State.popDefer_folds (s : State) : (s.popDefer).folds = s.folds := rfl
@[simp] theorem State.popDefer_dies (s : State) : (s.popDefer).dies = s.dies := rfl
@[simp] theorem State.popDefer_channels (s : State) : (s.popDefer).channels = s.channels := rfl
@[simp] theorem State.popDefer_dev (s : State) : (s.popDefer).dev = s.dev := rfl
@[simp] theorem State.popDefer_mem (s : State) : (s.popDefer).mem = s.mem := rfl
@[simp] theorem State.popDefer_kmaps (s : State) : (s.popDefer).kmaps = s.kmaps := rfl
@[simp] theorem State.popDefer_splitReqs (s : State) : (s.popDefer).splitReqs = s.splitReqs := rfl
@[simp] theorem State.popDefer_posted (s : State) : (s.popDefer).posted = s.posted := rfl
@[simp] theorem State.popDefer_chain (s : State) : (s.popDefer).chain = s.chain := rfl
@[simp] theorem State.popDefer_packets (s : State) : (s.popDefer).packets = s.packets := rfl
@[simp] theorem State.popDefer_fills (s : State) : (s.popDefer).fills = s.fills := rfl
@[simp] theorem State.popDefer_msgs (s : State) : (s.popDefer).msgs = s.msgs := rfl
@[simp] theorem State.popDefer_far (s : State) : (s.popDefer).far = s.far := rfl
@[simp] theorem State.popDefer_sysc (s : State) : (s.popDefer).sysc = s.sysc := rfl
@[simp] theorem State.popDefer_cur (s : State) : (s.popDefer).cur = s.cur := rfl
@[simp] theorem State.popDefer_issue (s : State) : (s.popDefer).issue = s.issue := rfl
@[simp] theorem State.popDefer_ac (s : State) : (s.popDefer).ac = s.ac := rfl
@[simp] theorem State.popDefer_agenda (s : State) : (s.popDefer).agenda = s.agenda := rfl
@[simp] theorem State.popDefer_env (s : State) : (s.popDefer).env = { s.env with defer := s.env.defer.tail } := rfl

/-! ## `State.setThread`, which changes cores, channels or the device -/

@[simp] theorem State.setThread_part (s : State) (t : Slot) : (s.setThread t).part = s.part := by
  unfold State.setThread; split <;> (try split) <;> rfl
@[simp] theorem State.setThread_folds (s : State) (t : Slot) : (s.setThread t).folds = s.folds := by
  unfold State.setThread; split <;> (try split) <;> rfl
@[simp] theorem State.setThread_dies (s : State) (t : Slot) : (s.setThread t).dies = s.dies := by
  unfold State.setThread; split <;> (try split) <;> rfl
@[simp] theorem State.setThread_mem (s : State) (t : Slot) : (s.setThread t).mem = s.mem := by
  unfold State.setThread; split <;> (try split) <;> rfl
@[simp] theorem State.setThread_kmaps (s : State) (t : Slot) : (s.setThread t).kmaps = s.kmaps := by
  unfold State.setThread; split <;> (try split) <;> rfl
@[simp] theorem State.setThread_splitReqs (s : State) (t : Slot) : (s.setThread t).splitReqs = s.splitReqs := by
  unfold State.setThread; split <;> (try split) <;> rfl
@[simp] theorem State.setThread_posted (s : State) (t : Slot) : (s.setThread t).posted = s.posted := by
  unfold State.setThread; split <;> (try split) <;> rfl
@[simp] theorem State.setThread_chain (s : State) (t : Slot) : (s.setThread t).chain = s.chain := by
  unfold State.setThread; split <;> (try split) <;> rfl
@[simp] theorem State.setThread_packets (s : State) (t : Slot) : (s.setThread t).packets = s.packets := by
  unfold State.setThread; split <;> (try split) <;> rfl
@[simp] theorem State.setThread_fills (s : State) (t : Slot) : (s.setThread t).fills = s.fills := by
  unfold State.setThread; split <;> (try split) <;> rfl
@[simp] theorem State.setThread_msgs (s : State) (t : Slot) : (s.setThread t).msgs = s.msgs := by
  unfold State.setThread; split <;> (try split) <;> rfl
@[simp] theorem State.setThread_far (s : State) (t : Slot) : (s.setThread t).far = s.far := by
  unfold State.setThread; split <;> (try split) <;> rfl
@[simp] theorem State.setThread_sysc (s : State) (t : Slot) : (s.setThread t).sysc = s.sysc := by
  unfold State.setThread; split <;> (try split) <;> rfl
@[simp] theorem State.setThread_cur (s : State) (t : Slot) : (s.setThread t).cur = s.cur := by
  unfold State.setThread; split <;> (try split) <;> rfl
@[simp] theorem State.setThread_issue (s : State) (t : Slot) : (s.setThread t).issue = s.issue := by
  unfold State.setThread; split <;> (try split) <;> rfl
@[simp] theorem State.setThread_ac (s : State) (t : Slot) : (s.setThread t).ac = s.ac := by
  unfold State.setThread; split <;> (try split) <;> rfl
@[simp] theorem State.setThread_agenda (s : State) (t : Slot) : (s.setThread t).agenda = s.agenda := by
  unfold State.setThread; split <;> (try split) <;> rfl
@[simp] theorem State.setThread_env (s : State) (t : Slot) : (s.setThread t).env = s.env := by
  unfold State.setThread; split <;> (try split) <;> rfl

/-! ## Registers of a slot -/

@[simp] theorem Slot.setReg_st (t : Slot) (r : Nat) (x : VReg) : (t.setReg r x).st = t.st := by
  unfold Slot.setReg; split <;> rfl
@[simp] theorem Slot.setReg_pc (t : Slot) (r : Nat) (x : VReg) : (t.setReg r x).pc = t.pc := by
  unfold Slot.setReg; split <;> rfl
@[simp] theorem Slot.setReg_pts (t : Slot) (r : Nat) (x : VReg) : (t.setReg r x).pts = t.pts := by
  unfold Slot.setReg; split <;> rfl
@[simp] theorem Slot.setReg_flags (t : Slot) (r : Nat) (x : VReg) : (t.setReg r x).flags = t.flags := by
  unfold Slot.setReg; split <;> rfl
@[simp] theorem Slot.setReg_efmt (t : Slot) (r : Nat) (x : VReg) : (t.setReg r x).efmt = t.efmt := by
  unfold Slot.setReg; split <;> rfl
@[simp] theorem Slot.setReg_p (t : Slot) (r : Nat) (x : VReg) : (t.setReg r x).p = t.p := by
  unfold Slot.setReg; split <;> rfl
@[simp] theorem Slot.setReg_fe (t : Slot) (r : Nat) (x : VReg) : (t.setReg r x).fe = t.fe := by
  unfold Slot.setReg; split <;> rfl
@[simp] theorem Slot.setReg_ports (t : Slot) (r : Nat) (x : VReg) : (t.setReg r x).ports = t.ports := by
  unfold Slot.setReg; split <;> rfl
@[simp] theorem Slot.setReg_holders (t : Slot) (r : Nat) (x : VReg) : (t.setReg r x).holders = t.holders := by
  unfold Slot.setReg; split <;> rfl
@[simp] theorem Slot.setReg_fillTs (t : Slot) (r : Nat) (x : VReg) : (t.setReg r x).fillTs = t.fillTs := by
  unfold Slot.setReg; split <;> rfl
@[simp] theorem Slot.fill_st (t : Slot) (r : Nat) (x : VReg) : (t.fill r x).st = t.st := by
  simp [Slot.fill]
@[simp] theorem Slot.fill_pc (t : Slot) (r : Nat) (x : VReg) : (t.fill r x).pc = t.pc := by
  simp [Slot.fill]
@[simp] theorem Slot.fill_pts (t : Slot) (r : Nat) (x : VReg) : (t.fill r x).pts = t.pts := by
  simp [Slot.fill]
@[simp] theorem Slot.fill_flags (t : Slot) (r : Nat) (x : VReg) : (t.fill r x).flags = t.flags := by
  simp [Slot.fill]
@[simp] theorem Slot.fill_efmt (t : Slot) (r : Nat) (x : VReg) : (t.fill r x).efmt = t.efmt := by
  simp [Slot.fill]
@[simp] theorem Slot.fill_p (t : Slot) (r : Nat) (x : VReg) : (t.fill r x).p = t.p := by
  simp [Slot.fill]
@[simp] theorem Slot.fill_ports (t : Slot) (r : Nat) (x : VReg) : (t.fill r x).ports = t.ports := by
  simp [Slot.fill]
@[simp] theorem Slot.fill_holders (t : Slot) (r : Nat) (x : VReg) : (t.fill r x).holders = t.holders := by
  simp [Slot.fill]
@[simp] theorem Slot.empty_st (t : Slot) (r : Nat) : (t.empty r).st = t.st := by
  unfold Slot.empty; split <;> simp
@[simp] theorem Slot.empty_pc (t : Slot) (r : Nat) : (t.empty r).pc = t.pc := by
  unfold Slot.empty; split <;> simp
@[simp] theorem Slot.empty_pts (t : Slot) (r : Nat) : (t.empty r).pts = t.pts := by
  unfold Slot.empty; split <;> simp
@[simp] theorem Slot.empty_flags (t : Slot) (r : Nat) : (t.empty r).flags = t.flags := by
  unfold Slot.empty; split <;> simp
@[simp] theorem Slot.empty_efmt (t : Slot) (r : Nat) : (t.empty r).efmt = t.efmt := by
  unfold Slot.empty; split <;> simp
@[simp] theorem Slot.empty_p (t : Slot) (r : Nat) : (t.empty r).p = t.p := by
  unfold Slot.empty; split <;> simp
@[simp] theorem Slot.empty_ports (t : Slot) (r : Nat) : (t.empty r).ports = t.ports := by
  unfold Slot.empty; split <;> simp
@[simp] theorem Slot.setFollow_st (t : Slot) (b : Bool) : (t.setFollow b).st = t.st := rfl
@[simp] theorem Slot.setFollow_pc (t : Slot) (b : Bool) : (t.setFollow b).pc = t.pc := rfl
@[simp] theorem Slot.setFollow_pts (t : Slot) (b : Bool) : (t.setFollow b).pts = t.pts := rfl
@[simp] theorem Slot.setFollow_efmt (t : Slot) (b : Bool) : (t.setFollow b).efmt = t.efmt := rfl
@[simp] theorem Slot.setFollow_g (t : Slot) (b : Bool) : (t.setFollow b).g = t.g := rfl
@[simp] theorem Slot.setFollow_v (t : Slot) (b : Bool) : (t.setFollow b).v = t.v := rfl
@[simp] theorem Slot.setFollow_p (t : Slot) (b : Bool) : (t.setFollow b).p = t.p := rfl
@[simp] theorem Slot.setFollow_fe (t : Slot) (b : Bool) : (t.setFollow b).fe = t.fe := rfl
@[simp] theorem Slot.setFollow_ports (t : Slot) (b : Bool) : (t.setFollow b).ports = t.ports := rfl
@[simp] theorem Slot.setFollow_holders (t : Slot) (b : Bool) : (t.setFollow b).holders = t.holders := rfl
@[simp] theorem Slot.setFollow_fillTs (t : Slot) (b : Bool) : (t.setFollow b).fillTs = t.fillTs := rfl

end Sys2Proof.Machine
end

