-- ==== Sys2Proof/Laws/Access.lean ====
section
/-! SUPPORT. What the shared operations do to memory and to the thread: reads change no byte, a write at a home changes the
bytes it writes, a completion, a park and a fault change none. -/

namespace Sys2Proof.Machine

/-! ## Homes -/

@[simp] theorem State.reportSkew_mem (s : State) : s.reportSkew.mem = s.mem := rfl

/-- A skew event at a slice changes no byte of memory. -/
@[simp] theorem State.skewFold_mem (s : State) (f : Nat) : (s.skewFold f).mem = s.mem := by
  unfold State.skewFold
  generalize coresOf f = l
  dsimp only
  rw [State.reportSkew_mem, ← State.setFold_mem s f { s.fold f with skew := (s.fold f).skew + 1 }]
  generalize s.setFold f { s.fold f with skew := (s.fold f).skew + 1 } = u
  induction l generalizing u with
  | nil => rfl
  | cons c l ih => rw [List.foldl_cons, ih, State.setCore_mem]

@[simp] theorem State.countSkew_mem (s : State) (l : Loc) (ts : Nat) : (s.countSkew l ts).mem = s.mem := by
  unfold State.countSkew; split
  · rfl
  · cases l <;> simp

@[simp] theorem State.setPresent_mem (s : State) (ln : Nat) (b : Bool) : (s.setPresent ln b).mem = s.mem := by
  unfold State.setPresent; split <;> rfl

@[simp] theorem State.holdLine_mem (s : State) (pa wts rts : Nat) (alloc dirty : Bool) :
    (s.holdLine pa wts rts alloc dirty).mem = s.mem := by
  unfold State.holdLine
  dsimp only
  split
  · rfl
  · split <;> simp

/-- A read at a home changes no byte of memory. -/
@[simp] theorem State.homeRead_mem (s : State) (l : Loc) (ts lam : Nat) (alloc : Bool) :
    (s.homeRead l ts lam alloc).1.mem = s.mem := by
  cases l <;> simp [State.homeRead]

/-- Remembering a write to a launch queue changes no byte of memory. -/
@[simp] theorem State.noteTail_mem (s : State) (pa n w : Nat) : (s.noteTail pa n w).mem = s.mem := rfl

/-- The store rule at a home changes no byte of memory. -/
@[simp] theorem State.homeStamp_mem (s : State) (l : Loc) (ts : Nat) (alloc : Bool) : (s.homeStamp l ts alloc).1.mem = s.mem := by
  cases l <;> simp [State.homeStamp]

/-- It gives a timestamp past every read before it (R203). -/
theorem State.homeStamp_ts (s : State) (l : Loc) (ts : Nat) (alloc : Bool) :
    (s.homeStamp l ts alloc).2 = max (clampTs (s.homeGreatest l) ts) ((s.tsAt l).2 + 1) := by
  cases l <;> rfl

/-- The bytes of a write enter memory at a place there, and none for one in a scratchpad. -/
theorem State.homePut_mem (s : State) (l : Loc) (n v w : Nat) :
    (s.homePut l n v w).mem = match l with
      | .mem pa => Memory.writeNat s.mem pa n v
      | .scr _ _ => s.mem := by
  cases l <;> simp [State.homePut]

/-- A write at a home writes the bytes of a place in memory, and no byte of memory for one in a scratchpad. -/
theorem State.homeWrite_mem (s : State) (l : Loc) (n v ts : Nat) (alloc : Bool) :
    (s.homeWrite l n v ts alloc).1.mem = match l with
      | .mem pa => Memory.writeNat s.mem pa n v
      | .scr _ _ => s.mem := by
  rw [State.homeWrite, State.homePut_mem, State.homeStamp_mem]

/-- A write at a home takes a timestamp past every read before it (R203). -/
theorem State.homeWrite_ts (s : State) (l : Loc) (n v ts : Nat) (alloc : Bool) :
    (s.homeWrite l n v ts alloc).2 = max (clampTs (s.homeGreatest l) ts) ((s.tsAt l).2 + 1) := State.homeStamp_ts s l ts alloc

/-- A write at a home keeps memory canonical. -/
theorem State.homeWrite_wf {s : State} (l : Loc) (n v ts : Nat) (alloc : Bool) (h : Memory.wf s.mem = true) :
    Memory.wf (s.homeWrite l n v ts alloc).1.mem = true := by
  rw [State.homeWrite_mem]
  split
  · exact Memory.writeNat_wf _ _ _ h
  · exact h

@[simp] theorem State.chanLoad_mem (s : State) (ch pa ts : Nat) : (s.chanLoad ch pa ts).1.mem = s.mem := by
  unfold State.chanLoad
  dsimp only
  repeat' split
  all_goals simp

/-- A channel's store writes the bytes of its place. -/
@[simp] theorem State.chanStore_mem (s : State) (ch pa n v ts : Nat) :
    (s.chanStore ch pa n v ts).1.mem = Memory.writeNat s.mem pa n v := by
  unfold State.chanStore
  dsimp only
  repeat' split
  all_goals simp [State.homeWrite_mem]

@[simp] theorem State.raisePts_mem (s : State) (ts : Nat) : (s.raisePts ts).mem = s.mem := by simp [State.raisePts]

@[simp] theorem State.count_mem (s : State) (ev : Nat) : (s.count ev).mem = s.mem := by unfold State.count; split <;> rfl

@[simp] theorem State.countFar_mem (s : State) (l : Loc) : (s.countFar l).mem = s.mem := by
  unfold State.countFar
  repeat' split
  all_goals simp

/-- A load changes no byte of memory. -/
@[simp] theorem State.load_mem (s : State) (l : Loc) (n hint : Nat) : (s.load l n hint).1.mem = s.mem := by
  unfold State.load
  split
  · simp
  · simp only
    split
    · simp
    · split
      · rw [State.setCore_mem, State.raisePts_mem, State.homeRead_mem, State.count_mem]
      · simp
  all_goals simp

/-- A read, change and write by the current thread writes the new value at a place in memory. -/
theorem State.rmw_mem (s : State) (l : Loc) (n hint : Nat) (f : Nat → Nat) :
    (s.rmw l n hint f).1.mem = match l with
      | .mem pa => Memory.writeNat s.mem pa n (f (s.mem.readNat pa n))
      | .scr _ _ => s.mem := by
  unfold State.rmw
  dsimp only
  repeat' split
  all_goals simp_all [State.homeWrite_mem, State.peek]

/-- It answers the value that stood there. -/
theorem State.rmw_old (s : State) (l : Loc) (n hint : Nat) (f : Nat → Nat) : (s.rmw l n hint f).2 = s.peek l n := by
  unfold State.rmw
  dsimp only
  split <;> rfl

/-- It keeps memory canonical. -/
theorem State.rmw_wf {s : State} (l : Loc) (n hint : Nat) (f : Nat → Nat) (h : Memory.wf s.mem = true) :
    Memory.wf (s.rmw l n hint f).1.mem = true := by
  rw [State.rmw_mem]
  split
  · exact Memory.writeNat_wf _ _ _ h
  · exact h

/-! ## Completion, parking and faults -/

@[simp] theorem State.append_mem (s : State) (r : Nat) (x : VReg) : (s.append r x).mem = s.mem := by
  unfold State.append
  dsimp only
  repeat' split
  all_goals simp

@[simp] theorem State.applyWr_mem (s : State) (w : Wr) : (s.applyWr w).mem = s.mem := by
  unfold State.applyWr
  dsimp only
  repeat' split
  all_goals simp

@[simp] theorem State.applyWrs_mem (s : State) (ws : List Wr) : (s.applyWrs ws).mem = s.mem := by
  induction ws generalizing s with
  | nil => rfl
  | cons w ws ih => rw [State.applyWrs, ih, State.applyWr_mem]

@[simp] theorem State.dropFollowers_mem (s : State) (c k : Nat) : (s.dropFollowers c k).mem = s.mem := by
  unfold State.dropFollowers
  generalize coresOf (foldOf c) = l
  induction l generalizing s with
  | nil => rfl
  | cons x l ih =>
    rw [List.foldl_cons, ih]
    dsimp only
    repeat' split
    all_goals simp

/-- A completion changes no byte of memory. -/
@[simp] theorem State.commit_mem (s : State) (e : Eff) : (s.commit e).mem = s.mem := by
  unfold State.commit
  dsimp only
  repeat' split
  all_goals simp only [State.dropFollowers_mem, State.applyWrs_mem, State.setThread_mem]

/-- A park changes no byte of memory. -/
@[simp] theorem State.park_mem (s : State) (w : Wait) : (s.park w).mem = s.mem := by simp [State.park]

@[simp] theorem State.enterMiss_mem (s : State) (d sp page : Nat) : (s.enterMiss d sp page).mem = s.mem := by
  unfold State.enterMiss
  dsimp only
  split <;> rfl

/-- Parking or stalling before any effect changes no byte of memory. -/
@[simp] theorem State.parkOn_mem (s : State) (w : Wait) : (s.parkOn w).mem = s.mem := by
  cases w <;> simp [State.parkOn]

/-- A wait for anything but a walk or a line parks and no more. -/
theorem State.parkOn_park {s : State} {w : Wait} (h1 : ∀ d sp p, w ≠ .walk d sp p) (h2 : ∀ ln, w ≠ .line ln) : s.parkOn w = s.park w := by
  cases w <;> simp_all [State.parkOn]

/-- A reply that lands changes no byte of memory. -/
@[simp] theorem State.land_mem (s : State) (e : Eff) : (s.land e).mem = s.mem := by
  unfold State.land; split <;> simp

@[simp] theorem State.waiting_mem (s : State) (p : Nat) (w : Wait) : (s.waiting p w).mem = s.mem := by simp [State.waiting]

/-- An effect done or held for its reply changes no byte of memory. -/
@[simp] theorem State.finish_mem (s : State) (w : Option Wait) (p : Nat) (e : Eff) : (s.finish w p e).mem = s.mem := by
  unfold State.finish
  split
  · simp
  · split <;> simp

/-- With no line poisoned no access to a scratchpad is held back. -/
theorem State.spanBad_clean {s : State} (h : s.dev.poisoned = []) (c off n : Nat) : s.spanBad c off n = none := by
  simp [State.spanBad, h]

theorem State.spanClean_clean {s : State} (h : s.dev.poisoned = []) (c off n : Nat) : s.spanClean c off n = .ok () := by
  simp [State.spanClean, State.spanBad_clean h]

/-- With no line poisoned a record enters the queue as there is room (R373). -/
theorem State.enterRecord_clean {s : State} (h : s.dev.poisoned = []) (c : Nat) (r : FaultRec) (ts : Nat) :
    s.enterRecord c r ts = s.setCore c ((s.core c).enterRecord r ts) := by
  simp [State.enterRecord, State.tailBad, State.spanBad_clean h]

/-- A record entering a fault queue changes no byte of memory. -/
@[simp] theorem State.enterRecord_mem (s : State) (c : Nat) (r : FaultRec) (ts : Nat) : (s.enterRecord c r ts).mem = s.mem := by
  simp [State.enterRecord]

@[simp] theorem State.faultSlot_mem (s : State) (c k : Nat) (f : FaultInfo) (kind : Nat) (info : Word) :
    (s.faultSlot c k f kind info).mem = s.mem := by
  unfold State.faultSlot
  dsimp only
  rw [State.dropFollowers_mem]
  split <;> simp

/-- Taking a fault changes no byte of memory (R368). -/
@[simp] theorem State.raise_mem (s : State) (f : FaultInfo) : (s.raise f).mem = s.mem := by
  unfold State.raise
  repeat' split
  all_goals simp

/-- The return from a fault changes no byte of memory (R374). -/
@[simp] theorem State.returnSlot_mem (s : State) (c k pts : Nat) : (s.returnSlot c k pts).mem = s.mem := by
  unfold State.returnSlot
  dsimp only
  repeat' split
  all_goals simp

end Sys2Proof.Machine
end

