-- ==== Sys2Proof/Laws/Ops.lean ====
section
/-! SUPPORT. What the issue of an instruction can do (R6, R82): one lemma per way it ends, which proofs cite instead of
unfolding `State.run`. -/

namespace Sys2Proof.Machine

/-- An instruction that is ready and whose effect is done completes. -/
theorem meaning_done {i : Instr} {w : Option Wait} {body : State → Eff → Res} {s s1 s2 : State} {e e2 : Eff}
    (h : Ready i s s1 e) (hb : body s1 e = .done s2 e2) : meaning i w body s = .next (s2.finish w s.thread.pts e2) := by
  simp only [meaning, State.run, h.1, h.2, hb]

/-- One whose request is sent waits for its agent. -/
theorem meaning_sent {i : Instr} {w : Option Wait} {body : State → Eff → Res} {s s1 s2 : State} {e : Eff} {x : Wait}
    (h : Ready i s s1 e) (hb : body s1 e = .sent s2 x) : meaning i w body s = .next (s2.waiting s.thread.pts x) := by
  simp only [meaning, State.run, h.1, h.2, hb]

/-- One whose own check faults takes the fault from the state before it, with the walk and the code line that it read (R64, R363). -/
theorem meaning_fault {i : Instr} {w : Option Wait} {body : State → Eff → Res} {s s1 : State} {e : Eff} {f : FaultInfo}
    (h : Ready i s s1 e) (hb : body s1 e = .fault f) : meaning i w body s = .next (s.fail f) := by
  simp only [meaning, State.run, h.1, h.2, hb]

/-- A fault that names no branch target, fetched or not, and no translated address leaves nothing but its own record. -/
theorem fail_raise {s : State} {f : FaultInfo} (h : f.code ≠ .badTarget) (hw : f.walked = false) (hf : f.fetched = none) :
    s.fail f = s.raise f := by
  unfold State.fail State.noteFault
  simp only [hf]
  cases s.cur <;> simp [h, hw]

/-- One whose own check waits parks with no effect. -/
theorem meaning_park {i : Instr} {w : Option Wait} {body : State → Eff → Res} {s s1 : State} {e : Eff} {x : Wait}
    (h : Ready i s s1 e) (hb : body s1 e = .park x) : meaning i w body s = .next (s.parkOn x) := by
  simp only [meaning, State.run, h.1, h.2, hb]

/-- One that a check of R82 before its own refuses takes that fault. -/
theorem meaning_precheck {i : Instr} {w : Option Wait} {body : State → Eff → Res} {s : State} {f : FaultInfo}
    (h : s.precheck i = some f) : meaning i w body s = .next (s.raise f) := by
  simp only [meaning, State.run, h]

/-- One whose ports refuse its operands faults. -/
theorem meaning_bad {i : Instr} {w : Option Wait} {body : State → Eff → Res} {s : State} {f : FaultInfo}
    (h : s.precheck i = none) (hp : s.prepare (usesOf i s.thread.ety s.part.vw s.isSys) = .bad f) :
    meaning i w body s = .next (s.raise f) := by
  simp only [meaning, State.run, h, hp]

/-- One whose source is empty or whose destination is full parks. -/
theorem meaning_wait {i : Instr} {w : Option Wait} {body : State → Eff → Res} {s : State} {x : Wait}
    (h : s.precheck i = none) (hp : s.prepare (usesOf i s.thread.ety s.part.vw s.isSys) = .wait x) :
    meaning i w body s = .next (s.parkOn x) := by
  simp only [meaning, State.run, h, hp]

/-- An issue always answers a next state. -/
theorem meaning_next (i : Instr) (w : Option Wait) (body : State → Eff → Res) (s : State) :
    meaning i w body s = .next (s.run i w body) := rfl

/-- An effect with no reply completes at the issue. -/
@[simp] theorem finish_none (s : State) (p : Nat) (e : Eff) : s.finish none p e = s.commit e := rfl

/-- Where the environment holds no reply back, completion is at once. -/
theorem finish_now {s : State} {w : Option Wait} {p : Nat} {e : Eff} (h : s.deferNow ≠ 1) :
    s.finish w p e = if w.isSome then s.popDefer.commit e else s.commit e := by
  cases w <;> simp [State.finish, h]

/-- A check that holds goes on. -/
@[simp] theorem Chk.res_ok {α : Type} (a : α) (f : α → Res) : (Chk.ok a).res f = f a := rfl

/-- A check that fails is a fault. -/
@[simp] theorem Chk.res_bad {α : Type} (x : FaultInfo) (f : α → Res) : (Chk.bad x : Chk α).res f = .fault x := rfl

/-- A check that waits is a park. -/
@[simp] theorem Chk.res_wait {α : Type} (w : Wait) (f : α → Res) : (Chk.wait w : Chk α).res f = .park w := rfl

end Sys2Proof.Machine
end

