-- ==== Sys2Proof/Laws/Exec.lean ====
section
/-! SUPPORT. What `exec` can do with an instruction (R82): its issue ends in one of the ways of `State.run`; and what the
operands of an issue that may go on are. -/

namespace Sys2Proof.Machine

/-- An instruction that has an encoding is executed by `State.run` with its own effect. -/
theorem exec_run (i : Instr) {v : View} (h : i.view = some v) : ∃ w body, ∀ s, exec i s = .next (s.run i w body) := by
  cases i <;> first | exact ⟨_, _, fun _ => rfl⟩ | cases h

/-- Every way an issue ends: a fault before the effect, a park, or what the effect answers from the state after the reads. -/
theorem run_cases (s : State) (i : Instr) (w : Option Wait) (body : State → Eff → Res) :
    (∃ f, s.run i w body = s.raise f) ∨ (∃ f, s.run i w body = s.fail f) ∨ (∃ x, s.run i w body = s.parkOn x)
    ∨ ∃ s1 e, Ready i s s1 e ∧ ((∃ s2 e2, body s1 e = .done s2 e2 ∧ s.run i w body = s2.finish w s.thread.pts e2)
        ∨ ∃ s2 x, body s1 e = .sent s2 x ∧ s.run i w body = s2.waiting s.thread.pts x) := by
  unfold State.run
  split
  · exact .inl ⟨_, rfl⟩
  · next h =>
    split
    · exact .inl ⟨_, rfl⟩
    · exact .inr (.inr (.inl ⟨_, rfl⟩))
    · next s1 e hp =>
      split
      · exact .inr (.inl ⟨_, rfl⟩)
      · exact .inr (.inr (.inl ⟨_, rfl⟩))
      · next hb => exact .inr (.inr (.inr ⟨s1, e, ⟨h, hp⟩, .inl ⟨_, _, hb, rfl⟩⟩))
      · next hb => exact .inr (.inr (.inr ⟨s1, e, ⟨h, hp⟩, .inr ⟨_, _, hb, rfl⟩⟩))

/-- Reading operands raises the thread's PTS alone, with what a bundle saved at an earlier attempt has read; the fills it has read are
forgotten, and its W destinations judged again, at its completion. -/
theorem prepare_ok {s s1 : State} {u : Uses} {p : List Nat} {e : Eff} (h : s.prepare u p = .ok (s1, e)) :
    s1 = s.setThread { s.thread with pts := max (max s.thread.pts ((s.thread.again.map (·.rts)).getD 0)) (s.thread.readTs (u.reads.map (·.1)).eraseDups) }
      ∧ e.pts = max (max s.thread.pts ((s.thread.again.map (·.rts)).getD 0)) (s.thread.readTs (u.reads.map (·.1)).eraseDups) ∧ e.writes = [] ∧ e.sticky = 0 ∧ e.pc = none ∧ e.late = []
      ∧ e.seen = (u.reads.map (·.1)).eraseDups ∧ e.wdest = ((u.writes.filter (·.2)).map (·.1)).eraseDups := by
  unfold State.prepare at h
  dsimp only at h
  repeat' (split at h)
  all_goals cases h
  exact ⟨rfl, rfl, rfl, rfl, rfl, rfl, rfl, rfl⟩

/-- Reading operands changes no byte of memory. -/
theorem prepare_mem {s s1 : State} {u : Uses} {p : List Nat} {e : Eff} (h : s.prepare u p = .ok (s1, e)) : s1.mem = s.mem := by
  obtain ⟨rfl, -⟩ := prepare_ok h
  simp

end Sys2Proof.Machine
end

