-- ==== Sys2Proof/Laws/PerInstr.lean ====
section
/-! SUPPORT. Decoding reads an encoding back (R61, R69, R70, R79), instruction by instruction: family RoundTrip. An event
has no encoding, so that its statement holds at once. -/

namespace Sys2Proof

set_option Elab.async false

/-! ## Fields of a packed word -/

theorem FmtR.ofBits_pack (op sub : Nat) (f : FmtR) : FmtR.ofBits (Body.pack op sub (.fr f)) = f := by
  cases f
  simp only [FmtR.ofBits, Body.pack, packHeader, FmtR.mk.injEq]
  and_intros <;> simp (disch := omega) only [BitVec.extractLsb'_append_eq_of_le, BitVec.extractLsb'_append_eq_of_add_le,
    Nat.reduceSub, BitVec.extractLsb'_eq_self]

theorem FmtI.ofBits_pack (op sub : Nat) (f : FmtI) : FmtI.ofBits (Body.pack op sub (.fi f)) = f := by
  cases f
  simp only [FmtI.ofBits, Body.pack, packHeader, FmtI.mk.injEq]
  and_intros <;> simp (disch := omega) only [BitVec.extractLsb'_append_eq_of_le, BitVec.extractLsb'_append_eq_of_add_le,
    Nat.reduceSub, BitVec.extractLsb'_eq_self]

theorem FmtB.ofBits_pack (op sub : Nat) (f : FmtB) : FmtB.ofBits (Body.pack op sub (.fb f)) = f := by
  cases f
  simp only [FmtB.ofBits, Body.pack, packHeader, FmtB.mk.injEq]
  and_intros <;> simp (disch := omega) only [BitVec.extractLsb'_append_eq_of_le, BitVec.extractLsb'_append_eq_of_add_le,
    Nat.reduceSub, BitVec.extractLsb'_eq_self]

theorem FmtP.ofBits_pack (op sub : Nat) (f : FmtP) : FmtP.ofBits (Body.pack op sub (.fp f)) = f := by
  cases f
  simp only [FmtP.ofBits, Body.pack, packHeader, FmtP.mk.injEq]
  and_intros <;> simp (disch := omega) only [BitVec.extractLsb'_append_eq_of_le, BitVec.extractLsb'_append_eq_of_add_le,
    Nat.reduceSub, BitVec.extractLsb'_eq_self]

theorem FmtF.ofBits_pack (op sub : Nat) (f : FmtF) : FmtF.ofBits (Body.pack op sub (.ff f)) = f := by
  cases f
  simp only [FmtF.ofBits, Body.pack, packHeader, FmtF.mk.injEq]
  and_intros <;> simp (disch := omega) only [BitVec.extractLsb'_append_eq_of_le, BitVec.extractLsb'_append_eq_of_add_le,
    Nat.reduceSub, BitVec.extractLsb'_eq_self]

theorem FmtR.mod_pack (op sub : Nat) (f : FmtR) : (Body.pack op sub (.fr f)).extractLsb' 64 6 = f.mod :=
  congrArg FmtR.mod (FmtR.ofBits_pack op sub f)

theorem FmtP.mod_pack (op sub : Nat) (f : FmtP) : (Body.pack op sub (.fp f)).extractLsb' 64 6 = f.mod :=
  congrArg FmtP.mod (FmtP.ofBits_pack op sub f)

theorem FmtR.imm_pack (op sub : Nat) (f : FmtR) : (Body.pack op sub (.fr f)).extractLsb' 0 32 = f.imm :=
  congrArg FmtR.imm (FmtR.ofBits_pack op sub f)

theorem Body.op_pack (op sub : Nat) (b : Body) (h : op < 256) : ((Body.pack op sub b).extractLsb' 88 8).toNat = op := by
  cases b <;> simp (disch := omega) only [Body.pack, packHeader, BitVec.extractLsb'_append_eq_of_le,
    Nat.reduceSub, BitVec.extractLsb'_eq_self, BitVec.toNat_ofNat, Nat.mod_eq_of_lt]

theorem Body.sub_pack (op sub : Nat) (b : Body) (h : sub < 256) : ((Body.pack op sub b).extractLsb' 80 8).toNat = sub := by
  cases b <;> simp (disch := omega) only [Body.pack, packHeader, BitVec.extractLsb'_append_eq_of_le,
    BitVec.extractLsb'_append_eq_of_add_le, Nat.reduceSub, BitVec.extractLsb'_eq_self, BitVec.toNat_ofNat, Nat.mod_eq_of_lt]

/-- A packed word is decoded by its OP and SUB. -/
theorem decodeSlot_pack (op sub : Nat) (b : Body) (h : op < 256) (h2 : sub < 256) :
    decodeSlot (b.pack op sub) = decodeOpSub op sub (b.pack op sub) := by
  rw [decodeSlot, Body.op_pack op sub b h, Body.sub_pack op sub b h2]

/-- The encoding of a well-formed instruction decodes to it. -/
def Laws.RoundTrip.Statement (i : Instr) : Prop := i.wf = true → ∀ w, i.encode = some w → decodeSlot w = some i

/-! ## Instruction by instruction -/

theorem Laws.RoundTrip.nop (f : FmtR) : Laws.RoundTrip.Statement (.nop f) := by
  rintro - w h
  obtain rfl := Option.some.inj h
  exact (decodeSlot_pack 0x00 0x00 (.fr f) (by decide) (by decide)).trans (congrArg (some ∘ Instr.nop) (FmtR.ofBits_pack 0x00 0x00 f))

theorem Laws.RoundTrip.br (f : FmtB) : Laws.RoundTrip.Statement (.br f) := by
  rintro - w h
  obtain rfl := Option.some.inj h
  exact (decodeSlot_pack 0x01 0x00 (.fb f) (by decide) (by decide)).trans (congrArg (some ∘ Instr.br) (FmtB.ofBits_pack 0x01 0x00 f))

theorem Laws.RoundTrip.call (f : FmtB) : Laws.RoundTrip.Statement (.call f) := by
  rintro - w h
  obtain rfl := Option.some.inj h
  exact (decodeSlot_pack 0x02 0x00 (.fb f) (by decide) (by decide)).trans (congrArg (some ∘ Instr.call) (FmtB.ofBits_pack 0x02 0x00 f))

theorem Laws.RoundTrip.brc (f : FmtB) : Laws.RoundTrip.Statement (.brc f) := by
  rintro - w h
  obtain rfl := Option.some.inj h
  exact (decodeSlot_pack 0x03 0x00 (.fb f) (by decide) (by decide)).trans (congrArg (some ∘ Instr.brc) (FmtB.ofBits_pack 0x03 0x00 f))

theorem Laws.RoundTrip.dbnz (f : FmtB) : Laws.RoundTrip.Statement (.dbnz f) := by
  rintro - w h
  obtain rfl := Option.some.inj h
  exact (decodeSlot_pack 0x04 0x00 (.fb f) (by decide) (by decide)).trans (congrArg (some ∘ Instr.dbnz) (FmtB.ofBits_pack 0x04 0x00 f))

theorem Laws.RoundTrip.brx (f : FmtR) : Laws.RoundTrip.Statement (.brx f) := by
  rintro - w h
  obtain rfl := Option.some.inj h
  exact (decodeSlot_pack 0x05 0x00 (.fr f) (by decide) (by decide)).trans (congrArg (some ∘ Instr.brx) (FmtR.ofBits_pack 0x05 0x00 f))

theorem Laws.RoundTrip.jmp (f : FmtR) : Laws.RoundTrip.Statement (.jmp f) := by
  rintro - w h
  obtain rfl := Option.some.inj h
  exact (decodeSlot_pack 0x06 0x00 (.fr f) (by decide) (by decide)).trans (congrArg (some ∘ Instr.jmp) (FmtR.ofBits_pack 0x06 0x00 f))

theorem Laws.RoundTrip.flw (f : FmtR) : Laws.RoundTrip.Statement (.flw f) := by
  rintro - w h
  obtain rfl := Option.some.inj h
  exact (decodeSlot_pack 0x07 0x00 (.fr f) (by decide) (by decide)).trans (congrArg (some ∘ Instr.flw) (FmtR.ofBits_pack 0x07 0x00 f))

theorem Laws.RoundTrip.flx (f : FmtR) : Laws.RoundTrip.Statement (.flx f) := by
  rintro - w h
  obtain rfl := Option.some.inj h
  exact (decodeSlot_pack 0x07 0x01 (.fr f) (by decide) (by decide)).trans (congrArg (some ∘ Instr.flx) (FmtR.ofBits_pack 0x07 0x01 f))

theorem Laws.RoundTrip.ipf (f : FmtR) : Laws.RoundTrip.Statement (.ipf f) := by
  rintro - w h
  obtain rfl := Option.some.inj h
  exact (decodeSlot_pack 0x07 0x02 (.fr f) (by decide) (by decide)).trans (congrArg (some ∘ Instr.ipf) (FmtR.ofBits_pack 0x07 0x02 f))

theorem Laws.RoundTrip.tend (f : FmtR) : Laws.RoundTrip.Statement (.tend f) := by
  rintro - w h
  obtain rfl := Option.some.inj h
  exact (decodeSlot_pack 0x07 0x03 (.fr f) (by decide) (by decide)).trans (congrArg (some ∘ Instr.tend) (FmtR.ofBits_pack 0x07 0x03 f))

theorem Laws.RoundTrip.watch (f : FmtR) : Laws.RoundTrip.Statement (.watch f) := by
  rintro - w h
  obtain rfl := Option.some.inj h
  exact (decodeSlot_pack 0x07 0x04 (.fr f) (by decide) (by decide)).trans (congrArg (some ∘ Instr.watch) (FmtR.ofBits_pack 0x07 0x04 f))

theorem Laws.RoundTrip.waita (f : FmtR) : Laws.RoundTrip.Statement (.waita f) := by
  rintro - w h
  obtain rfl := Option.some.inj h
  exact (decodeSlot_pack 0x07 0x05 (.fr f) (by decide) (by decide)).trans (congrArg (some ∘ Instr.waita) (FmtR.ofBits_pack 0x07 0x05 f))

theorem Laws.RoundTrip.vwid (f : FmtR) : Laws.RoundTrip.Statement (.vwid f) := by
  rintro - w h
  obtain rfl := Option.some.inj h
  exact (decodeSlot_pack 0x07 0x06 (.fr f) (by decide) (by decide)).trans (congrArg (some ∘ Instr.vwid) (FmtR.ofBits_pack 0x07 0x06 f))

theorem Laws.RoundTrip.tstart (f : FmtR) : Laws.RoundTrip.Statement (.tstart f) := by
  rintro - w h
  obtain rfl := Option.some.inj h
  exact (decodeSlot_pack 0x08 0x00 (.fr f) (by decide) (by decide)).trans (congrArg (some ∘ Instr.tstart) (FmtR.ofBits_pack 0x08 0x00 f))

theorem Laws.RoundTrip.tstop (f : FmtR) : Laws.RoundTrip.Statement (.tstop f) := by
  rintro - w h
  obtain rfl := Option.some.inj h
  exact (decodeSlot_pack 0x08 0x01 (.fr f) (by decide) (by decide)).trans (congrArg (some ∘ Instr.tstop) (FmtR.ofBits_pack 0x08 0x01 f))

theorem Laws.RoundTrip.treap (f : FmtR) : Laws.RoundTrip.Statement (.treap f) := by
  rintro - w h
  obtain rfl := Option.some.inj h
  exact (decodeSlot_pack 0x08 0x02 (.fr f) (by decide) (by decide)).trans (congrArg (some ∘ Instr.treap) (FmtR.ofBits_pack 0x08 0x02 f))

theorem Laws.RoundTrip.tstat (f : FmtR) : Laws.RoundTrip.Statement (.tstat f) := by
  rintro - w h
  obtain rfl := Option.some.inj h
  exact (decodeSlot_pack 0x08 0x03 (.fr f) (by decide) (by decide)).trans (congrArg (some ∘ Instr.tstat) (FmtR.ofBits_pack 0x08 0x03 f))

theorem Laws.RoundTrip.trd (f : FmtR) : Laws.RoundTrip.Statement (.trd f) := by
  rintro - w h
  obtain rfl := Option.some.inj h
  exact (decodeSlot_pack 0x08 0x04 (.fr f) (by decide) (by decide)).trans (congrArg (some ∘ Instr.trd) (FmtR.ofBits_pack 0x08 0x04 f))

theorem Laws.RoundTrip.twr (f : FmtR) : Laws.RoundTrip.Statement (.twr f) := by
  rintro - w h
  obtain rfl := Option.some.inj h
  exact (decodeSlot_pack 0x08 0x05 (.fr f) (by decide) (by decide)).trans (congrArg (some ∘ Instr.twr) (FmtR.ofBits_pack 0x08 0x05 f))

theorem Laws.RoundTrip.tret (f : FmtR) : Laws.RoundTrip.Statement (.tret f) := by
  rintro - w h
  obtain rfl := Option.some.inj h
  exact (decodeSlot_pack 0x08 0x06 (.fr f) (by decide) (by decide)).trans (congrArg (some ∘ Instr.tret) (FmtR.ofBits_pack 0x08 0x06 f))

theorem Laws.RoundTrip.movs (f : FmtR) : Laws.RoundTrip.Statement (.movs f) := by
  rintro - w h
  obtain rfl := Option.some.inj h
  exact (decodeSlot_pack 0x09 0x00 (.fr f) (by decide) (by decide)).trans (congrArg (some ∘ Instr.movs) (FmtR.ofBits_pack 0x09 0x00 f))

theorem Laws.RoundTrip.sets (f : FmtR) : Laws.RoundTrip.Statement (.sets f) := by
  rintro - w h
  obtain rfl := Option.some.inj h
  exact (decodeSlot_pack 0x09 0x01 (.fr f) (by decide) (by decide)).trans (congrArg (some ∘ Instr.sets) (FmtR.ofBits_pack 0x09 0x01 f))

theorem Laws.RoundTrip.setsi (f : FmtI) : Laws.RoundTrip.Statement (.setsi f) := by
  rintro - w h
  obtain rfl := Option.some.inj h
  exact (decodeSlot_pack 0x0A 0x00 (.fi f) (by decide) (by decide)).trans (congrArg (some ∘ Instr.setsi) (FmtI.ofBits_pack 0x0A 0x00 f))

theorem Laws.RoundTrip.trap (f : FmtR) : Laws.RoundTrip.Statement (.trap f) := by
  rintro - w h
  obtain rfl := Option.some.inj h
  exact (decodeSlot_pack 0x0B 0x00 (.fr f) (by decide) (by decide)).trans (congrArg (some ∘ Instr.trap) (FmtR.ofBits_pack 0x0B 0x00 f))

theorem Laws.RoundTrip.brkp (f : FmtR) : Laws.RoundTrip.Statement (.brkp f) := by
  rintro - w h
  obtain rfl := Option.some.inj h
  exact (decodeSlot_pack 0x0B 0x01 (.fr f) (by decide) (by decide)).trans (congrArg (some ∘ Instr.brkp) (FmtR.ofBits_pack 0x0B 0x01 f))

theorem Laws.RoundTrip.sysc (f : FmtR) : Laws.RoundTrip.Statement (.sysc f) := by
  rintro - w h
  obtain rfl := Option.some.inj h
  exact (decodeSlot_pack 0x0B 0x02 (.fr f) (by decide) (by decide)).trans (congrArg (some ∘ Instr.sysc) (FmtR.ofBits_pack 0x0B 0x02 f))

theorem Laws.RoundTrip.fltrd (f : FmtR) : Laws.RoundTrip.Statement (.fltrd f) := by
  intro hw w h
  obtain rfl := Option.some.inj h
  simp [Instr.wf, Instr.selOk, Instr.view, Body.mod] at hw
  refine (decodeSlot_pack 0x0B 0x03 (.fr f) (by decide) (by decide)).trans ?_
  simp only [decodeOpSub, decodeOp0B, FmtR.mod_pack, FmtR.ofBits_pack]
  simp [hw]

theorem Laws.RoundTrip.fltrdPeek (f : FmtR) : Laws.RoundTrip.Statement (.fltrdPeek f) := by
  intro hw w h
  obtain rfl := Option.some.inj h
  simp [Instr.wf, Instr.selOk, Instr.view, Body.mod] at hw
  refine (decodeSlot_pack 0x0B 0x03 (.fr f) (by decide) (by decide)).trans ?_
  simp only [decodeOpSub, decodeOp0B, FmtR.mod_pack, FmtR.ofBits_pack]
  simp [hw]

theorem Laws.RoundTrip.capa (f : FmtR) : Laws.RoundTrip.Statement (.capa f) := by
  rintro - w h
  obtain rfl := Option.some.inj h
  exact (decodeSlot_pack 0x0B 0x04 (.fr f) (by decide) (by decide)).trans (congrArg (some ∘ Instr.capa) (FmtR.ofBits_pack 0x0B 0x04 f))

theorem Laws.RoundTrip.add (f : FmtR) : Laws.RoundTrip.Statement (.add f) := by
  rintro - w h
  obtain rfl := Option.some.inj h
  exact (decodeSlot_pack 0x10 0x00 (.fr f) (by decide) (by decide)).trans (congrArg (some ∘ Instr.add) (FmtR.ofBits_pack 0x10 0x00 f))

theorem Laws.RoundTrip.sub (f : FmtR) : Laws.RoundTrip.Statement (.sub f) := by
  rintro - w h
  obtain rfl := Option.some.inj h
  exact (decodeSlot_pack 0x10 0x01 (.fr f) (by decide) (by decide)).trans (congrArg (some ∘ Instr.sub) (FmtR.ofBits_pack 0x10 0x01 f))

theorem Laws.RoundTrip.mul (f : FmtR) : Laws.RoundTrip.Statement (.mul f) := by
  rintro - w h
  obtain rfl := Option.some.inj h
  exact (decodeSlot_pack 0x10 0x02 (.fr f) (by decide) (by decide)).trans (congrArg (some ∘ Instr.mul) (FmtR.ofBits_pack 0x10 0x02 f))

theorem Laws.RoundTrip.mulh (f : FmtR) : Laws.RoundTrip.Statement (.mulh f) := by
  rintro - w h
  obtain rfl := Option.some.inj h
  exact (decodeSlot_pack 0x10 0x03 (.fr f) (by decide) (by decide)).trans (congrArg (some ∘ Instr.mulh) (FmtR.ofBits_pack 0x10 0x03 f))

theorem Laws.RoundTrip.madd (f : FmtR) : Laws.RoundTrip.Statement (.madd f) := by
  rintro - w h
  obtain rfl := Option.some.inj h
  exact (decodeSlot_pack 0x10 0x04 (.fr f) (by decide) (by decide)).trans (congrArg (some ∘ Instr.madd) (FmtR.ofBits_pack 0x10 0x04 f))

theorem Laws.RoundTrip.div (f : FmtR) : Laws.RoundTrip.Statement (.div f) := by
  rintro - w h
  obtain rfl := Option.some.inj h
  exact (decodeSlot_pack 0x10 0x05 (.fr f) (by decide) (by decide)).trans (congrArg (some ∘ Instr.div) (FmtR.ofBits_pack 0x10 0x05 f))

theorem Laws.RoundTrip.rem (f : FmtR) : Laws.RoundTrip.Statement (.rem f) := by
  rintro - w h
  obtain rfl := Option.some.inj h
  exact (decodeSlot_pack 0x10 0x06 (.fr f) (by decide) (by decide)).trans (congrArg (some ∘ Instr.rem) (FmtR.ofBits_pack 0x10 0x06 f))

theorem Laws.RoundTrip.and (f : FmtR) : Laws.RoundTrip.Statement (.and f) := by
  rintro - w h
  obtain rfl := Option.some.inj h
  exact (decodeSlot_pack 0x10 0x07 (.fr f) (by decide) (by decide)).trans (congrArg (some ∘ Instr.and) (FmtR.ofBits_pack 0x10 0x07 f))

theorem Laws.RoundTrip.or (f : FmtR) : Laws.RoundTrip.Statement (.or f) := by
  rintro - w h
  obtain rfl := Option.some.inj h
  exact (decodeSlot_pack 0x10 0x08 (.fr f) (by decide) (by decide)).trans (congrArg (some ∘ Instr.or) (FmtR.ofBits_pack 0x10 0x08 f))

theorem Laws.RoundTrip.xor (f : FmtR) : Laws.RoundTrip.Statement (.xor f) := by
  rintro - w h
  obtain rfl := Option.some.inj h
  exact (decodeSlot_pack 0x10 0x09 (.fr f) (by decide) (by decide)).trans (congrArg (some ∘ Instr.xor) (FmtR.ofBits_pack 0x10 0x09 f))

theorem Laws.RoundTrip.shl (f : FmtR) : Laws.RoundTrip.Statement (.shl f) := by
  rintro - w h
  obtain rfl := Option.some.inj h
  exact (decodeSlot_pack 0x10 0x0A (.fr f) (by decide) (by decide)).trans (congrArg (some ∘ Instr.shl) (FmtR.ofBits_pack 0x10 0x0A f))

theorem Laws.RoundTrip.shr (f : FmtR) : Laws.RoundTrip.Statement (.shr f) := by
  rintro - w h
  obtain rfl := Option.some.inj h
  exact (decodeSlot_pack 0x10 0x0B (.fr f) (by decide) (by decide)).trans (congrArg (some ∘ Instr.shr) (FmtR.ofBits_pack 0x10 0x0B f))

theorem Laws.RoundTrip.sar (f : FmtR) : Laws.RoundTrip.Statement (.sar f) := by
  rintro - w h
  obtain rfl := Option.some.inj h
  exact (decodeSlot_pack 0x10 0x0C (.fr f) (by decide) (by decide)).trans (congrArg (some ∘ Instr.sar) (FmtR.ofBits_pack 0x10 0x0C f))

theorem Laws.RoundTrip.rol (f : FmtR) : Laws.RoundTrip.Statement (.rol f) := by
  rintro - w h
  obtain rfl := Option.some.inj h
  exact (decodeSlot_pack 0x10 0x0D (.fr f) (by decide) (by decide)).trans (congrArg (some ∘ Instr.rol) (FmtR.ofBits_pack 0x10 0x0D f))

theorem Laws.RoundTrip.min (f : FmtR) : Laws.RoundTrip.Statement (.min f) := by
  rintro - w h
  obtain rfl := Option.some.inj h
  exact (decodeSlot_pack 0x10 0x0E (.fr f) (by decide) (by decide)).trans (congrArg (some ∘ Instr.min) (FmtR.ofBits_pack 0x10 0x0E f))

theorem Laws.RoundTrip.max (f : FmtR) : Laws.RoundTrip.Statement (.max f) := by
  rintro - w h
  obtain rfl := Option.some.inj h
  exact (decodeSlot_pack 0x10 0x0F (.fr f) (by decide) (by decide)).trans (congrArg (some ∘ Instr.max) (FmtR.ofBits_pack 0x10 0x0F f))

theorem Laws.RoundTrip.sel (f : FmtR) : Laws.RoundTrip.Statement (.sel f) := by
  rintro - w h
  obtain rfl := Option.some.inj h
  exact (decodeSlot_pack 0x10 0x10 (.fr f) (by decide) (by decide)).trans (congrArg (some ∘ Instr.sel) (FmtR.ofBits_pack 0x10 0x10 f))

theorem Laws.RoundTrip.cmp (f : FmtR) : Laws.RoundTrip.Statement (.cmp f) := by
  rintro - w h
  obtain rfl := Option.some.inj h
  exact (decodeSlot_pack 0x10 0x11 (.fr f) (by decide) (by decide)).trans (congrArg (some ∘ Instr.cmp) (FmtR.ofBits_pack 0x10 0x11 f))

theorem Laws.RoundTrip.lea (f : FmtR) : Laws.RoundTrip.Statement (.lea f) := by
  rintro - w h
  obtain rfl := Option.some.inj h
  exact (decodeSlot_pack 0x10 0x12 (.fr f) (by decide) (by decide)).trans (congrArg (some ∘ Instr.lea) (FmtR.ofBits_pack 0x10 0x12 f))

theorem Laws.RoundTrip.addi (f : FmtI) : Laws.RoundTrip.Statement (.addi f) := by
  rintro - w h
  obtain rfl := Option.some.inj h
  exact (decodeSlot_pack 0x11 0x00 (.fi f) (by decide) (by decide)).trans (congrArg (some ∘ Instr.addi) (FmtI.ofBits_pack 0x11 0x00 f))

theorem Laws.RoundTrip.andi (f : FmtI) : Laws.RoundTrip.Statement (.andi f) := by
  rintro - w h
  obtain rfl := Option.some.inj h
  exact (decodeSlot_pack 0x11 0x01 (.fi f) (by decide) (by decide)).trans (congrArg (some ∘ Instr.andi) (FmtI.ofBits_pack 0x11 0x01 f))

theorem Laws.RoundTrip.ori (f : FmtI) : Laws.RoundTrip.Statement (.ori f) := by
  rintro - w h
  obtain rfl := Option.some.inj h
  exact (decodeSlot_pack 0x11 0x02 (.fi f) (by decide) (by decide)).trans (congrArg (some ∘ Instr.ori) (FmtI.ofBits_pack 0x11 0x02 f))

theorem Laws.RoundTrip.xori (f : FmtI) : Laws.RoundTrip.Statement (.xori f) := by
  rintro - w h
  obtain rfl := Option.some.inj h
  exact (decodeSlot_pack 0x11 0x03 (.fi f) (by decide) (by decide)).trans (congrArg (some ∘ Instr.xori) (FmtI.ofBits_pack 0x11 0x03 f))

theorem Laws.RoundTrip.shli (f : FmtI) : Laws.RoundTrip.Statement (.shli f) := by
  rintro - w h
  obtain rfl := Option.some.inj h
  exact (decodeSlot_pack 0x11 0x04 (.fi f) (by decide) (by decide)).trans (congrArg (some ∘ Instr.shli) (FmtI.ofBits_pack 0x11 0x04 f))

theorem Laws.RoundTrip.shri (f : FmtI) : Laws.RoundTrip.Statement (.shri f) := by
  rintro - w h
  obtain rfl := Option.some.inj h
  exact (decodeSlot_pack 0x11 0x05 (.fi f) (by decide) (by decide)).trans (congrArg (some ∘ Instr.shri) (FmtI.ofBits_pack 0x11 0x05 f))

theorem Laws.RoundTrip.sari (f : FmtI) : Laws.RoundTrip.Statement (.sari f) := by
  rintro - w h
  obtain rfl := Option.some.inj h
  exact (decodeSlot_pack 0x11 0x06 (.fi f) (by decide) (by decide)).trans (congrArg (some ∘ Instr.sari) (FmtI.ofBits_pack 0x11 0x06 f))

theorem Laws.RoundTrip.cmpi (f : FmtI) : Laws.RoundTrip.Statement (.cmpi f) := by
  rintro - w h
  obtain rfl := Option.some.inj h
  exact (decodeSlot_pack 0x11 0x07 (.fi f) (by decide) (by decide)).trans (congrArg (some ∘ Instr.cmpi) (FmtI.ofBits_pack 0x11 0x07 f))

theorem Laws.RoundTrip.li (f : FmtI) : Laws.RoundTrip.Statement (.li f) := by
  rintro - w h
  obtain rfl := Option.some.inj h
  exact (decodeSlot_pack 0x11 0x08 (.fi f) (by decide) (by decide)).trans (congrArg (some ∘ Instr.li) (FmtI.ofBits_pack 0x11 0x08 f))

theorem Laws.RoundTrip.lih (f : FmtI) : Laws.RoundTrip.Statement (.lih f) := by
  rintro - w h
  obtain rfl := Option.some.inj h
  exact (decodeSlot_pack 0x11 0x09 (.fi f) (by decide) (by decide)).trans (congrArg (some ∘ Instr.lih) (FmtI.ofBits_pack 0x11 0x09 f))

theorem Laws.RoundTrip.addpc (f : FmtI) : Laws.RoundTrip.Statement (.addpc f) := by
  rintro - w h
  obtain rfl := Option.some.inj h
  exact (decodeSlot_pack 0x11 0x0A (.fi f) (by decide) (by decide)).trans (congrArg (some ∘ Instr.addpc) (FmtI.ofBits_pack 0x11 0x0A f))

theorem Laws.RoundTrip.clz (f : FmtR) : Laws.RoundTrip.Statement (.clz f) := by
  rintro - w h
  obtain rfl := Option.some.inj h
  exact (decodeSlot_pack 0x12 0x00 (.fr f) (by decide) (by decide)).trans (congrArg (some ∘ Instr.clz) (FmtR.ofBits_pack 0x12 0x00 f))

theorem Laws.RoundTrip.ctz (f : FmtR) : Laws.RoundTrip.Statement (.ctz f) := by
  rintro - w h
  obtain rfl := Option.some.inj h
  exact (decodeSlot_pack 0x12 0x01 (.fr f) (by decide) (by decide)).trans (congrArg (some ∘ Instr.ctz) (FmtR.ofBits_pack 0x12 0x01 f))

theorem Laws.RoundTrip.popc (f : FmtR) : Laws.RoundTrip.Statement (.popc f) := by
  rintro - w h
  obtain rfl := Option.some.inj h
  exact (decodeSlot_pack 0x12 0x02 (.fr f) (by decide) (by decide)).trans (congrArg (some ∘ Instr.popc) (FmtR.ofBits_pack 0x12 0x02 f))

theorem Laws.RoundTrip.bswap (f : FmtR) : Laws.RoundTrip.Statement (.bswap f) := by
  rintro - w h
  obtain rfl := Option.some.inj h
  exact (decodeSlot_pack 0x12 0x03 (.fr f) (by decide) (by decide)).trans (congrArg (some ∘ Instr.bswap) (FmtR.ofBits_pack 0x12 0x03 f))

theorem Laws.RoundTrip.bfx (f : FmtR) : Laws.RoundTrip.Statement (.bfx f) := by
  rintro - w h
  obtain rfl := Option.some.inj h
  exact (decodeSlot_pack 0x12 0x04 (.fr f) (by decide) (by decide)).trans (congrArg (some ∘ Instr.bfx) (FmtR.ofBits_pack 0x12 0x04 f))

theorem Laws.RoundTrip.bfi (f : FmtR) : Laws.RoundTrip.Statement (.bfi f) := by
  rintro - w h
  obtain rfl := Option.some.inj h
  exact (decodeSlot_pack 0x12 0x05 (.fr f) (by decide) (by decide)).trans (congrArg (some ∘ Instr.bfi) (FmtR.ofBits_pack 0x12 0x05 f))

theorem Laws.RoundTrip.abs (f : FmtR) : Laws.RoundTrip.Statement (.abs f) := by
  rintro - w h
  obtain rfl := Option.some.inj h
  exact (decodeSlot_pack 0x12 0x06 (.fr f) (by decide) (by decide)).trans (congrArg (some ∘ Instr.abs) (FmtR.ofBits_pack 0x12 0x06 f))

theorem Laws.RoundTrip.ext (f : FmtR) : Laws.RoundTrip.Statement (.ext f) := by
  rintro - w h
  obtain rfl := Option.some.inj h
  exact (decodeSlot_pack 0x12 0x07 (.fr f) (by decide) (by decide)).trans (congrArg (some ∘ Instr.ext) (FmtR.ofBits_pack 0x12 0x07 f))

theorem Laws.RoundTrip.vadd (f : FmtR) : Laws.RoundTrip.Statement (.vadd f) := by
  rintro - w h
  obtain rfl := Option.some.inj h
  exact (decodeSlot_pack 0x30 0x00 (.fr f) (by decide) (by decide)).trans (congrArg (some ∘ Instr.vadd) (FmtR.ofBits_pack 0x30 0x00 f))

theorem Laws.RoundTrip.vsub (f : FmtR) : Laws.RoundTrip.Statement (.vsub f) := by
  rintro - w h
  obtain rfl := Option.some.inj h
  exact (decodeSlot_pack 0x30 0x01 (.fr f) (by decide) (by decide)).trans (congrArg (some ∘ Instr.vsub) (FmtR.ofBits_pack 0x30 0x01 f))

theorem Laws.RoundTrip.vmul (f : FmtR) : Laws.RoundTrip.Statement (.vmul f) := by
  rintro - w h
  obtain rfl := Option.some.inj h
  exact (decodeSlot_pack 0x30 0x02 (.fr f) (by decide) (by decide)).trans (congrArg (some ∘ Instr.vmul) (FmtR.ofBits_pack 0x30 0x02 f))

theorem Laws.RoundTrip.vfma (f : FmtR) : Laws.RoundTrip.Statement (.vfma f) := by
  rintro - w h
  obtain rfl := Option.some.inj h
  exact (decodeSlot_pack 0x30 0x03 (.fr f) (by decide) (by decide)).trans (congrArg (some ∘ Instr.vfma) (FmtR.ofBits_pack 0x30 0x03 f))

theorem Laws.RoundTrip.vmin (f : FmtR) : Laws.RoundTrip.Statement (.vmin f) := by
  rintro - w h
  obtain rfl := Option.some.inj h
  exact (decodeSlot_pack 0x30 0x04 (.fr f) (by decide) (by decide)).trans (congrArg (some ∘ Instr.vmin) (FmtR.ofBits_pack 0x30 0x04 f))

theorem Laws.RoundTrip.vmax (f : FmtR) : Laws.RoundTrip.Statement (.vmax f) := by
  rintro - w h
  obtain rfl := Option.some.inj h
  exact (decodeSlot_pack 0x30 0x05 (.fr f) (by decide) (by decide)).trans (congrArg (some ∘ Instr.vmax) (FmtR.ofBits_pack 0x30 0x05 f))

theorem Laws.RoundTrip.vabs (f : FmtR) : Laws.RoundTrip.Statement (.vabs f) := by
  rintro - w h
  obtain rfl := Option.some.inj h
  exact (decodeSlot_pack 0x30 0x06 (.fr f) (by decide) (by decide)).trans (congrArg (some ∘ Instr.vabs) (FmtR.ofBits_pack 0x30 0x06 f))

theorem Laws.RoundTrip.vand (f : FmtR) : Laws.RoundTrip.Statement (.vand f) := by
  rintro - w h
  obtain rfl := Option.some.inj h
  exact (decodeSlot_pack 0x30 0x07 (.fr f) (by decide) (by decide)).trans (congrArg (some ∘ Instr.vand) (FmtR.ofBits_pack 0x30 0x07 f))

theorem Laws.RoundTrip.vor (f : FmtR) : Laws.RoundTrip.Statement (.vor f) := by
  rintro - w h
  obtain rfl := Option.some.inj h
  exact (decodeSlot_pack 0x30 0x08 (.fr f) (by decide) (by decide)).trans (congrArg (some ∘ Instr.vor) (FmtR.ofBits_pack 0x30 0x08 f))

theorem Laws.RoundTrip.vxor (f : FmtR) : Laws.RoundTrip.Statement (.vxor f) := by
  rintro - w h
  obtain rfl := Option.some.inj h
  exact (decodeSlot_pack 0x30 0x09 (.fr f) (by decide) (by decide)).trans (congrArg (some ∘ Instr.vxor) (FmtR.ofBits_pack 0x30 0x09 f))

theorem Laws.RoundTrip.vshl (f : FmtR) : Laws.RoundTrip.Statement (.vshl f) := by
  rintro - w h
  obtain rfl := Option.some.inj h
  exact (decodeSlot_pack 0x30 0x0A (.fr f) (by decide) (by decide)).trans (congrArg (some ∘ Instr.vshl) (FmtR.ofBits_pack 0x30 0x0A f))

theorem Laws.RoundTrip.vshr (f : FmtR) : Laws.RoundTrip.Statement (.vshr f) := by
  rintro - w h
  obtain rfl := Option.some.inj h
  exact (decodeSlot_pack 0x30 0x0B (.fr f) (by decide) (by decide)).trans (congrArg (some ∘ Instr.vshr) (FmtR.ofBits_pack 0x30 0x0B f))

theorem Laws.RoundTrip.vsar (f : FmtR) : Laws.RoundTrip.Statement (.vsar f) := by
  rintro - w h
  obtain rfl := Option.some.inj h
  exact (decodeSlot_pack 0x30 0x0C (.fr f) (by decide) (by decide)).trans (congrArg (some ∘ Instr.vsar) (FmtR.ofBits_pack 0x30 0x0C f))

theorem Laws.RoundTrip.vsel (f : FmtR) : Laws.RoundTrip.Statement (.vsel f) := by
  rintro - w h
  obtain rfl := Option.some.inj h
  exact (decodeSlot_pack 0x30 0x0D (.fr f) (by decide) (by decide)).trans (congrArg (some ∘ Instr.vsel) (FmtR.ofBits_pack 0x30 0x0D f))

theorem Laws.RoundTrip.vclamp (f : FmtR) : Laws.RoundTrip.Statement (.vclamp f) := by
  rintro - w h
  obtain rfl := Option.some.inj h
  exact (decodeSlot_pack 0x30 0x0E (.fr f) (by decide) (by decide)).trans (congrArg (some ∘ Instr.vclamp) (FmtR.ofBits_pack 0x30 0x0E f))

theorem Laws.RoundTrip.vdiv (f : FmtR) : Laws.RoundTrip.Statement (.vdiv f) := by
  rintro - w h
  obtain rfl := Option.some.inj h
  exact (decodeSlot_pack 0x31 0x00 (.fr f) (by decide) (by decide)).trans (congrArg (some ∘ Instr.vdiv) (FmtR.ofBits_pack 0x31 0x00 f))

theorem Laws.RoundTrip.vsqrt (f : FmtR) : Laws.RoundTrip.Statement (.vsqrt f) := by
  rintro - w h
  obtain rfl := Option.some.inj h
  exact (decodeSlot_pack 0x31 0x01 (.fr f) (by decide) (by decide)).trans (congrArg (some ∘ Instr.vsqrt) (FmtR.ofBits_pack 0x31 0x01 f))

theorem Laws.RoundTrip.vcmp (f : FmtR) : Laws.RoundTrip.Statement (.vcmp f) := by
  rintro - w h
  obtain rfl := Option.some.inj h
  exact (decodeSlot_pack 0x32 0x00 (.fr f) (by decide) (by decide)).trans (congrArg (some ∘ Instr.vcmp) (FmtR.ofBits_pack 0x32 0x00 f))

theorem Laws.RoundTrip.vcvt (f : FmtR) : Laws.RoundTrip.Statement (.vcvt f) := by
  rintro - w h
  obtain rfl := Option.some.inj h
  exact (decodeSlot_pack 0x33 0x00 (.fr f) (by decide) (by decide)).trans (congrArg (some ∘ Instr.vcvt) (FmtR.ofBits_pack 0x33 0x00 f))

theorem Laws.RoundTrip.vsplit (f : FmtR) : Laws.RoundTrip.Statement (.vsplit f) := by
  rintro - w h
  obtain rfl := Option.some.inj h
  exact (decodeSlot_pack 0x33 0x01 (.fr f) (by decide) (by decide)).trans (congrArg (some ∘ Instr.vsplit) (FmtR.ofBits_pack 0x33 0x01 f))

theorem Laws.RoundTrip.vqnt (f : FmtR) : Laws.RoundTrip.Statement (.vqnt f) := by
  rintro - w h
  obtain rfl := Option.some.inj h
  exact (decodeSlot_pack 0x33 0x02 (.fr f) (by decide) (by decide)).trans (congrArg (some ∘ Instr.vqnt) (FmtR.ofBits_pack 0x33 0x02 f))

theorem Laws.RoundTrip.vdqnt (f : FmtR) : Laws.RoundTrip.Statement (.vdqnt f) := by
  rintro - w h
  obtain rfl := Option.some.inj h
  exact (decodeSlot_pack 0x33 0x03 (.fr f) (by decide) (by decide)).trans (congrArg (some ∘ Instr.vdqnt) (FmtR.ofBits_pack 0x33 0x03 f))

theorem Laws.RoundTrip.vlmul (f : FmtR) : Laws.RoundTrip.Statement (.vlmul f) := by
  rintro - w h
  obtain rfl := Option.some.inj h
  exact (decodeSlot_pack 0x33 0x04 (.fr f) (by decide) (by decide)).trans (congrArg (some ∘ Instr.vlmul) (FmtR.ofBits_pack 0x33 0x04 f))

theorem Laws.RoundTrip.vlacc (f : FmtR) : Laws.RoundTrip.Statement (.vlacc f) := by
  rintro - w h
  obtain rfl := Option.some.inj h
  exact (decodeSlot_pack 0x33 0x05 (.fr f) (by decide) (by decide)).trans (congrArg (some ∘ Instr.vlacc) (FmtR.ofBits_pack 0x33 0x05 f))

theorem Laws.RoundTrip.vdot (f : FmtR) : Laws.RoundTrip.Statement (.vdot f) := by
  rintro - w h
  obtain rfl := Option.some.inj h
  exact (decodeSlot_pack 0x33 0x06 (.fr f) (by decide) (by decide)).trans (congrArg (some ∘ Instr.vdot) (FmtR.ofBits_pack 0x33 0x06 f))

theorem Laws.RoundTrip.baddq (f : FmtR) : Laws.RoundTrip.Statement (.baddq f) := by
  rintro - w h
  obtain rfl := Option.some.inj h
  exact (decodeSlot_pack 0x33 0x07 (.fr f) (by decide) (by decide)).trans (congrArg (some ∘ Instr.baddq) (FmtR.ofBits_pack 0x33 0x07 f))

theorem Laws.RoundTrip.vsplat (f : FmtR) : Laws.RoundTrip.Statement (.vsplat f) := by
  rintro - w h
  obtain rfl := Option.some.inj h
  exact (decodeSlot_pack 0x34 0x00 (.fr f) (by decide) (by decide)).trans (congrArg (some ∘ Instr.vsplat) (FmtR.ofBits_pack 0x34 0x00 f))

theorem Laws.RoundTrip.vins (f : FmtR) : Laws.RoundTrip.Statement (.vins f) := by
  rintro - w h
  obtain rfl := Option.some.inj h
  exact (decodeSlot_pack 0x34 0x01 (.fr f) (by decide) (by decide)).trans (congrArg (some ∘ Instr.vins) (FmtR.ofBits_pack 0x34 0x01 f))

theorem Laws.RoundTrip.vext (f : FmtR) : Laws.RoundTrip.Statement (.vext f) := by
  rintro - w h
  obtain rfl := Option.some.inj h
  exact (decodeSlot_pack 0x34 0x02 (.fr f) (by decide) (by decide)).trans (congrArg (some ∘ Instr.vext) (FmtR.ofBits_pack 0x34 0x02 f))

theorem Laws.RoundTrip.viota (f : FmtR) : Laws.RoundTrip.Statement (.viota f) := by
  rintro - w h
  obtain rfl := Option.some.inj h
  exact (decodeSlot_pack 0x34 0x03 (.fr f) (by decide) (by decide)).trans (congrArg (some ∘ Instr.viota) (FmtR.ofBits_pack 0x34 0x03 f))

theorem Laws.RoundTrip.vperm (f : FmtR) : Laws.RoundTrip.Statement (.vperm f) := by
  rintro - w h
  obtain rfl := Option.some.inj h
  exact (decodeSlot_pack 0x34 0x04 (.fr f) (by decide) (by decide)).trans (congrArg (some ∘ Instr.vperm) (FmtR.ofBits_pack 0x34 0x04 f))

theorem Laws.RoundTrip.vmov (f : FmtR) : Laws.RoundTrip.Statement (.vmov f) := by
  rintro - w h
  obtain rfl := Option.some.inj h
  exact (decodeSlot_pack 0x34 0x05 (.fr f) (by decide) (by decide)).trans (congrArg (some ∘ Instr.vmov) (FmtR.ofBits_pack 0x34 0x05 f))

theorem Laws.RoundTrip.vred (f : FmtR) : Laws.RoundTrip.Statement (.vred f) := by
  rintro - w h
  obtain rfl := Option.some.inj h
  exact (decodeSlot_pack 0x35 0x00 (.fr f) (by decide) (by decide)).trans (congrArg (some ∘ Instr.vred) (FmtR.ofBits_pack 0x35 0x00 f))

theorem Laws.RoundTrip.vscan (f : FmtR) : Laws.RoundTrip.Statement (.vscan f) := by
  rintro - w h
  obtain rfl := Option.some.inj h
  exact (decodeSlot_pack 0x35 0x01 (.fr f) (by decide) (by decide)).trans (congrArg (some ∘ Instr.vscan) (FmtR.ofBits_pack 0x35 0x01 f))

theorem Laws.RoundTrip.plt (f : FmtR) : Laws.RoundTrip.Statement (.plt f) := by
  rintro - w h
  obtain rfl := Option.some.inj h
  exact (decodeSlot_pack 0x36 0x00 (.fr f) (by decide) (by decide)).trans (congrArg (some ∘ Instr.plt) (FmtR.ofBits_pack 0x36 0x00 f))

theorem Laws.RoundTrip.pset (f : FmtR) : Laws.RoundTrip.Statement (.pset f) := by
  rintro - w h
  obtain rfl := Option.some.inj h
  exact (decodeSlot_pack 0x36 0x01 (.fr f) (by decide) (by decide)).trans (congrArg (some ∘ Instr.pset) (FmtR.ofBits_pack 0x36 0x01 f))

theorem Laws.RoundTrip.pand (f : FmtR) : Laws.RoundTrip.Statement (.pand f) := by
  rintro - w h
  obtain rfl := Option.some.inj h
  exact (decodeSlot_pack 0x36 0x02 (.fr f) (by decide) (by decide)).trans (congrArg (some ∘ Instr.pand) (FmtR.ofBits_pack 0x36 0x02 f))

theorem Laws.RoundTrip.por (f : FmtR) : Laws.RoundTrip.Statement (.por f) := by
  rintro - w h
  obtain rfl := Option.some.inj h
  exact (decodeSlot_pack 0x36 0x03 (.fr f) (by decide) (by decide)).trans (congrArg (some ∘ Instr.por) (FmtR.ofBits_pack 0x36 0x03 f))

theorem Laws.RoundTrip.pxor (f : FmtR) : Laws.RoundTrip.Statement (.pxor f) := by
  rintro - w h
  obtain rfl := Option.some.inj h
  exact (decodeSlot_pack 0x36 0x04 (.fr f) (by decide) (by decide)).trans (congrArg (some ∘ Instr.pxor) (FmtR.ofBits_pack 0x36 0x04 f))

theorem Laws.RoundTrip.pnot (f : FmtR) : Laws.RoundTrip.Statement (.pnot f) := by
  rintro - w h
  obtain rfl := Option.some.inj h
  exact (decodeSlot_pack 0x36 0x05 (.fr f) (by decide) (by decide)).trans (congrArg (some ∘ Instr.pnot) (FmtR.ofBits_pack 0x36 0x05 f))

theorem Laws.RoundTrip.pcnt (f : FmtR) : Laws.RoundTrip.Statement (.pcnt f) := by
  rintro - w h
  obtain rfl := Option.some.inj h
  exact (decodeSlot_pack 0x36 0x06 (.fr f) (by decide) (by decide)).trans (congrArg (some ∘ Instr.pcnt) (FmtR.ofBits_pack 0x36 0x06 f))

theorem Laws.RoundTrip.pfirst (f : FmtR) : Laws.RoundTrip.Statement (.pfirst f) := by
  rintro - w h
  obtain rfl := Option.some.inj h
  exact (decodeSlot_pack 0x36 0x07 (.fr f) (by decide) (by decide)).trans (congrArg (some ∘ Instr.pfirst) (FmtR.ofBits_pack 0x36 0x07 f))

theorem Laws.RoundTrip.mma (f : FmtR) : Laws.RoundTrip.Statement (.mma f) := by
  rintro - w h
  obtain rfl := Option.some.inj h
  exact (decodeSlot_pack 0x50 0x00 (.fr f) (by decide) (by decide)).trans (congrArg (some ∘ Instr.mma) (FmtR.ofBits_pack 0x50 0x00 f))

theorem Laws.RoundTrip.mzero (f : FmtR) : Laws.RoundTrip.Statement (.mzero f) := by
  rintro - w h
  obtain rfl := Option.some.inj h
  exact (decodeSlot_pack 0x51 0x00 (.fr f) (by decide) (by decide)).trans (congrArg (some ∘ Instr.mzero) (FmtR.ofBits_pack 0x51 0x00 f))

theorem Laws.RoundTrip.mrd (f : FmtR) : Laws.RoundTrip.Statement (.mrd f) := by
  rintro - w h
  obtain rfl := Option.some.inj h
  exact (decodeSlot_pack 0x51 0x01 (.fr f) (by decide) (by decide)).trans (congrArg (some ∘ Instr.mrd) (FmtR.ofBits_pack 0x51 0x01 f))

theorem Laws.RoundTrip.mwr (f : FmtR) : Laws.RoundTrip.Statement (.mwr f) := by
  rintro - w h
  obtain rfl := Option.some.inj h
  exact (decodeSlot_pack 0x51 0x02 (.fr f) (by decide) (by decide)).trans (congrArg (some ∘ Instr.mwr) (FmtR.ofBits_pack 0x51 0x02 f))

theorem Laws.RoundTrip.mstat (f : FmtR) : Laws.RoundTrip.Statement (.mstat f) := by
  intro hw w h
  obtain rfl := Option.some.inj h
  simp [Instr.wf, Instr.selOk, Instr.view, Body.mod] at hw
  refine (decodeSlot_pack 0x51 0x03 (.fr f) (by decide) (by decide)).trans ?_
  simp only [decodeOpSub, decodeOp51, FmtR.mod_pack, FmtR.ofBits_pack]
  simp [hw]

theorem Laws.RoundTrip.mstatW (f : FmtR) : Laws.RoundTrip.Statement (.mstatW f) := by
  intro hw w h
  obtain rfl := Option.some.inj h
  simp [Instr.wf, Instr.selOk, Instr.view, Body.mod] at hw
  refine (decodeSlot_pack 0x51 0x03 (.fr f) (by decide) (by decide)).trans ?_
  simp only [decodeOpSub, decodeOp51, FmtR.mod_pack, FmtR.ofBits_pack]
  simp [hw]

theorem Laws.RoundTrip.wbld (f : FmtP) : Laws.RoundTrip.Statement (.wbld f) := by
  rintro - w h
  obtain rfl := Option.some.inj h
  exact (decodeSlot_pack 0x52 0x00 (.fp f) (by decide) (by decide)).trans (congrArg (some ∘ Instr.wbld) (FmtP.ofBits_pack 0x52 0x00 f))

theorem Laws.RoundTrip.wbinv (f : FmtP) : Laws.RoundTrip.Statement (.wbinv f) := by
  rintro - w h
  obtain rfl := Option.some.inj h
  exact (decodeSlot_pack 0x52 0x01 (.fp f) (by decide) (by decide)).trans (congrArg (some ∘ Instr.wbinv) (FmtP.ofBits_pack 0x52 0x01 f))

theorem Laws.RoundTrip.mload (f : FmtP) : Laws.RoundTrip.Statement (.mload f) := by
  rintro - w h
  obtain rfl := Option.some.inj h
  exact (decodeSlot_pack 0x53 0x00 (.fp f) (by decide) (by decide)).trans (congrArg (some ∘ Instr.mload) (FmtP.ofBits_pack 0x53 0x00 f))

theorem Laws.RoundTrip.mdrain (f : FmtP) : Laws.RoundTrip.Statement (.mdrain f) := by
  rintro - w h
  obtain rfl := Option.some.inj h
  exact (decodeSlot_pack 0x54 0x00 (.fp f) (by decide) (by decide)).trans (congrArg (some ∘ Instr.mdrain) (FmtP.ofBits_pack 0x54 0x00 f))

theorem Laws.RoundTrip.ld (f : FmtR) : Laws.RoundTrip.Statement (.ld f) := by
  rintro - w h
  obtain rfl := Option.some.inj h
  exact (decodeSlot_pack 0x60 0x00 (.fr f) (by decide) (by decide)).trans (congrArg (some ∘ Instr.ld) (FmtR.ofBits_pack 0x60 0x00 f))

theorem Laws.RoundTrip.st (f : FmtR) : Laws.RoundTrip.Statement (.st f) := by
  rintro - w h
  obtain rfl := Option.some.inj h
  exact (decodeSlot_pack 0x61 0x00 (.fr f) (by decide) (by decide)).trans (congrArg (some ∘ Instr.st) (FmtR.ofBits_pack 0x61 0x00 f))

theorem Laws.RoundTrip.ldv (f : FmtR) : Laws.RoundTrip.Statement (.ldv f) := by
  rintro - w h
  obtain rfl := Option.some.inj h
  exact (decodeSlot_pack 0x62 0x00 (.fr f) (by decide) (by decide)).trans (congrArg (some ∘ Instr.ldv) (FmtR.ofBits_pack 0x62 0x00 f))

theorem Laws.RoundTrip.stv (f : FmtR) : Laws.RoundTrip.Statement (.stv f) := by
  rintro - w h
  obtain rfl := Option.some.inj h
  exact (decodeSlot_pack 0x63 0x00 (.fr f) (by decide) (by decide)).trans (congrArg (some ∘ Instr.stv) (FmtR.ofBits_pack 0x63 0x00 f))

theorem Laws.RoundTrip.gth (f : FmtR) : Laws.RoundTrip.Statement (.gth f) := by
  rintro - w h
  obtain rfl := Option.some.inj h
  exact (decodeSlot_pack 0x64 0x00 (.fr f) (by decide) (by decide)).trans (congrArg (some ∘ Instr.gth) (FmtR.ofBits_pack 0x64 0x00 f))

theorem Laws.RoundTrip.sct (f : FmtR) : Laws.RoundTrip.Statement (.sct f) := by
  rintro - w h
  obtain rfl := Option.some.inj h
  exact (decodeSlot_pack 0x65 0x00 (.fr f) (by decide) (by decide)).trans (congrArg (some ∘ Instr.sct) (FmtR.ofBits_pack 0x65 0x00 f))

theorem Laws.RoundTrip.amo (f : FmtR) : Laws.RoundTrip.Statement (.amo f) := by
  rintro - w h
  obtain rfl := Option.some.inj h
  exact (decodeSlot_pack 0x66 0x00 (.fr f) (by decide) (by decide)).trans (congrArg (some ∘ Instr.amo) (FmtR.ofBits_pack 0x66 0x00 f))

theorem Laws.RoundTrip.cas (f : FmtR) : Laws.RoundTrip.Statement (.cas f) := by
  rintro - w h
  obtain rfl := Option.some.inj h
  exact (decodeSlot_pack 0x66 0x01 (.fr f) (by decide) (by decide)).trans (congrArg (some ∘ Instr.cas) (FmtR.ofBits_pack 0x66 0x01 f))

theorem Laws.RoundTrip.amov (f : FmtR) : Laws.RoundTrip.Statement (.amov f) := by
  rintro - w h
  obtain rfl := Option.some.inj h
  exact (decodeSlot_pack 0x66 0x02 (.fr f) (by decide) (by decide)).trans (congrArg (some ∘ Instr.amov) (FmtR.ofBits_pack 0x66 0x02 f))

theorem Laws.RoundTrip.sbindIn (f : FmtR) : Laws.RoundTrip.Statement (.sbindIn f) := by
  intro hw w h
  obtain rfl := Option.some.inj h
  simp [Instr.wf, Instr.selOk, Instr.view, Body.imm] at hw
  refine (decodeSlot_pack 0x67 0x00 (.fr f) (by decide) (by decide)).trans ?_
  simp only [decodeOpSub, decodeOp67, FmtR.imm_pack, FmtR.ofBits_pack]
  rcases hw with hw | hw <;> simp [hw]

theorem Laws.RoundTrip.sbindOut (f : FmtR) : Laws.RoundTrip.Statement (.sbindOut f) := by
  intro hw w h
  obtain rfl := Option.some.inj h
  simp [Instr.wf, Instr.selOk, Instr.view, Body.imm] at hw
  refine (decodeSlot_pack 0x67 0x00 (.fr f) (by decide) (by decide)).trans ?_
  simp only [decodeOpSub, decodeOp67, FmtR.imm_pack, FmtR.ofBits_pack]
  simp [hw]

theorem Laws.RoundTrip.sbindQ (f : FmtR) : Laws.RoundTrip.Statement (.sbindQ f) := by
  intro hw w h
  obtain rfl := Option.some.inj h
  simp [Instr.wf, Instr.selOk, Instr.view, Body.imm] at hw
  refine (decodeSlot_pack 0x67 0x00 (.fr f) (by decide) (by decide)).trans ?_
  simp only [decodeOpSub, decodeOp67, FmtR.imm_pack, FmtR.ofBits_pack]
  simp [hw]

theorem Laws.RoundTrip.sunbind (f : FmtR) : Laws.RoundTrip.Statement (.sunbind f) := by
  rintro - w h
  obtain rfl := Option.some.inj h
  exact (decodeSlot_pack 0x67 0x01 (.fr f) (by decide) (by decide)).trans (congrArg (some ∘ Instr.sunbind) (FmtR.ofBits_pack 0x67 0x01 f))

theorem Laws.RoundTrip.sstat (f : FmtR) : Laws.RoundTrip.Statement (.sstat f) := by
  rintro - w h
  obtain rfl := Option.some.inj h
  exact (decodeSlot_pack 0x67 0x02 (.fr f) (by decide) (by decide)).trans (congrArg (some ∘ Instr.sstat) (FmtR.ofBits_pack 0x67 0x02 f))

theorem Laws.RoundTrip.cpy (f : FmtP) : Laws.RoundTrip.Statement (.cpy f) := by
  rintro - w h
  obtain rfl := Option.some.inj h
  exact (decodeSlot_pack 0x68 0x00 (.fp f) (by decide) (by decide)).trans (congrArg (some ∘ Instr.cpy) (FmtP.ofBits_pack 0x68 0x00 f))

theorem Laws.RoundTrip.mcast (f : FmtP) : Laws.RoundTrip.Statement (.mcast f) := by
  rintro - w h
  obtain rfl := Option.some.inj h
  exact (decodeSlot_pack 0x68 0x01 (.fp f) (by decide) (by decide)).trans (congrArg (some ∘ Instr.mcast) (FmtP.ofBits_pack 0x68 0x01 f))

theorem Laws.RoundTrip.rfill (f : FmtP) : Laws.RoundTrip.Statement (.rfill f) := by
  rintro - w h
  obtain rfl := Option.some.inj h
  exact (decodeSlot_pack 0x68 0x02 (.fp f) (by decide) (by decide)).trans (congrArg (some ∘ Instr.rfill) (FmtP.ofBits_pack 0x68 0x02 f))

theorem Laws.RoundTrip.cpyc (f : FmtP) : Laws.RoundTrip.Statement (.cpyc f) := by
  rintro - w h
  obtain rfl := Option.some.inj h
  exact (decodeSlot_pack 0x68 0x03 (.fp f) (by decide) (by decide)).trans (congrArg (some ∘ Instr.cpyc) (FmtP.ofBits_pack 0x68 0x03 f))

theorem Laws.RoundTrip.eseq (f : FmtP) : Laws.RoundTrip.Statement (.eseq f) := by
  intro hw w h
  obtain rfl := Option.some.inj h
  simp [Instr.wf, Instr.selOk, Instr.view, Body.mod] at hw
  refine (decodeSlot_pack 0x68 0x04 (.fp f) (by decide) (by decide)).trans ?_
  simp only [decodeOpSub, decodeOp68, FmtP.mod_pack, FmtP.ofBits_pack]
  rcases hw with hw | hw <;> simp [hw]

theorem Laws.RoundTrip.eseqGo (f : FmtP) : Laws.RoundTrip.Statement (.eseqGo f) := by
  intro hw w h
  obtain rfl := Option.some.inj h
  simp [Instr.wf, Instr.selOk, Instr.view, Body.mod] at hw
  refine (decodeSlot_pack 0x68 0x04 (.fp f) (by decide) (by decide)).trans ?_
  simp only [decodeOpSub, decodeOp68, FmtP.mod_pack, FmtP.ofBits_pack]
  simp [hw]

theorem Laws.RoundTrip.eseqDrop (f : FmtP) : Laws.RoundTrip.Statement (.eseqDrop f) := by
  intro hw w h
  obtain rfl := Option.some.inj h
  simp [Instr.wf, Instr.selOk, Instr.view, Body.mod] at hw
  refine (decodeSlot_pack 0x68 0x04 (.fp f) (by decide) (by decide)).trans ?_
  simp only [decodeOpSub, decodeOp68, FmtP.mod_pack, FmtP.ofBits_pack]
  simp [hw]

theorem Laws.RoundTrip.ewait (f : FmtP) : Laws.RoundTrip.Statement (.ewait f) := by
  rintro - w h
  obtain rfl := Option.some.inj h
  exact (decodeSlot_pack 0x68 0x05 (.fp f) (by decide) (by decide)).trans (congrArg (some ∘ Instr.ewait) (FmtP.ofBits_pack 0x68 0x05 f))

theorem Laws.RoundTrip.fencex (f : FmtR) : Laws.RoundTrip.Statement (.fencex f) := by
  rintro - w h
  obtain rfl := Option.some.inj h
  exact (decodeSlot_pack 0x69 0x00 (.fr f) (by decide) (by decide)).trans (congrArg (some ∘ Instr.fencex) (FmtR.ofBits_pack 0x69 0x00 f))

theorem Laws.RoundTrip.cwb (f : FmtR) : Laws.RoundTrip.Statement (.cwb f) := by
  rintro - w h
  obtain rfl := Option.some.inj h
  exact (decodeSlot_pack 0x69 0x01 (.fr f) (by decide) (by decide)).trans (congrArg (some ∘ Instr.cwb) (FmtR.ofBits_pack 0x69 0x01 f))

theorem Laws.RoundTrip.fdmode (f : FmtR) : Laws.RoundTrip.Statement (.fdmode f) := by
  rintro - w h
  obtain rfl := Option.some.inj h
  exact (decodeSlot_pack 0x70 0x00 (.fr f) (by decide) (by decide)).trans (congrArg (some ∘ Instr.fdmode) (FmtR.ofBits_pack 0x70 0x00 f))

theorem Laws.RoundTrip.fdwait (f : FmtR) : Laws.RoundTrip.Statement (.fdwait f) := by
  rintro - w h
  obtain rfl := Option.some.inj h
  exact (decodeSlot_pack 0x70 0x01 (.fr f) (by decide) (by decide)).trans (congrArg (some ∘ Instr.fdwait) (FmtR.ofBits_pack 0x70 0x01 f))

theorem Laws.RoundTrip.fdstat (f : FmtR) : Laws.RoundTrip.Statement (.fdstat f) := by
  intro hw w h
  obtain rfl := Option.some.inj h
  simp [Instr.wf, Instr.selOk, Instr.view, Body.mod] at hw
  refine (decodeSlot_pack 0x70 0x02 (.fr f) (by decide) (by decide)).trans ?_
  simp only [decodeOpSub, decodeOp70, FmtR.mod_pack, FmtR.ofBits_pack]
  rcases hw with hw | hw <;> simp [hw]

theorem Laws.RoundTrip.fdstatGo (f : FmtR) : Laws.RoundTrip.Statement (.fdstatGo f) := by
  intro hw w h
  obtain rfl := Option.some.inj h
  simp [Instr.wf, Instr.selOk, Instr.view, Body.mod] at hw
  refine (decodeSlot_pack 0x70 0x02 (.fr f) (by decide) (by decide)).trans ?_
  simp only [decodeOpSub, decodeOp70, FmtR.mod_pack, FmtR.ofBits_pack]
  simp [hw]

theorem Laws.RoundTrip.fdstatDrop (f : FmtR) : Laws.RoundTrip.Statement (.fdstatDrop f) := by
  intro hw w h
  obtain rfl := Option.some.inj h
  simp [Instr.wf, Instr.selOk, Instr.view, Body.mod] at hw
  refine (decodeSlot_pack 0x70 0x02 (.fr f) (by decide) (by decide)).trans ?_
  simp only [decodeOpSub, decodeOp70, FmtR.mod_pack, FmtR.ofBits_pack]
  simp [hw]

theorem Laws.RoundTrip.fdin (f : FmtP) : Laws.RoundTrip.Statement (.fdin f) := by
  rintro - w h
  obtain rfl := Option.some.inj h
  exact (decodeSlot_pack 0x71 0x00 (.fp f) (by decide) (by decide)).trans (congrArg (some ∘ Instr.fdin) (FmtP.ofBits_pack 0x71 0x00 f))

theorem Laws.RoundTrip.fdout (f : FmtP) : Laws.RoundTrip.Statement (.fdout f) := by
  rintro - w h
  obtain rfl := Option.some.inj h
  exact (decodeSlot_pack 0x71 0x01 (.fp f) (by decide) (by decide)).trans (congrArg (some ∘ Instr.fdout) (FmtP.ofBits_pack 0x71 0x01 f))

theorem Laws.RoundTrip.fdadd (f : FmtF) : Laws.RoundTrip.Statement (.fdadd f) := by
  rintro - w h
  obtain rfl := Option.some.inj h
  exact (decodeSlot_pack 0x72 0x00 (.ff f) (by decide) (by decide)).trans (congrArg (some ∘ Instr.fdadd) (FmtF.ofBits_pack 0x72 0x00 f))

theorem Laws.RoundTrip.fdsub (f : FmtF) : Laws.RoundTrip.Statement (.fdsub f) := by
  rintro - w h
  obtain rfl := Option.some.inj h
  exact (decodeSlot_pack 0x72 0x01 (.ff f) (by decide) (by decide)).trans (congrArg (some ∘ Instr.fdsub) (FmtF.ofBits_pack 0x72 0x01 f))

theorem Laws.RoundTrip.fdmul (f : FmtF) : Laws.RoundTrip.Statement (.fdmul f) := by
  rintro - w h
  obtain rfl := Option.some.inj h
  exact (decodeSlot_pack 0x72 0x02 (.ff f) (by decide) (by decide)).trans (congrArg (some ∘ Instr.fdmul) (FmtF.ofBits_pack 0x72 0x02 f))

theorem Laws.RoundTrip.fdcmp (f : FmtF) : Laws.RoundTrip.Statement (.fdcmp f) := by
  rintro - w h
  obtain rfl := Option.some.inj h
  exact (decodeSlot_pack 0x72 0x03 (.ff f) (by decide) (by decide)).trans (congrArg (some ∘ Instr.fdcmp) (FmtF.ofBits_pack 0x72 0x03 f))

theorem Laws.RoundTrip.fdsel (f : FmtF) : Laws.RoundTrip.Statement (.fdsel f) := by
  rintro - w h
  obtain rfl := Option.some.inj h
  exact (decodeSlot_pack 0x72 0x04 (.ff f) (by decide) (by decide)).trans (congrArg (some ∘ Instr.fdsel) (FmtF.ofBits_pack 0x72 0x04 f))

theorem Laws.RoundTrip.fdbit (f : FmtF) : Laws.RoundTrip.Statement (.fdbit f) := by
  rintro - w h
  obtain rfl := Option.some.inj h
  exact (decodeSlot_pack 0x72 0x05 (.ff f) (by decide) (by decide)).trans (congrArg (some ∘ Instr.fdbit) (FmtF.ofBits_pack 0x72 0x05 f))

theorem Laws.RoundTrip.fdmin (f : FmtF) : Laws.RoundTrip.Statement (.fdmin f) := by
  rintro - w h
  obtain rfl := Option.some.inj h
  exact (decodeSlot_pack 0x72 0x06 (.ff f) (by decide) (by decide)).trans (congrArg (some ∘ Instr.fdmin) (FmtF.ofBits_pack 0x72 0x06 f))

theorem Laws.RoundTrip.fdmax (f : FmtF) : Laws.RoundTrip.Statement (.fdmax f) := by
  rintro - w h
  obtain rfl := Option.some.inj h
  exact (decodeSlot_pack 0x72 0x07 (.ff f) (by decide) (by decide)).trans (congrArg (some ∘ Instr.fdmax) (FmtF.ofBits_pack 0x72 0x07 f))

theorem Laws.RoundTrip.fdlmul (f : FmtF) : Laws.RoundTrip.Statement (.fdlmul f) := by
  rintro - w h
  obtain rfl := Option.some.inj h
  exact (decodeSlot_pack 0x72 0x08 (.ff f) (by decide) (by decide)).trans (congrArg (some ∘ Instr.fdlmul) (FmtF.ofBits_pack 0x72 0x08 f))

theorem Laws.RoundTrip.fdrq (f : FmtF) : Laws.RoundTrip.Statement (.fdrq f) := by
  rintro - w h
  obtain rfl := Option.some.inj h
  exact (decodeSlot_pack 0x72 0x09 (.ff f) (by decide) (by decide)).trans (congrArg (some ∘ Instr.fdrq) (FmtF.ofBits_pack 0x72 0x09 f))

theorem Laws.RoundTrip.fdpop (f : FmtF) : Laws.RoundTrip.Statement (.fdpop f) := by
  rintro - w h
  obtain rfl := Option.some.inj h
  exact (decodeSlot_pack 0x72 0x0A (.ff f) (by decide) (by decide)).trans (congrArg (some ∘ Instr.fdpop) (FmtF.ofBits_pack 0x72 0x0A f))

theorem Laws.RoundTrip.kprb (f : FmtR) : Laws.RoundTrip.Statement (.kprb f) := by
  rintro - w h
  obtain rfl := Option.some.inj h
  exact (decodeSlot_pack 0x78 0x00 (.fr f) (by decide) (by decide)).trans (congrArg (some ∘ Instr.kprb) (FmtR.ofBits_pack 0x78 0x00 f))

theorem Laws.RoundTrip.kins (f : FmtR) : Laws.RoundTrip.Statement (.kins f) := by
  rintro - w h
  obtain rfl := Option.some.inj h
  exact (decodeSlot_pack 0x78 0x01 (.fr f) (by decide) (by decide)).trans (congrArg (some ∘ Instr.kins) (FmtR.ofBits_pack 0x78 0x01 f))

theorem Laws.RoundTrip.kups (f : FmtR) : Laws.RoundTrip.Statement (.kups f) := by
  intro hw w h
  obtain rfl := Option.some.inj h
  simp [Instr.wf, Instr.selOk, Instr.view, Body.mod] at hw
  refine (decodeSlot_pack 0x78 0x02 (.fr f) (by decide) (by decide)).trans ?_
  simp only [decodeOpSub, decodeOp78, FmtR.mod_pack, FmtR.ofBits_pack]
  simp [hw]

theorem Laws.RoundTrip.kupsPost (f : FmtR) : Laws.RoundTrip.Statement (.kupsPost f) := by
  intro hw w h
  obtain rfl := Option.some.inj h
  simp [Instr.wf, Instr.selOk, Instr.view, Body.mod] at hw
  refine (decodeSlot_pack 0x78 0x02 (.fr f) (by decide) (by decide)).trans ?_
  simp only [decodeOpSub, decodeOp78, FmtR.mod_pack, FmtR.ofBits_pack]
  simp [hw]

theorem Laws.RoundTrip.kdel (f : FmtR) : Laws.RoundTrip.Statement (.kdel f) := by
  rintro - w h
  obtain rfl := Option.some.inj h
  exact (decodeSlot_pack 0x78 0x03 (.fr f) (by decide) (by decide)).trans (congrArg (some ∘ Instr.kdel) (FmtR.ofBits_pack 0x78 0x03 f))

theorem Laws.RoundTrip.kprbv (f : FmtR) : Laws.RoundTrip.Statement (.kprbv f) := by
  rintro - w h
  obtain rfl := Option.some.inj h
  exact (decodeSlot_pack 0x78 0x04 (.fr f) (by decide) (by decide)).trans (congrArg (some ∘ Instr.kprbv) (FmtR.ofBits_pack 0x78 0x04 f))

theorem Laws.RoundTrip.kupsv (f : FmtR) : Laws.RoundTrip.Statement (.kupsv f) := by
  intro hw w h
  obtain rfl := Option.some.inj h
  simp [Instr.wf, Instr.selOk, Instr.view, Body.mod] at hw
  refine (decodeSlot_pack 0x78 0x05 (.fr f) (by decide) (by decide)).trans ?_
  simp only [decodeOpSub, decodeOp78, FmtR.mod_pack, FmtR.ofBits_pack]
  simp [hw]

theorem Laws.RoundTrip.kupsvPost (f : FmtR) : Laws.RoundTrip.Statement (.kupsvPost f) := by
  intro hw w h
  obtain rfl := Option.some.inj h
  simp [Instr.wf, Instr.selOk, Instr.view, Body.mod] at hw
  refine (decodeSlot_pack 0x78 0x05 (.fr f) (by decide) (by decide)).trans ?_
  simp only [decodeOpSub, decodeOp78, FmtR.mod_pack, FmtR.ofBits_pack]
  simp [hw]

theorem Laws.RoundTrip.knew (f : FmtR) : Laws.RoundTrip.Statement (.knew f) := by
  rintro - w h
  obtain rfl := Option.some.inj h
  exact (decodeSlot_pack 0x79 0x00 (.fr f) (by decide) (by decide)).trans (congrArg (some ∘ Instr.knew) (FmtR.ofBits_pack 0x79 0x00 f))

theorem Laws.RoundTrip.kbind (f : FmtR) : Laws.RoundTrip.Statement (.kbind f) := by
  rintro - w h
  obtain rfl := Option.some.inj h
  exact (decodeSlot_pack 0x79 0x01 (.fr f) (by decide) (by decide)).trans (congrArg (some ∘ Instr.kbind) (FmtR.ofBits_pack 0x79 0x01 f))

theorem Laws.RoundTrip.kstat (f : FmtR) : Laws.RoundTrip.Statement (.kstat f) := by
  rintro - w h
  obtain rfl := Option.some.inj h
  exact (decodeSlot_pack 0x79 0x02 (.fr f) (by decide) (by decide)).trans (congrArg (some ∘ Instr.kstat) (FmtR.ofBits_pack 0x79 0x02 f))

theorem Laws.RoundTrip.khash (f : FmtR) : Laws.RoundTrip.Statement (.khash f) := by
  rintro - w h
  obtain rfl := Option.some.inj h
  exact (decodeSlot_pack 0x79 0x03 (.fr f) (by decide) (by decide)).trans (congrArg (some ∘ Instr.khash) (FmtR.ofBits_pack 0x79 0x03 f))

theorem Laws.RoundTrip.kiter (f : FmtR) : Laws.RoundTrip.Statement (.kiter f) := by
  rintro - w h
  obtain rfl := Option.some.inj h
  exact (decodeSlot_pack 0x79 0x04 (.fr f) (by decide) (by decide)).trans (congrArg (some ∘ Instr.kiter) (FmtR.ofBits_pack 0x79 0x04 f))

theorem Laws.RoundTrip.kclr (f : FmtR) : Laws.RoundTrip.Statement (.kclr f) := by
  rintro - w h
  obtain rfl := Option.some.inj h
  exact (decodeSlot_pack 0x79 0x05 (.fr f) (by decide) (by decide)).trans (congrArg (some ∘ Instr.kclr) (FmtR.ofBits_pack 0x79 0x05 f))

theorem Laws.RoundTrip.xmig (f : FmtR) : Laws.RoundTrip.Statement (.xmig f) := by
  rintro - w h
  obtain rfl := Option.some.inj h
  exact (decodeSlot_pack 0x80 0x00 (.fr f) (by decide) (by decide)).trans (congrArg (some ∘ Instr.xmig) (FmtR.ofBits_pack 0x80 0x00 f))

theorem Laws.RoundTrip.xret (f : FmtR) : Laws.RoundTrip.Statement (.xret f) := by
  rintro - w h
  obtain rfl := Option.some.inj h
  exact (decodeSlot_pack 0x80 0x01 (.fr f) (by decide) (by decide)).trans (congrArg (some ∘ Instr.xret) (FmtR.ofBits_pack 0x80 0x01 f))

theorem Laws.RoundTrip.xupd (f : FmtR) : Laws.RoundTrip.Statement (.xupd f) := by
  rintro - w h
  obtain rfl := Option.some.inj h
  exact (decodeSlot_pack 0x80 0x02 (.fr f) (by decide) (by decide)).trans (congrArg (some ∘ Instr.xupd) (FmtR.ofBits_pack 0x80 0x02 f))

theorem Laws.RoundTrip.xnrm (f : FmtR) : Laws.RoundTrip.Statement (.xnrm f) := by
  rintro - w h
  obtain rfl := Option.some.inj h
  exact (decodeSlot_pack 0x80 0x03 (.fr f) (by decide) (by decide)).trans (congrArg (some ∘ Instr.xnrm) (FmtR.ofBits_pack 0x80 0x03 f))

theorem Laws.RoundTrip.xovl (f : FmtR) : Laws.RoundTrip.Statement (.xovl f) := by
  rintro - w h
  obtain rfl := Option.some.inj h
  exact (decodeSlot_pack 0x80 0x04 (.fr f) (by decide) (by decide)).trans (congrArg (some ∘ Instr.xovl) (FmtR.ofBits_pack 0x80 0x04 f))

theorem Laws.RoundTrip.xrlk (f : FmtR) : Laws.RoundTrip.Statement (.xrlk f) := by
  rintro - w h
  obtain rfl := Option.some.inj h
  exact (decodeSlot_pack 0x80 0x05 (.fr f) (by decide) (by decide)).trans (congrArg (some ∘ Instr.xrlk) (FmtR.ofBits_pack 0x80 0x05 f))

theorem Laws.RoundTrip.xrul (f : FmtR) : Laws.RoundTrip.Statement (.xrul f) := by
  rintro - w h
  obtain rfl := Option.some.inj h
  exact (decodeSlot_pack 0x80 0x06 (.fr f) (by decide) (by decide)).trans (congrArg (some ∘ Instr.xrul) (FmtR.ofBits_pack 0x80 0x06 f))

theorem Laws.RoundTrip.send (f : FmtR) : Laws.RoundTrip.Statement (.send f) := by
  intro hw w h
  obtain rfl := Option.some.inj h
  simp [Instr.wf, Instr.selOk, Instr.view, Body.mod] at hw
  refine (decodeSlot_pack 0x88 0x00 (.fr f) (by decide) (by decide)).trans ?_
  simp only [decodeOpSub, decodeOp88, FmtR.mod_pack, FmtR.ofBits_pack]
  rcases hw with hw | hw <;> simp [hw]

theorem Laws.RoundTrip.sendR (f : FmtR) : Laws.RoundTrip.Statement (.sendR f) := by
  intro hw w h
  obtain rfl := Option.some.inj h
  simp [Instr.wf, Instr.selOk, Instr.view, Body.mod] at hw
  refine (decodeSlot_pack 0x88 0x00 (.fr f) (by decide) (by decide)).trans ?_
  simp only [decodeOpSub, decodeOp88, FmtR.mod_pack, FmtR.ofBits_pack]
  simp [hw]

theorem Laws.RoundTrip.sendFar (f : FmtR) : Laws.RoundTrip.Statement (.sendFar f) := by
  intro hw w h
  obtain rfl := Option.some.inj h
  simp [Instr.wf, Instr.selOk, Instr.view, Body.mod] at hw
  refine (decodeSlot_pack 0x88 0x00 (.fr f) (by decide) (by decide)).trans ?_
  simp only [decodeOpSub, decodeOp88, FmtR.mod_pack, FmtR.ofBits_pack]
  simp [hw]

theorem Laws.RoundTrip.recv (f : FmtR) : Laws.RoundTrip.Statement (.recv f) := by
  intro hw w h
  obtain rfl := Option.some.inj h
  simp [Instr.wf, Instr.selOk, Instr.view, Body.mod] at hw
  refine (decodeSlot_pack 0x88 0x01 (.fr f) (by decide) (by decide)).trans ?_
  simp only [decodeOpSub, decodeOp88, FmtR.mod_pack, FmtR.ofBits_pack]
  simp [hw]

theorem Laws.RoundTrip.recvNw (f : FmtR) : Laws.RoundTrip.Statement (.recvNw f) := by
  intro hw w h
  obtain rfl := Option.some.inj h
  simp [Instr.wf, Instr.selOk, Instr.view, Body.mod] at hw
  refine (decodeSlot_pack 0x88 0x01 (.fr f) (by decide) (by decide)).trans ?_
  simp only [decodeOpSub, decodeOp88, FmtR.mod_pack, FmtR.ofBits_pack]
  simp [hw]

theorem Laws.RoundTrip.lback (f : FmtR) : Laws.RoundTrip.Statement (.lback f) := by
  rintro - w h
  obtain rfl := Option.some.inj h
  exact (decodeSlot_pack 0x88 0x02 (.fr f) (by decide) (by decide)).trans (congrArg (some ∘ Instr.lback) (FmtR.ofBits_pack 0x88 0x02 f))

theorem Laws.RoundTrip.istat (f : FmtR) : Laws.RoundTrip.Statement (.istat f) := by
  rintro - w h
  obtain rfl := Option.some.inj h
  exact (decodeSlot_pack 0x88 0x03 (.fr f) (by decide) (by decide)).trans (congrArg (some ∘ Instr.istat) (FmtR.ofBits_pack 0x88 0x03 f))

theorem Laws.RoundTrip.spawn (f : FmtR) : Laws.RoundTrip.Statement (.spawn f) := by
  rintro - w h
  obtain rfl := Option.some.inj h
  exact (decodeSlot_pack 0x89 0x00 (.fr f) (by decide) (by decide)).trans (congrArg (some ∘ Instr.spawn) (FmtR.ofBits_pack 0x89 0x00 f))

theorem Laws.RoundTrip.join (f : FmtR) : Laws.RoundTrip.Statement (.join f) := by
  rintro - w h
  obtain rfl := Option.some.inj h
  exact (decodeSlot_pack 0x89 0x01 (.fr f) (by decide) (by decide)).trans (congrArg (some ∘ Instr.join) (FmtR.ofBits_pack 0x89 0x01 f))

theorem Laws.RoundTrip.tnext (f : FmtR) : Laws.RoundTrip.Statement (.tnext f) := by
  rintro - w h
  obtain rfl := Option.some.inj h
  exact (decodeSlot_pack 0x89 0x02 (.fr f) (by decide) (by decide)).trans (congrArg (some ∘ Instr.tnext) (FmtR.ofBits_pack 0x89 0x02 f))

theorem Laws.RoundTrip.steal (f : FmtR) : Laws.RoundTrip.Statement (.steal f) := by
  rintro - w h
  obtain rfl := Option.some.inj h
  exact (decodeSlot_pack 0x89 0x03 (.fr f) (by decide) (by decide)).trans (congrArg (some ∘ Instr.steal) (FmtR.ofBits_pack 0x89 0x03 f))

theorem Laws.RoundTrip.qpub (f : FmtR) : Laws.RoundTrip.Statement (.qpub f) := by
  intro hw w h
  obtain rfl := Option.some.inj h
  simp [Instr.wf, Instr.selOk, Instr.view, Body.mod] at hw
  refine (decodeSlot_pack 0x8A 0x00 (.fr f) (by decide) (by decide)).trans ?_
  simp only [decodeOpSub, decodeOp8A, FmtR.mod_pack, FmtR.ofBits_pack]
  simp [hw]

theorem Laws.RoundTrip.qpubGw (f : FmtR) : Laws.RoundTrip.Statement (.qpubGw f) := by
  intro hw w h
  obtain rfl := Option.some.inj h
  simp [Instr.wf, Instr.selOk, Instr.view, Body.mod] at hw
  refine (decodeSlot_pack 0x8A 0x00 (.fr f) (by decide) (by decide)).trans ?_
  simp only [decodeOpSub, decodeOp8A, FmtR.mod_pack, FmtR.ofBits_pack]
  simp [hw]

theorem Laws.RoundTrip.qclm (f : FmtR) : Laws.RoundTrip.Statement (.qclm f) := by
  intro hw w h
  obtain rfl := Option.some.inj h
  simp [Instr.wf, Instr.selOk, Instr.view, Body.mod] at hw
  refine (decodeSlot_pack 0x8A 0x01 (.fr f) (by decide) (by decide)).trans ?_
  simp only [decodeOpSub, decodeOp8A, FmtR.mod_pack, FmtR.ofBits_pack]
  simp [hw]

theorem Laws.RoundTrip.qclmGw (f : FmtR) : Laws.RoundTrip.Statement (.qclmGw f) := by
  intro hw w h
  obtain rfl := Option.some.inj h
  simp [Instr.wf, Instr.selOk, Instr.view, Body.mod] at hw
  refine (decodeSlot_pack 0x8A 0x01 (.fr f) (by decide) (by decide)).trans ?_
  simp only [decodeOpSub, decodeOp8A, FmtR.mod_pack, FmtR.ofBits_pack]
  simp [hw]

theorem Laws.RoundTrip.qstat (f : FmtR) : Laws.RoundTrip.Statement (.qstat f) := by
  intro hw w h
  obtain rfl := Option.some.inj h
  simp [Instr.wf, Instr.selOk, Instr.view, Body.mod] at hw
  refine (decodeSlot_pack 0x8A 0x02 (.fr f) (by decide) (by decide)).trans ?_
  simp only [decodeOpSub, decodeOp8A, FmtR.mod_pack, FmtR.ofBits_pack]
  simp [hw]

theorem Laws.RoundTrip.qstatGw (f : FmtR) : Laws.RoundTrip.Statement (.qstatGw f) := by
  intro hw w h
  obtain rfl := Option.some.inj h
  simp [Instr.wf, Instr.selOk, Instr.view, Body.mod] at hw
  refine (decodeSlot_pack 0x8A 0x02 (.fr f) (by decide) (by decide)).trans ?_
  simp only [decodeOpSub, decodeOp8A, FmtR.mod_pack, FmtR.ofBits_pack]
  simp [hw]

theorem Laws.RoundTrip.nred (f : FmtR) : Laws.RoundTrip.Statement (.nred f) := by
  rintro - w h
  obtain rfl := Option.some.inj h
  exact (decodeSlot_pack 0x8B 0x00 (.fr f) (by decide) (by decide)).trans (congrArg (some ∘ Instr.nred) (FmtR.ofBits_pack 0x8B 0x00 f))

theorem Laws.RoundTrip.lnch (f : FmtR) : Laws.RoundTrip.Statement (.lnch f) := by
  rintro - w h
  obtain rfl := Option.some.inj h
  exact (decodeSlot_pack 0x8B 0x01 (.fr f) (by decide) (by decide)).trans (congrArg (some ∘ Instr.lnch) (FmtR.ofBits_pack 0x8B 0x01 f))

theorem Laws.RoundTrip.prmt (f : FmtR) : Laws.RoundTrip.Statement (.prmt f) := by
  intro hw w h
  obtain rfl := Option.some.inj h
  simp [Instr.wf, Instr.selOk, Instr.view, Body.mod] at hw
  refine (decodeSlot_pack 0x8B 0x02 (.fr f) (by decide) (by decide)).trans ?_
  simp only [decodeOpSub, decodeOp8B, FmtR.mod_pack, FmtR.ofBits_pack]
  simp [hw]

theorem Laws.RoundTrip.prmtL (f : FmtR) : Laws.RoundTrip.Statement (.prmtL f) := by
  intro hw w h
  obtain rfl := Option.some.inj h
  simp [Instr.wf, Instr.selOk, Instr.view, Body.mod] at hw
  refine (decodeSlot_pack 0x8B 0x02 (.fr f) (by decide) (by decide)).trans ?_
  simp only [decodeOpSub, decodeOp8B, FmtR.mod_pack, FmtR.ofBits_pack]
  simp [hw]

theorem Laws.RoundTrip.resm (f : FmtR) : Laws.RoundTrip.Statement (.resm f) := by
  intro hw w h
  obtain rfl := Option.some.inj h
  simp [Instr.wf, Instr.selOk, Instr.view, Body.mod] at hw
  refine (decodeSlot_pack 0x8B 0x03 (.fr f) (by decide) (by decide)).trans ?_
  simp only [decodeOpSub, decodeOp8B, FmtR.mod_pack, FmtR.ofBits_pack]
  simp [hw]

theorem Laws.RoundTrip.resmL (f : FmtR) : Laws.RoundTrip.Statement (.resmL f) := by
  intro hw w h
  obtain rfl := Option.some.inj h
  simp [Instr.wf, Instr.selOk, Instr.view, Body.mod] at hw
  refine (decodeSlot_pack 0x8B 0x03 (.fr f) (by decide) (by decide)).trans ?_
  simp only [decodeOpSub, decodeOp8B, FmtR.mod_pack, FmtR.ofBits_pack]
  simp [hw]

theorem Laws.RoundTrip.capnew (f : FmtR) : Laws.RoundTrip.Statement (.capnew f) := by
  rintro - w h
  obtain rfl := Option.some.inj h
  exact (decodeSlot_pack 0x90 0x00 (.fr f) (by decide) (by decide)).trans (congrArg (some ∘ Instr.capnew) (FmtR.ofBits_pack 0x90 0x00 f))

theorem Laws.RoundTrip.capwait (f : FmtR) : Laws.RoundTrip.Statement (.capwait f) := by
  intro hw w h
  obtain rfl := Option.some.inj h
  simp [Instr.wf, Instr.selOk, Instr.view, Body.mod] at hw
  refine (decodeSlot_pack 0x90 0x01 (.fr f) (by decide) (by decide)).trans ?_
  simp only [decodeOpSub, decodeOp90, FmtR.mod_pack, FmtR.ofBits_pack]
  simp [hw]

theorem Laws.RoundTrip.capwaitNw (f : FmtR) : Laws.RoundTrip.Statement (.capwaitNw f) := by
  intro hw w h
  obtain rfl := Option.some.inj h
  simp [Instr.wf, Instr.selOk, Instr.view, Body.mod] at hw
  refine (decodeSlot_pack 0x90 0x01 (.fr f) (by decide) (by decide)).trans ?_
  simp only [decodeOpSub, decodeOp90, FmtR.mod_pack, FmtR.ofBits_pack]
  simp [hw]

theorem Laws.RoundTrip.capnext (f : FmtR) : Laws.RoundTrip.Statement (.capnext f) := by
  rintro - w h
  obtain rfl := Option.some.inj h
  exact (decodeSlot_pack 0x90 0x02 (.fr f) (by decide) (by decide)).trans (congrArg (some ∘ Instr.capnext) (FmtR.ofBits_pack 0x90 0x02 f))

theorem Laws.RoundTrip.capins (f : FmtR) : Laws.RoundTrip.Statement (.capins f) := by
  rintro - w h
  obtain rfl := Option.some.inj h
  exact (decodeSlot_pack 0x90 0x03 (.fr f) (by decide) (by decide)).trans (congrArg (some ∘ Instr.capins) (FmtR.ofBits_pack 0x90 0x03 f))

theorem Laws.RoundTrip.capdel (f : FmtR) : Laws.RoundTrip.Statement (.capdel f) := by
  rintro - w h
  obtain rfl := Option.some.inj h
  exact (decodeSlot_pack 0x90 0x04 (.fr f) (by decide) (by decide)).trans (congrArg (some ∘ Instr.capdel) (FmtR.ofBits_pack 0x90 0x04 f))

theorem Laws.RoundTrip.capset (f : FmtR) : Laws.RoundTrip.Statement (.capset f) := by
  rintro - w h
  obtain rfl := Option.some.inj h
  exact (decodeSlot_pack 0x90 0x05 (.fr f) (by decide) (by decide)).trans (congrArg (some ∘ Instr.capset) (FmtR.ofBits_pack 0x90 0x05 f))

theorem Laws.RoundTrip.capget (f : FmtR) : Laws.RoundTrip.Statement (.capget f) := by
  rintro - w h
  obtain rfl := Option.some.inj h
  exact (decodeSlot_pack 0x90 0x06 (.fr f) (by decide) (by decide)).trans (congrArg (some ∘ Instr.capget) (FmtR.ofBits_pack 0x90 0x06 f))

theorem Laws.RoundTrip.cappark (f : FmtR) : Laws.RoundTrip.Statement (.cappark f) := by
  rintro - w h
  obtain rfl := Option.some.inj h
  exact (decodeSlot_pack 0x90 0x07 (.fr f) (by decide) (by decide)).trans (congrArg (some ∘ Instr.cappark) (FmtR.ofBits_pack 0x90 0x07 f))

theorem Laws.RoundTrip.capdone (f : FmtR) : Laws.RoundTrip.Statement (.capdone f) := by
  rintro - w h
  obtain rfl := Option.some.inj h
  exact (decodeSlot_pack 0x90 0x08 (.fr f) (by decide) (by decide)).trans (congrArg (some ∘ Instr.capdone) (FmtR.ofBits_pack 0x90 0x08 f))

theorem Laws.RoundTrip.plset (f : FmtR) : Laws.RoundTrip.Statement (.plset f) := by
  rintro - w h
  obtain rfl := Option.some.inj h
  exact (decodeSlot_pack 0x98 0x00 (.fr f) (by decide) (by decide)).trans (congrArg (some ∘ Instr.plset) (FmtR.ofBits_pack 0x98 0x00 f))

theorem Laws.RoundTrip.plget (f : FmtR) : Laws.RoundTrip.Statement (.plget f) := by
  rintro - w h
  obtain rfl := Option.some.inj h
  exact (decodeSlot_pack 0x98 0x01 (.fr f) (by decide) (by decide)).trans (congrArg (some ∘ Instr.plget) (FmtR.ofBits_pack 0x98 0x01 f))

theorem Laws.RoundTrip.plinv (f : FmtR) : Laws.RoundTrip.Statement (.plinv f) := by
  rintro - w h
  obtain rfl := Option.some.inj h
  exact (decodeSlot_pack 0x98 0x02 (.fr f) (by decide) (by decide)).trans (congrArg (some ∘ Instr.plinv) (FmtR.ofBits_pack 0x98 0x02 f))

theorem Laws.RoundTrip.trset (f : FmtR) : Laws.RoundTrip.Statement (.trset f) := by
  intro hw w h
  obtain rfl := Option.some.inj h
  simp [Instr.wf, Instr.selOk, Instr.view, Body.mod] at hw
  refine (decodeSlot_pack 0x98 0x03 (.fr f) (by decide) (by decide)).trans ?_
  simp only [decodeOpSub, decodeOp98, FmtR.mod_pack, FmtR.ofBits_pack]
  simp [hw]

theorem Laws.RoundTrip.trsetClr (f : FmtR) : Laws.RoundTrip.Statement (.trsetClr f) := by
  intro hw w h
  obtain rfl := Option.some.inj h
  simp [Instr.wf, Instr.selOk, Instr.view, Body.mod] at hw
  refine (decodeSlot_pack 0x98 0x03 (.fr f) (by decide) (by decide)).trans ?_
  simp only [decodeOpSub, decodeOp98, FmtR.mod_pack, FmtR.ofBits_pack]
  simp [hw]

theorem Laws.RoundTrip.htset (f : FmtR) : Laws.RoundTrip.Statement (.htset f) := by
  rintro - w h
  obtain rfl := Option.some.inj h
  exact (decodeSlot_pack 0x98 0x04 (.fr f) (by decide) (by decide)).trans (congrArg (some ∘ Instr.htset) (FmtR.ofBits_pack 0x98 0x04 f))

theorem Laws.RoundTrip.xlat (f : FmtR) : Laws.RoundTrip.Statement (.xlat f) := by
  rintro - w h
  obtain rfl := Option.some.inj h
  exact (decodeSlot_pack 0x98 0x05 (.fr f) (by decide) (by decide)).trans (congrArg (some ∘ Instr.xlat) (FmtR.ofBits_pack 0x98 0x05 f))

theorem Laws.RoundTrip.tlbinvA (f : FmtR) : Laws.RoundTrip.Statement (.tlbinvA f) := by
  intro hw w h
  obtain rfl := Option.some.inj h
  simp [Instr.wf, Instr.selOk, Instr.view, Body.mod] at hw
  refine (decodeSlot_pack 0x98 0x06 (.fr f) (by decide) (by decide)).trans ?_
  simp only [decodeOpSub, decodeOp98, FmtR.mod_pack, FmtR.ofBits_pack]
  rcases hw with hw | hw <;> simp [hw]

theorem Laws.RoundTrip.tlbinvL (f : FmtR) : Laws.RoundTrip.Statement (.tlbinvL f) := by
  intro hw w h
  obtain rfl := Option.some.inj h
  simp [Instr.wf, Instr.selOk, Instr.view, Body.mod] at hw
  refine (decodeSlot_pack 0x98 0x06 (.fr f) (by decide) (by decide)).trans ?_
  simp only [decodeOpSub, decodeOp98, FmtR.mod_pack, FmtR.ofBits_pack]
  simp [hw]

theorem Laws.RoundTrip.tlbinvG (f : FmtR) : Laws.RoundTrip.Statement (.tlbinvG f) := by
  intro hw w h
  obtain rfl := Option.some.inj h
  simp [Instr.wf, Instr.selOk, Instr.view, Body.mod] at hw
  refine (decodeSlot_pack 0x98 0x06 (.fr f) (by decide) (by decide)).trans ?_
  simp only [decodeOpSub, decodeOp98, FmtR.mod_pack, FmtR.ofBits_pack]
  simp [hw]

theorem Laws.RoundTrip.modld (f : FmtR) : Laws.RoundTrip.Statement (.modld f) := by
  intro hw w h
  obtain rfl := Option.some.inj h
  simp [Instr.wf, Instr.selOk, Instr.view, Body.mod] at hw
  refine (decodeSlot_pack 0x98 0x07 (.fr f) (by decide) (by decide)).trans ?_
  simp only [decodeOpSub, decodeOp98, FmtR.mod_pack, FmtR.ofBits_pack]
  simp [hw]

theorem Laws.RoundTrip.modldDbg (f : FmtR) : Laws.RoundTrip.Statement (.modldDbg f) := by
  intro hw w h
  obtain rfl := Option.some.inj h
  simp [Instr.wf, Instr.selOk, Instr.view, Body.mod] at hw
  refine (decodeSlot_pack 0x98 0x07 (.fr f) (by decide) (by decide)).trans ?_
  simp only [decodeOpSub, decodeOp98, FmtR.mod_pack, FmtR.ofBits_pack]
  simp [hw]

theorem Laws.RoundTrip.modul (f : FmtR) : Laws.RoundTrip.Statement (.modul f) := by
  rintro - w h
  obtain rfl := Option.some.inj h
  exact (decodeSlot_pack 0x98 0x08 (.fr f) (by decide) (by decide)).trans (congrArg (some ∘ Instr.modul) (FmtR.ofBits_pack 0x98 0x08 f))

theorem Laws.RoundTrip.bara (f : FmtR) : Laws.RoundTrip.Statement (.bara f) := by
  intro hw w h
  obtain rfl := Option.some.inj h
  simp [Instr.wf, Instr.selOk, Instr.view, Body.mod] at hw
  refine (decodeSlot_pack 0xA0 0x00 (.fr f) (by decide) (by decide)).trans ?_
  simp only [decodeOpSub, decodeOpA0, FmtR.mod_pack, FmtR.ofBits_pack]
  rcases hw with hw | hw <;> simp [hw]

theorem Laws.RoundTrip.baraJoin (f : FmtR) : Laws.RoundTrip.Statement (.baraJoin f) := by
  intro hw w h
  obtain rfl := Option.some.inj h
  simp [Instr.wf, Instr.selOk, Instr.view, Body.mod] at hw
  refine (decodeSlot_pack 0xA0 0x00 (.fr f) (by decide) (by decide)).trans ?_
  simp only [decodeOpSub, decodeOpA0, FmtR.mod_pack, FmtR.ofBits_pack]
  simp [hw]

theorem Laws.RoundTrip.baraLeave (f : FmtR) : Laws.RoundTrip.Statement (.baraLeave f) := by
  intro hw w h
  obtain rfl := Option.some.inj h
  simp [Instr.wf, Instr.selOk, Instr.view, Body.mod] at hw
  refine (decodeSlot_pack 0xA0 0x00 (.fr f) (by decide) (by decide)).trans ?_
  simp only [decodeOpSub, decodeOpA0, FmtR.mod_pack, FmtR.ofBits_pack]
  simp [hw]

theorem Laws.RoundTrip.barw (f : FmtR) : Laws.RoundTrip.Statement (.barw f) := by
  rintro - w h
  obtain rfl := Option.some.inj h
  exact (decodeSlot_pack 0xA0 0x01 (.fr f) (by decide) (by decide)).trans (congrArg (some ∘ Instr.barw) (FmtR.ofBits_pack 0xA0 0x01 f))

theorem Laws.RoundTrip.barq (f : FmtR) : Laws.RoundTrip.Statement (.barq f) := by
  rintro - w h
  obtain rfl := Option.some.inj h
  exact (decodeSlot_pack 0xA0 0x02 (.fr f) (by decide) (by decide)).trans (congrArg (some ∘ Instr.barq) (FmtR.ofBits_pack 0xA0 0x02 f))

theorem Laws.RoundTrip.ctrsel (f : FmtR) : Laws.RoundTrip.Statement (.ctrsel f) := by
  rintro - w h
  obtain rfl := Option.some.inj h
  exact (decodeSlot_pack 0xA0 0x03 (.fr f) (by decide) (by decide)).trans (congrArg (some ∘ Instr.ctrsel) (FmtR.ofBits_pack 0xA0 0x03 f))

theorem Laws.RoundTrip.ctrrd (f : FmtR) : Laws.RoundTrip.Statement (.ctrrd f) := by
  rintro - w h
  obtain rfl := Option.some.inj h
  exact (decodeSlot_pack 0xA0 0x04 (.fr f) (by decide) (by decide)).trans (congrArg (some ∘ Instr.ctrrd) (FmtR.ofBits_pack 0xA0 0x04 f))

theorem Laws.RoundTrip.timset (f : FmtR) : Laws.RoundTrip.Statement (.timset f) := by
  rintro - w h
  obtain rfl := Option.some.inj h
  exact (decodeSlot_pack 0xA0 0x05 (.fr f) (by decide) (by decide)).trans (congrArg (some ∘ Instr.timset) (FmtR.ofBits_pack 0xA0 0x05 f))

theorem Laws.RoundTrip.tstmp (f : FmtR) : Laws.RoundTrip.Statement (.tstmp f) := by
  rintro - w h
  obtain rfl := Option.some.inj h
  exact (decodeSlot_pack 0xA0 0x06 (.fr f) (by decide) (by decide)).trans (congrArg (some ∘ Instr.tstmp) (FmtR.ofBits_pack 0xA0 0x06 f))

theorem Laws.RoundTrip.clkrd (f : FmtR) : Laws.RoundTrip.Statement (.clkrd f) := by
  rintro - w h
  obtain rfl := Option.some.inj h
  exact (decodeSlot_pack 0xA0 0x07 (.fr f) (by decide) (by decide)).trans (congrArg (some ∘ Instr.clkrd) (FmtR.ofBits_pack 0xA0 0x07 f))

theorem Laws.RoundTrip.bundleIssue (a : Issuer) : Laws.RoundTrip.Statement (.bundleIssue a) := nofun

theorem Laws.RoundTrip.replyArrival (w : Who) : Laws.RoundTrip.Statement (.replyArrival w) := nofun

theorem Laws.RoundTrip.fetchLineArrival (w : Who) : Laws.RoundTrip.Statement (.fetchLineArrival w) := nofun

theorem Laws.RoundTrip.followJoin (c : Nat) (k : Nat) : Laws.RoundTrip.Statement (.followJoin c k) := nofun

theorem Laws.RoundTrip.flwTimeout (c : Nat) (k : Nat) : Laws.RoundTrip.Statement (.flwTimeout c k) := nofun

theorem Laws.RoundTrip.remoteFillArrival (i : Nat) : Laws.RoundTrip.Statement (.remoteFillArrival i) := nofun

theorem Laws.RoundTrip.streamElementArrival (c : Nat) (k : Nat) (r : Nat) : Laws.RoundTrip.Statement (.streamElementArrival c k r) := nofun

theorem Laws.RoundTrip.streamWriteCompletion (c : Nat) (k : Nat) (r : Nat) : Laws.RoundTrip.Statement (.streamWriteCompletion c k r) := nofun

theorem Laws.RoundTrip.copyCommandStart (c : Nat) : Laws.RoundTrip.Statement (.copyCommandStart c) := nofun

theorem Laws.RoundTrip.copyCommandCompletion (c : Nat) : Laws.RoundTrip.Statement (.copyCommandCompletion c) := nofun

theorem Laws.RoundTrip.chainWalkStep (c : Nat) : Laws.RoundTrip.Statement (.chainWalkStep c) := nofun

theorem Laws.RoundTrip.copyEngineFault (c : Nat) : Laws.RoundTrip.Statement (.copyEngineFault c) := nofun

theorem Laws.RoundTrip.matrixOpBegin (c : Nat) : Laws.RoundTrip.Statement (.matrixOpBegin c) := nofun

theorem Laws.RoundTrip.matrixOpCompletion (c : Nat) : Laws.RoundTrip.Statement (.matrixOpCompletion c) := nofun

theorem Laws.RoundTrip.fieldCommandStart (f : Nat) : Laws.RoundTrip.Statement (.fieldCommandStart f) := nofun

theorem Laws.RoundTrip.fieldCommandCompletion (f : Nat) : Laws.RoundTrip.Statement (.fieldCommandCompletion f) := nofun

theorem Laws.RoundTrip.fieldFault (f : Nat) : Laws.RoundTrip.Statement (.fieldFault f) := nofun

theorem Laws.RoundTrip.mapRequestService (f : Nat) : Laws.RoundTrip.Statement (.mapRequestService f) := nofun

theorem Laws.RoundTrip.postedUpsertApply (i : Nat) : Laws.RoundTrip.Statement (.postedUpsertApply i) := nofun

theorem Laws.RoundTrip.splitRequest (i : Nat) : Laws.RoundTrip.Statement (.splitRequest i) := nofun

theorem Laws.RoundTrip.split (m : Nat) : Laws.RoundTrip.Statement (.split m) := nofun

theorem Laws.RoundTrip.splitPublication (m : Nat) : Laws.RoundTrip.Statement (.splitPublication m) := nofun

theorem Laws.RoundTrip.mapCopyUpdate (f : Nat) (l : Nat) (n : Nat) : Laws.RoundTrip.Statement (.mapCopyUpdate f l n) := nofun

theorem Laws.RoundTrip.queueRequestService (f : Nat) : Laws.RoundTrip.Statement (.queueRequestService f) := nofun

theorem Laws.RoundTrip.messageArrival (i : Nat) : Laws.RoundTrip.Statement (.messageArrival i) := nofun

theorem Laws.RoundTrip.gatewayRelay (i : Nat) : Laws.RoundTrip.Statement (.gatewayRelay i) := nofun

theorem Laws.RoundTrip.reductionCombine (t : Nat) (n : Nat) : Laws.RoundTrip.Statement (.reductionCombine t n) := nofun

theorem Laws.RoundTrip.reductionTotalDelivery (t : Nat) : Laws.RoundTrip.Statement (.reductionTotalDelivery t) := nofun

theorem Laws.RoundTrip.contextTake (c : Nat) (k : Nat) : Laws.RoundTrip.Statement (.contextTake c k) := nofun

theorem Laws.RoundTrip.contextFaultBack (ch : Nat) (i : Nat) : Laws.RoundTrip.Statement (.contextFaultBack ch i) := nofun

theorem Laws.RoundTrip.xretArrival (ch : Nat) (i : Nat) : Laws.RoundTrip.Statement (.xretArrival ch i) := nofun

theorem Laws.RoundTrip.nearPacketApply (i : Nat) : Laws.RoundTrip.Statement (.nearPacketApply i) := nofun

theorem Laws.RoundTrip.channelFill (ln : Nat) : Laws.RoundTrip.Statement (.channelFill ln) := nofun

theorem Laws.RoundTrip.channelEvictionNotice (ln : Nat) : Laws.RoundTrip.Statement (.channelEvictionNotice ln) := nofun

theorem Laws.RoundTrip.lineEviction (ln : Nat) : Laws.RoundTrip.Statement (.lineEviction ln) := nofun

theorem Laws.RoundTrip.overlayLineArrival (ch : Nat) (w : Nat) : Laws.RoundTrip.Statement (.overlayLineArrival ch w) := nofun

theorem Laws.RoundTrip.capsuleDelivery (i : Nat) : Laws.RoundTrip.Statement (.capsuleDelivery i) := nofun

theorem Laws.RoundTrip.timerExpiry (c : Nat) : Laws.RoundTrip.Statement (.timerExpiry c) := nofun

theorem Laws.RoundTrip.shepherdFaultEscalation (c : Nat) : Laws.RoundTrip.Statement (.shepherdFaultEscalation c) := nofun

theorem Laws.RoundTrip.syscReply (i : Nat) : Laws.RoundTrip.Statement (.syscReply i) := nofun

theorem Laws.RoundTrip.pageRefill (c : Nat) (p : Nat) : Laws.RoundTrip.Statement (.pageRefill c p) := nofun

theorem Laws.RoundTrip.tlbWalkCompletion (c : Nat) (va : BitVec 64) : Laws.RoundTrip.Statement (.tlbWalkCompletion c va) := nofun

theorem Laws.RoundTrip.launchRecordTake (i : Nat) : Laws.RoundTrip.Statement (.launchRecordTake i) := nofun

theorem Laws.RoundTrip.launchPriorityRaise (l : Nat) : Laws.RoundTrip.Statement (.launchPriorityRaise l) := nofun

theorem Laws.RoundTrip.launchPlacement (l : Nat) : Laws.RoundTrip.Statement (.launchPlacement l) := nofun

theorem Laws.RoundTrip.launchRetirement (l : Nat) : Laws.RoundTrip.Statement (.launchRetirement l) := nofun

theorem Laws.RoundTrip.launchAbort (l : Nat) (st : BitVec 8) : Laws.RoundTrip.Statement (.launchAbort l st) := nofun

theorem Laws.RoundTrip.moduleFree (m : Nat) : Laws.RoundTrip.Statement (.moduleFree m) := nofun

theorem Laws.RoundTrip.hostWrite (off : Nat) (bytes : List (BitVec 8)) : Laws.RoundTrip.Statement (.hostWrite off bytes) := nofun

theorem Laws.RoundTrip.hostRead (off : Nat) (n : Nat) : Laws.RoundTrip.Statement (.hostRead off n) := nofun

theorem Laws.RoundTrip.winbaseWrite (v : BitVec 64) : Laws.RoundTrip.Statement (.winbaseWrite v) := nofun

theorem Laws.RoundTrip.registerBarWrite (off : Nat) (v : BitVec 64) : Laws.RoundTrip.Statement (.registerBarWrite off v) := nofun

theorem Laws.RoundTrip.deviceReset : Laws.RoundTrip.Statement (.deviceReset) := nofun

theorem Laws.RoundTrip.linkBringup (port : Nat) : Laws.RoundTrip.Statement (.linkBringup port) := nofun

theorem Laws.RoundTrip.linkLaneFailure (port : Nat) (lane : Nat) : Laws.RoundTrip.Statement (.linkLaneFailure port lane) := nofun

theorem Laws.RoundTrip.linkRequestRetry (i : Nat) : Laws.RoundTrip.Statement (.linkRequestRetry i) := nofun

theorem Laws.RoundTrip.uncorrectableDataError (ln : Nat) : Laws.RoundTrip.Statement (.uncorrectableDataError ln) := nofun

theorem Laws.RoundTrip.hbmRowSpare (ch : Nat) (row : Nat) : Laws.RoundTrip.Statement (.hbmRowSpare ch row) := nofun

theorem Laws.RoundTrip.spareMapping (c : Nat) : Laws.RoundTrip.Statement (.spareMapping c) := nofun

theorem Laws.RoundTrip.liveFirmwareUpdate (image : BitVec 512) (keyid : Nat) (sigOk : Bool) : Laws.RoundTrip.Statement (.liveFirmwareUpdate image keyid sigOk) := nofun

theorem Laws.RoundTrip.moduleRemoval : Laws.RoundTrip.Statement (.moduleRemoval) := nofun

theorem Laws.RoundTrip.overTemperature : Laws.RoundTrip.Statement (.overTemperature) := nofun

theorem Laws.RoundTrip.hbmLaneSpare (ch : Nat) : Laws.RoundTrip.Statement (.hbmLaneSpare ch) := nofun

theorem Laws.RoundTrip.sramRowSpare (a : Nat) : Laws.RoundTrip.Statement (.sramRowSpare a) := nofun

end Sys2Proof
end

