-- ==== Sys2Proof/Tests/Slice0.lean ====
section
/-! SUPPORT. The model's own tests: ill-formed terms that each check refuses, the words of the spec's encodings, small
results whose values come from the spec's worked examples, and states that meet the hypotheses of the statements. -/

namespace Sys2Proof.Machine.Tests

set_option Elab.async false

/-! ## States -/

/-- Core 0 of a placed launch, its shepherd about to issue; the second 16 GiB are readable and writable pages over the first. -/
def s0 : State :=
  let s := State.reset.placeWord 0
  { s with mem := s.mem.writeNat 0x20008 8 0x0F }

/-- The current thread's g registers set. -/
def State.regs (s : State) (l : List (Nat × Nat)) : State :=
  s.setThread { s.thread with g := l.foldl (fun g p => g.setIfInBounds p.1 (BitVec.ofNat 64 p.2)) s.thread.g }

/-- The line at the PC with every target bit set, so that branches to its slots complete. -/
def State.targets (s : State) : State :=
  { s with mem := s.mem.writeNat placeAt 64 (sealLine (BitVec.ofNat 512 (31 * 2 ^ 480))).toNat }

/-- Core 0 changed. -/
def State.core0 (s : State) (f : Core → Core) : State := s.setCore 0 (f (s.core 0))

/-- A slot of core 0 changed. -/
def State.slot0 (s : State) (k : Nat) (f : Slot → Slot) : State := s.setSlot 0 k (f (s.slot 0 k))

/-- Whether an instruction is ready and the state after its reads is as `p` says. -/
def meets (i : Instr) (s : State) (p : State → Eff → Bool) : Bool :=
  (s.precheck i).isNone && match s.prepare (usesOf i s.thread.ety s.part.vw s.isSys) with
    | .ok r => p r.1 r.2
    | _ => false

/-- What `meets` shows. -/
theorem meets_ready {i : Instr} {s : State} {p : State → Eff → Bool} (h : meets i s p = true) :
    ∃ s1 e, Ready i s s1 e ∧ p s1 e = true := by
  unfold meets at h
  simp only [Bool.and_eq_true, Option.isNone_iff_eq_none] at h
  split at h
  · next r hr => exact ⟨r.1, r.2, ⟨h.1, hr⟩, h.2⟩
  · exact absurd h.2 (by simp)

/-- What `readyNow` shows. -/
theorem readyNow_ready {i : Instr} {s : State} (h : readyNow i s = true) : ∃ s1 e, Ready i s s1 e := by
  unfold readyNow at h
  simp only [Bool.and_eq_true, Option.isNone_iff_eq_none] at h
  split at h
  · next r hr => exact ⟨r.1, r.2, h.1, hr⟩
  · exact absurd h.2 (by simp)

/-- Whether a check holds. -/
def okay {α : Type} (c : Chk α) : Bool := match c with
  | .ok _ => true
  | _ => false

/-- Whether an outcome is a next state as `p` says. -/
def nextIs (o : Host.Outcome State Fault Refusal) (p : State → Bool) : Bool := match o with
  | .next t => p t
  | _ => false


/-! ## Decoding (R61, R69, R70, R79): one word of every row, written out from the layout of its format -/

def wordsControl : List Nat := [
  0x000000000000000000000000, 0x010000000000FFFFFFFFFFF9, 0x020000000300FFFFFFFFFFF9, 0x030000010005FFFFFFFFFFF9,
  0x040000000300FFFFFFFFFFF9, 0x050000000301000000000000, 0x060000000301000000000000, 0x070000000301000000000000,
  0x070100000000000000000000, 0x070200000001020000000000, 0x070300000000000000000000, 0x070400000001020000000010,
  0x070500000000000000000000, 0x070600000300000000000000, 0x080000000301020000000000, 0x080100000301000000000000,
  0x080200000301000000000000, 0x080300000301000000000000, 0x080400000301000000001000, 0x080500000301020000000005,
  0x080600000301000000000000, 0x090000000300000000000001, 0x090100010001000000000001, 0x0A0000010000001000000040]

def termsControl : List Instr := [
  .nop {}, .br { disp := 0xFFFFFFFFFFF9 }, .call { d := 3, disp := 0xFFFFFFFFFFF9 },
  .brc { mod := 1, a := 5, disp := 0xFFFFFFFFFFF9 }, .dbnz { d := 3, disp := 0xFFFFFFFFFFF9 },
  .brx { d := 3, a := 1 }, .jmp { d := 3, a := 1 }, .flw { d := 3, a := 1 }, .flx {}, .ipf { a := 1, b := 2 },
  .tend {}, .watch { a := 1, b := 2, imm := 0x10 }, .waita {}, .vwid { d := 3 }, .tstart { d := 3, a := 1, b := 2 },
  .tstop { d := 3, a := 1 }, .treap { d := 3, a := 1 }, .tstat { d := 3, a := 1 },
  .trd { d := 3, a := 1, imm := 0x1000 }, .twr { d := 3, a := 1, b := 2, imm := 5 }, .tret { d := 3, a := 1 },
  .movs { d := 3, imm := 1 }, .sets { mod := 1, a := 1, imm := 1 }, .setsi { mod := 1, imm := 0x1000000040 }]

theorem test_decode_control : (wordsControl.map fun w => decodeSlot (BitVec.ofNat 96 w)) = termsControl.map some := by decide +kernel

def wordsTrap : List Nat := [
  0x0B0000000001000000000028, 0x0B0100000000000000000028, 0x0B0200000301020000000028, 0x0B0300000800000000000000,
  0x0B0300010800000000000000, 0x0B0400000300000000000002]

def termsTrap : List Instr := [
  .trap { a := 1, imm := 0x28 }, .brkp { imm := 0x28 }, .sysc { d := 3, a := 1, b := 2, imm := 0x28 },
  .fltrd { d := 8 }, .fltrdPeek { mod := 1, d := 8 }, .capa { d := 3, imm := 2 }]

theorem test_decode_trap : (wordsTrap.map fun w => decodeSlot (BitVec.ofNat 96 w)) = termsTrap.map some := by decide +kernel

def wordsScalar : List Nat := [
  0x100004000301020000000000, 0x100104000301020000000000, 0x100204000301020000000000, 0x100304000301020000000000,
  0x100404000301020400000000, 0x100504000301020000000000, 0x100604000301020000000000, 0x100704000301020000000000,
  0x100804000301020000000000, 0x100904000301020000000000, 0x100A04000301020000000000, 0x100B04000301020000000000,
  0x100C04000301020000000000, 0x100D04000301020000000000, 0x100E04000301020000000000, 0x100F04000301020000000000,
  0x101000000301020400000000, 0x101104000301020000000000, 0x101200000301020000000028, 0x110004000301000000000028,
  0x110104000301000000000028, 0x110204000301000000000028, 0x110304000301000000000028, 0x110404000301000000000005,
  0x110504000301000000000005, 0x110604000301000000000005, 0x110704000301000000000028, 0x110800000300000000000028,
  0x1109000003010000000001FF, 0x110A00000300000000000028, 0x120004000301000000000000, 0x120104000301000000000000,
  0x120204000301000000000000, 0x120308000301000000000000, 0x120420000301000000000703, 0x120500000301020000000703,
  0x120604000301000000000000, 0x120704000301000000000000]

def termsScalar : List Instr := [
  .add { ty := 1, d := 3, a := 1, b := 2 }, .sub { ty := 1, d := 3, a := 1, b := 2 },
  .mul { ty := 1, d := 3, a := 1, b := 2 }, .mulh { ty := 1, d := 3, a := 1, b := 2 },
  .madd { ty := 1, d := 3, a := 1, b := 2, c := 4 }, .div { ty := 1, d := 3, a := 1, b := 2 },
  .rem { ty := 1, d := 3, a := 1, b := 2 }, .and { ty := 1, d := 3, a := 1, b := 2 },
  .or { ty := 1, d := 3, a := 1, b := 2 }, .xor { ty := 1, d := 3, a := 1, b := 2 },
  .shl { ty := 1, d := 3, a := 1, b := 2 }, .shr { ty := 1, d := 3, a := 1, b := 2 },
  .sar { ty := 1, d := 3, a := 1, b := 2 }, .rol { ty := 1, d := 3, a := 1, b := 2 },
  .min { ty := 1, d := 3, a := 1, b := 2 }, .max { ty := 1, d := 3, a := 1, b := 2 },
  .sel { d := 3, a := 1, b := 2, c := 4 }, .cmp { ty := 1, d := 3, a := 1, b := 2 },
  .lea { d := 3, a := 1, b := 2, imm := 0x28 }, .addi { ty := 1, d := 3, a := 1, imm := 0x28 },
  .andi { ty := 1, d := 3, a := 1, imm := 0x28 }, .ori { ty := 1, d := 3, a := 1, imm := 0x28 },
  .xori { ty := 1, d := 3, a := 1, imm := 0x28 }, .shli { ty := 1, d := 3, a := 1, imm := 5 },
  .shri { ty := 1, d := 3, a := 1, imm := 5 }, .sari { ty := 1, d := 3, a := 1, imm := 5 },
  .cmpi { ty := 1, d := 3, a := 1, imm := 0x28 }, .li { d := 3, imm := 0x28 }, .lih { d := 3, a := 1, imm := 0x1FF },
  .addpc { d := 3, imm := 0x28 }, .clz { ty := 1, d := 3, a := 1 }, .ctz { ty := 1, d := 3, a := 1 },
  .popc { ty := 1, d := 3, a := 1 }, .bswap { ty := 2, d := 3, a := 1 },
  .bfx { ty := 8, d := 3, a := 1, imm := 0x703 }, .bfi { d := 3, a := 1, b := 2, imm := 0x703 },
  .abs { ty := 1, d := 3, a := 1 }, .ext { ty := 1, d := 3, a := 1 }]

theorem test_decode_scalar : (wordsScalar.map fun w => decodeSlot (BitVec.ofNat 96 w)) = termsScalar.map some := by decide +kernel

def wordsVector : List Nat := [
  0x300004004341420000000000, 0x300104004341420000000000, 0x300204004341420000000000, 0x300304004341424400000000,
  0x300404004341420000000000, 0x300504004341420000000000, 0x300604004341000000000000, 0x300700004341420000000000,
  0x300800004341420000000000, 0x300900004341420000000000, 0x300A04004341420000000000, 0x300B04004341420000000000,
  0x300C04004341420000000000, 0x300D00004341426400000000, 0x300E04004341424400000000, 0x310004004341420000000000,
  0x310140004341000000000000, 0x320004006341420000000000, 0x330048004341000000000003, 0x330148005041000000000001,
  0x33024C104341004900000001, 0x33034C004341004400000003, 0x330458004341420000000000, 0x330558004341420000000000,
  0x330604004341420000000000, 0x33074C004341420000000000, 0x340004004301000000000000, 0x340104004301020000000000,
  0x340204000341020000000000, 0x340304004301000000000000, 0x340404004341420000000000, 0x340500004341000000000000,
  0x350004000341000000000000, 0x350104004341000000000000, 0x360000006301020000000000, 0x360100006300000000000028,
  0x360200006361620000000000, 0x360300006361620000000000, 0x360400006361620000000000, 0x360500006361000000000000,
  0x360600000361000000000000, 0x360700000361000000000000]

def termsVector : List Instr := [
  .vadd { ty := 1, d := 0x43, a := 0x41, b := 0x42 }, .vsub { ty := 1, d := 0x43, a := 0x41, b := 0x42 },
  .vmul { ty := 1, d := 0x43, a := 0x41, b := 0x42 }, .vfma { ty := 1, d := 0x43, a := 0x41, b := 0x42, c := 0x44 },
  .vmin { ty := 1, d := 0x43, a := 0x41, b := 0x42 }, .vmax { ty := 1, d := 0x43, a := 0x41, b := 0x42 },
  .vabs { ty := 1, d := 0x43, a := 0x41 }, .vand { d := 0x43, a := 0x41, b := 0x42 },
  .vor { d := 0x43, a := 0x41, b := 0x42 }, .vxor { d := 0x43, a := 0x41, b := 0x42 },
  .vshl { ty := 1, d := 0x43, a := 0x41, b := 0x42 }, .vshr { ty := 1, d := 0x43, a := 0x41, b := 0x42 },
  .vsar { ty := 1, d := 0x43, a := 0x41, b := 0x42 }, .vsel { d := 0x43, a := 0x41, b := 0x42, c := 0x64 },
  .vclamp { ty := 1, d := 0x43, a := 0x41, b := 0x42, c := 0x44 },
  .vdiv { ty := 1, d := 0x43, a := 0x41, b := 0x42 }, .vsqrt { ty := 0x10, d := 0x43, a := 0x41 },
  .vcmp { ty := 1, d := 0x63, a := 0x41, b := 0x42 }, .vcvt { ty := 0x12, d := 0x43, a := 0x41, imm := 3 },
  .vsplit { ty := 0x12, d := 0x50, a := 0x41, imm := 1 },
  .vqnt { ty := 0x13, mod := 0x10, d := 0x43, a := 0x41, c := 0x49, imm := 1 },
  .vdqnt { ty := 0x13, d := 0x43, a := 0x41, c := 0x44, imm := 3 },
  .vlmul { ty := 0x16, d := 0x43, a := 0x41, b := 0x42 }, .vlacc { ty := 0x16, d := 0x43, a := 0x41, b := 0x42 },
  .vdot { ty := 1, d := 0x43, a := 0x41, b := 0x42 }, .baddq { ty := 0x13, d := 0x43, a := 0x41, b := 0x42 },
  .vsplat { ty := 1, d := 0x43, a := 1 }, .vins { ty := 1, d := 0x43, a := 1, b := 2 },
  .vext { ty := 1, d := 3, a := 0x41, b := 2 }, .viota { ty := 1, d := 0x43, a := 1 },
  .vperm { ty := 1, d := 0x43, a := 0x41, b := 0x42 }, .vmov { d := 0x43, a := 0x41 },
  .vred { ty := 1, d := 3, a := 0x41 }, .vscan { ty := 1, d := 0x43, a := 0x41 }, .plt { d := 0x63, a := 1, b := 2 },
  .pset { d := 0x63, imm := 0x28 }, .pand { d := 0x63, a := 0x61, b := 0x62 },
  .por { d := 0x63, a := 0x61, b := 0x62 }, .pxor { d := 0x63, a := 0x61, b := 0x62 },
  .pnot { d := 0x63, a := 0x61 }, .pcnt { d := 3, a := 0x61 }, .pfirst { d := 3, a := 0x61 }]

theorem test_decode_vector : (wordsVector.map fun w => decodeSlot (BitVec.ofNat 96 w)) = termsVector.map some := by decide +kernel

def wordsTile : List Nat := [
  0x50004C106B48005000000003, 0x510048006B00000000000000, 0x510148004369020000000000, 0x510248006B41020000000000,
  0x510300000369000000000000, 0x510300010300000000000003, 0x520000000301000050000043, 0x520100000000000000000028,
  0x530000006B01000050000000, 0x540004006B015400500000FD]

def termsTile : List Instr := [
  .mma { ty := 0x13, mod := 0x10, d := 0x6B, a := 0x48, c := 0x50, imm := 3 }, .mzero { ty := 0x12, d := 0x6B },
  .mrd { ty := 0x12, d := 0x43, a := 0x69, b := 2 }, .mwr { ty := 0x12, d := 0x6B, a := 0x41, b := 2 },
  .mstat { d := 3, a := 0x69 }, .mstatW { mod := 1, d := 3, imm := 3 },
  .wbld { d := 3, a := 1, p1 := 5, imm := 0x43 }, .wbinv { imm := 0x28 }, .mload { d := 0x6B, a := 1, p1 := 5 },
  .mdrain { ty := 1, d := 0x6B, a := 1, b := 0x54, p1 := 5, imm := 0xFD }]

theorem test_decode_tile : (wordsTile.map fun w => decodeSlot (BitVec.ofNat 96 w)) = termsTile.map some := by decide +kernel

def wordsMemory : List Nat := [
  0x600004000301020000000028, 0x610004000001020400000028, 0x620000004301020000000028, 0x630000000001024400000028,
  0x64000C004301420000000028, 0x65000C000001424400000028, 0x66000C000301020400000028, 0x66010C000301020400000028,
  0x660204004301024400000028, 0x670010003001020400000000, 0x670010003101020400000001, 0x670000003201000000000002,
  0x670100003300000000000000, 0x670200000330000000000000, 0x680000000C01020050090000, 0x680100000C01020050090003,
  0x680200000C01020050000000, 0x680300000301020000000000, 0x680400000300000000000000, 0x680400010300000000000000,
  0x680400020300000000000000, 0x680500000001000000000000, 0x690000000000000000000021, 0x690100000301020000000000]

def termsMemory : List Instr := [
  .ld { ty := 1, d := 3, a := 1, b := 2, imm := 0x28 }, .st { ty := 1, a := 1, b := 2, c := 4, imm := 0x28 },
  .ldv { d := 0x43, a := 1, b := 2, imm := 0x28 }, .stv { a := 1, b := 2, c := 0x44, imm := 0x28 },
  .gth { ty := 3, d := 0x43, a := 1, b := 0x42, imm := 0x28 },
  .sct { ty := 3, a := 1, b := 0x42, c := 0x44, imm := 0x28 },
  .amo { ty := 3, d := 3, a := 1, b := 2, c := 4, imm := 0x28 },
  .cas { ty := 3, d := 3, a := 1, b := 2, c := 4, imm := 0x28 },
  .amov { ty := 1, d := 0x43, a := 1, b := 2, c := 0x44, imm := 0x28 },
  .sbindIn { ty := 4, d := 0x30, a := 1, b := 2, c := 4 },
  .sbindOut { ty := 4, d := 0x31, a := 1, b := 2, c := 4, imm := 1 }, .sbindQ { d := 0x32, a := 1, imm := 2 },
  .sunbind { d := 0x33 }, .sstat { d := 3, a := 0x30 }, .cpy { d := 0xC, a := 1, b := 2, p1 := 5, p2 := 9 },
  .mcast { d := 0xC, a := 1, b := 2, p1 := 5, p2 := 9, imm := 3 }, .rfill { d := 0xC, a := 1, b := 2, p1 := 5 },
  .cpyc { d := 3, a := 1, b := 2 }, .eseq { d := 3 }, .eseqGo { mod := 1, d := 3 }, .eseqDrop { mod := 2, d := 3 },
  .ewait { a := 1 }, .fencex { imm := 0x21 }, .cwb { d := 3, a := 1, b := 2 }]

theorem test_decode_memory : (wordsMemory.map fun w => decodeSlot (BitVec.ofNat 96 w)) = termsMemory.map some := by decide +kernel

def wordsField : List Nat := [
  0x700000000300000000000002, 0x700100000001000000000000, 0x700200000300000000000000, 0x700200010300000000000000,
  0x700200020300000000000000, 0x710000000301020050000028, 0x710100000301020050000028, 0x72000000100008C81C71C000,
  0x72010000100008C81C71C000, 0x72020000100008C81C71C000, 0x72030000100008C80071C001, 0x72040000100008C81C71C000,
  0x72050000100008C81C71C003, 0x72060000100008C81C71C000, 0x72070000100008C81C71C000, 0x72085800100008C81C71C000,
  0x72094C00100008C81C71C003, 0x720A0000100000C81C700000]

def termsField : List Instr := [
  .fdmode { d := 3, imm := 2 }, .fdwait { a := 1 }, .fdstat { d := 3 }, .fdstatGo { mod := 1, d := 3 },
  .fdstatDrop { mod := 2, d := 3 }, .fdin { d := 3, a := 1, b := 2, p1 := 5, imm := 0x28 },
  .fdout { d := 3, a := 1, b := 2, p1 := 5, imm := 0x28 },
  .fdadd { drow := 0x10, brow := 8, mrow := 0xC8, dw := 7, aw := 7, bw := 7 },
  .fdsub { drow := 0x10, brow := 8, mrow := 0xC8, dw := 7, aw := 7, bw := 7 },
  .fdmul { drow := 0x10, brow := 8, mrow := 0xC8, dw := 7, aw := 7, bw := 7 },
  .fdcmp { drow := 0x10, brow := 8, mrow := 0xC8, aw := 7, bw := 7, imm := 1 },
  .fdsel { drow := 0x10, brow := 8, mrow := 0xC8, dw := 7, aw := 7, bw := 7 },
  .fdbit { drow := 0x10, brow := 8, mrow := 0xC8, dw := 7, aw := 7, bw := 7, imm := 3 },
  .fdmin { drow := 0x10, brow := 8, mrow := 0xC8, dw := 7, aw := 7, bw := 7 },
  .fdmax { drow := 0x10, brow := 8, mrow := 0xC8, dw := 7, aw := 7, bw := 7 },
  .fdlmul { ty := 0x16, drow := 0x10, brow := 8, mrow := 0xC8, dw := 7, aw := 7, bw := 7 },
  .fdrq { ty := 0x13, drow := 0x10, brow := 8, mrow := 0xC8, dw := 7, aw := 7, bw := 7, imm := 3 },
  .fdpop { drow := 0x10, mrow := 0xC8, dw := 7, aw := 7 }]

theorem test_decode_field : (wordsField.map fun w => decodeSlot (BitVec.ofNat 96 w)) = termsField.map some := by decide +kernel

def wordsMap : List Nat := [
  0x780080000301000000000003, 0x780180000301000400000003, 0x780280000301000400000003, 0x780280100001000400000003,
  0x780380000301000000000003, 0x780480004341620000000803, 0x780580014341624400000803, 0x780580110041004400000803,
  0x790000000301020000000000, 0x790100000301000000000003, 0x790200000301000000000003, 0x790380000301000000000103,
  0x790480000801000000000003, 0x790500000300000000000003]

def termsMap : List Instr := [
  .kprb { ty := 0x20, d := 3, a := 1, imm := 3 }, .kins { ty := 0x20, d := 3, a := 1, c := 4, imm := 3 },
  .kups { ty := 0x20, d := 3, a := 1, c := 4, imm := 3 },
  .kupsPost { ty := 0x20, mod := 0x10, a := 1, c := 4, imm := 3 }, .kdel { ty := 0x20, d := 3, a := 1, imm := 3 },
  .kprbv { ty := 0x20, d := 0x43, a := 0x41, b := 0x62, imm := 0x803 },
  .kupsv { ty := 0x20, mod := 1, d := 0x43, a := 0x41, b := 0x62, c := 0x44, imm := 0x803 },
  .kupsvPost { ty := 0x20, mod := 0x11, a := 0x41, c := 0x44, imm := 0x803 }, .knew { d := 3, a := 1, b := 2 },
  .kbind { d := 3, a := 1, imm := 3 }, .kstat { d := 3, a := 1, imm := 3 },
  .khash { ty := 0x20, d := 3, a := 1, imm := 0x103 }, .kiter { ty := 0x20, d := 8, a := 1, imm := 3 },
  .kclr { d := 3, imm := 3 }]

theorem test_decode_map : (wordsMap.map fun w => decodeSlot (BitVec.ofNat 96 w)) = termsMap.map some := by decide +kernel

def wordsNear : List Nat := [
  0x800000000001000000000088, 0x800100000000000000000000, 0x80020C000001020400000028, 0x80030C000001020400000028,
  0x800400000301020000000001, 0x800500000301000000000000, 0x800600000001000000000000]

def termsNear : List Instr := [
  .xmig { a := 1, imm := 0x88 }, .xret {}, .xupd { ty := 3, a := 1, b := 2, c := 4, imm := 0x28 },
  .xnrm { ty := 3, a := 1, b := 2, c := 4, imm := 0x28 }, .xovl { d := 3, a := 1, b := 2, imm := 1 },
  .xrlk { d := 3, a := 1 }, .xrul { a := 1 }]

theorem test_decode_near : (wordsNear.map fun w => decodeSlot (BitVec.ofNat 96 w)) = termsNear.map some := by decide +kernel

def wordsMessage : List Nat := [
  0x880000000301004400000028, 0x880000010301000400000503, 0x880000020301024400000007, 0x880100004300000000000000,
  0x880100014300000000000000, 0x880200000000004400000028, 0x880300000300000000000000, 0x890000000301020000000000,
  0x890100000401000000000028, 0x890200000400000000000000, 0x890300000401000000000000, 0x8A0000000301020000000003,
  0x8A0000020301020000000000, 0x8A0100000401000000000000, 0x8A0100020400000000000000, 0x8A0200000301000000000000,
  0x8A0200020301000000000000, 0x8B000C000041000000000003, 0x8B0100000301020000000000, 0x8B0200000301000000000000,
  0x8B0200010301000000000000, 0x8B0300000301000000000000, 0x8B0300010301000000000000]

def termsMessage : List Instr := [
  .send { d := 3, a := 1, c := 0x44, imm := 0x28 }, .sendR { mod := 1, d := 3, a := 1, c := 4, imm := 0x503 },
  .sendFar { mod := 2, d := 3, a := 1, b := 2, c := 0x44, imm := 7 }, .recv { d := 0x43 },
  .recvNw { mod := 1, d := 0x43 }, .lback { c := 0x44, imm := 0x28 }, .istat { d := 3 },
  .spawn { d := 3, a := 1, b := 2 }, .join { d := 4, a := 1, imm := 0x28 }, .tnext { d := 4 },
  .steal { d := 4, a := 1 }, .qpub { d := 3, a := 1, b := 2, imm := 3 },
  .qpubGw { mod := 2, d := 3, a := 1, b := 2 }, .qclm { d := 4, a := 1 }, .qclmGw { mod := 2, d := 4 },
  .qstat { d := 3, a := 1 }, .qstatGw { mod := 2, d := 3, a := 1 }, .nred { ty := 3, a := 0x41, imm := 3 },
  .lnch { d := 3, a := 1, b := 2 }, .prmt { d := 3, a := 1 }, .prmtL { mod := 1, d := 3, a := 1 },
  .resm { d := 3, a := 1 }, .resmL { mod := 1, d := 3, a := 1 }]

theorem test_decode_message : (wordsMessage.map fun w => decodeSlot (BitVec.ofNat 96 w)) = termsMessage.map some := by decide +kernel

def wordsCapsule : List Nat := [
  0x900000000001020000000000, 0x900100000800000000000000, 0x900100010800000000000000, 0x900200000300000000000000,
  0x900300000301020000000000, 0x900400000300020000000000, 0x900500000001000000000009, 0x90060000030000000000003F,
  0x900700000300000000000000, 0x900800000000000000000000]

def termsCapsule : List Instr := [
  .capnew { a := 1, b := 2 }, .capwait { d := 8 }, .capwaitNw { mod := 1, d := 8 }, .capnext { d := 3 },
  .capins { d := 3, a := 1, b := 2 }, .capdel { d := 3, b := 2 }, .capset { a := 1, imm := 9 },
  .capget { d := 3, imm := 0x3F }, .cappark { d := 3 }, .capdone {}]

theorem test_decode_capsule : (wordsCapsule.map fun w => decodeSlot (BitVec.ofNat 96 w)) = termsCapsule.map some := by decide +kernel

def wordsTable : List Nat := [
  0x980000000301000000000003, 0x980100000301000000000003, 0x980200000000000000000003, 0x980300000301000000000003,
  0x980300010300000000000003, 0x980400000301000000000003, 0x980500000301000000000000, 0x980600000301000000000000,
  0x980600010300000000000000, 0x980600020300000000000000, 0x980700000301020000000000, 0x980700010301020000000000,
  0x980800000300000000000003]

def termsTable : List Instr := [
  .plset { d := 3, a := 1, imm := 3 }, .plget { d := 3, a := 1, imm := 3 }, .plinv { imm := 3 },
  .trset { d := 3, a := 1, imm := 3 }, .trsetClr { mod := 1, d := 3, imm := 3 }, .htset { d := 3, a := 1, imm := 3 },
  .xlat { d := 3, a := 1 }, .tlbinvA { d := 3, a := 1 }, .tlbinvL { mod := 1, d := 3 },
  .tlbinvG { mod := 2, d := 3 }, .modld { d := 3, a := 1, b := 2 }, .modldDbg { mod := 1, d := 3, a := 1, b := 2 },
  .modul { d := 3, imm := 3 }]

theorem test_decode_table : (wordsTable.map fun w => decodeSlot (BitVec.ofNat 96 w)) = termsTable.map some := by decide +kernel

def wordsCounter : List Nat := [
  0xA00000000300000000000003, 0xA00000010300000000000003, 0xA00000020300000000000003, 0xA00100000001000000000003,
  0xA00200000300000000000003, 0xA00300000301000000000003, 0xA00400000300000000000007, 0xA00500000301020000000000,
  0xA00600000300000000000000, 0xA00700000300000000000000]

def termsCounter : List Instr := [
  .bara { d := 3, imm := 3 }, .baraJoin { mod := 1, d := 3, imm := 3 }, .baraLeave { mod := 2, d := 3, imm := 3 },
  .barw { a := 1, imm := 3 }, .barq { d := 3, imm := 3 }, .ctrsel { d := 3, a := 1, imm := 3 },
  .ctrrd { d := 3, imm := 7 }, .timset { d := 3, a := 1, b := 2 }, .tstmp { d := 3 }, .clkrd { d := 3 }]

theorem test_decode_counter : (wordsCounter.map fun w => decodeSlot (BitVec.ofNat 96 w)) = termsCounter.map some := by decide +kernel

/-- The words that the chapters of the spec write out, with the instructions they stand for. -/
def worked : List (Nat × Instr) := [
  (0x100010000301020000000000, .add { ty := 4, d := 3, a := 1, b := 2 }),
  (0x30004AC042C0410000000000, .vadd { ty := 0x12, pg := 0xB, d := 0x42, a := 0xC0, b := 0x41 }),
  (0x010000000000FFFFFFFFFFF9, .br { disp := (-7) }),
  (0x030000010005FFFFFFFFFFFC, .brc { mod := 1, a := 5, disp := (-4) }),
  (0x0A0000010000001000000040, .setsi { mod := 1, imm := 0x1000000040 }),
  (0x10040C020A0B0C0D00000000, .madd { ty := 3, mod := 2, d := 0xA, a := 0xB, b := 0xC, c := 0xD }),
  (0x10120C010301020000000008, .lea { ty := 3, mod := 1, d := 3, a := 1, b := 2, imm := 8 }),
  (0x101120020501030000000000, .cmp { ty := 8, mod := 2, d := 5, a := 1, b := 3 }),
  (0x110800000100FFFFFFC00000, .li { d := 1, imm := 0xFFFFFFC00000 }),
  (0x1109000001010000000001FF, .lih { d := 1, a := 1, imm := 0x1FF }),
  (0x30034A854441424300000000, .vfma { ty := 0x12, pg := 0xA, mod := 5, d := 0x44, a := 0x41, b := 0x42, c := 0x43 }),
  (0x320040026145460000000000, .vcmp { ty := 0x10, mod := 2, d := 0x61, a := 0x45, b := 0x46 }),
  (0x360048006001020000000000, .plt { ty := 0x12, d := 0x60, a := 1, b := 2 }),
  (0x33024C104841004900000001, .vqnt { ty := 0x13, mod := 0x10, d := 0x48, a := 0x41, c := 0x49, imm := 1 }),
  (0x50004C106A48005000000003, .mma { ty := 0x13, mod := 0x10, d := 0x6A, a := 0x48, c := 0x50, imm := 3 }),
  (0x520000000A01000040000043, .wbld { d := 0xA, a := 1, p1 := 4, imm := 0x43 }),
  (0x540004006A015400700000FD, .mdrain { ty := 1, d := 0x6A, a := 1, b := 0x54, p1 := 7, imm := 0xFD }),
  (0x600010010401020000000008, .ld { ty := 4, mod := 1, d := 4, a := 1, b := 2, imm := 8 }),
  (0x610010020001700300000010, .st { ty := 4, mod := 2, a := 1, b := 0x70, c := 3, imm := 0x10 }),
  (0x660110000501700600000000, .cas { ty := 4, d := 5, a := 1, b := 0x70, c := 6 }),
  (0x680000001401020030090000, .cpy { d := 0x14, a := 1, b := 2, p1 := 3, p2 := 9 }),
  (0x710000000A01020050004840, .fdin { d := 0xA, a := 1, b := 2, p1 := 5, imm := 0x4840 }),
  (0x72000002100008C81C71C000, .fdadd { mod := 2, drow := 0x10, brow := 8, mrow := 0xC8, dw := 7, aw := 7, bw := 7 }),
  (0x780080000401000000000003, .kprb { ty := 0x20, d := 4, a := 1, imm := 3 }),
  (0x780280100001000200000000, .kupsPost { ty := 0x20, mod := 0x10, a := 1, c := 2 }),
  (0x780480004441620000000803, .kprbv { ty := 0x20, d := 0x44, a := 0x41, b := 0x62, imm := 0x803 }),
  (0x800000000001000000000088, .xmig { a := 1, imm := 0x88 }),
  (0x800210090001020300000008, .xupd { ty := 4, mod := 9, a := 1, b := 2, c := 3, imm := 8 }),
  (0x880000000501004300000007, .send { d := 5, a := 1, c := 0x43, imm := 7 }),
  (0x8A0100010401000000000000, .qclm { mod := 1, d := 4, a := 1 }),
  (0x8B0048000046000000000009, .nred { ty := 0x12, a := 0x46, imm := 9 }),
  (0x900100000800000000000000, .capwait { d := 8 }),
  (0x900300000501020000000000, .capins { d := 5, a := 1, b := 2 }),
  (0x900500000001000000000009, .capset { a := 1, imm := 9 }),
  (0x980000000501000000000007, .plset { d := 5, a := 1, imm := 7 }),
  (0x980600010500000000000000, .tlbinvL { mod := 1, d := 5 }),
  (0xA00000000500000000000003, .bara { d := 5, imm := 3 }),
  (0xA00100000005000000000003, .barw { a := 5, imm := 3 }),
  (0xA00500010501020000000000, .timset { mod := 1, d := 5, a := 1, b := 2 }),
  (0x0B0000000001000000000021, .trap { a := 1, imm := 0x21 }),
  (0x0B020000050102000000000C, .sysc { d := 5, a := 1, b := 2, imm := 0xC }),
  (0x0B0300010800000000000000, .fltrdPeek { mod := 1, d := 8 }),
  (0x0B0400000500000000000001, .capa { d := 5, imm := 1 })]

theorem test_worked_encodings : (worked.all fun p => decodeSlot (BitVec.ofNat 96 p.1) == some p.2) = true := by decide +kernel

/-- A system core's thread about to issue. -/
def sSys : State := s0.as (.sys 0)

/-- A context of channel core 0 about to issue. -/
def sCtx : State :=
  let x : Ctx := { thread := { Slot.initial with st := .runnable }, live := 0, core := 0, slot := 3, launch := 1, win := none, fault := none, returning := false }
  (s0.setChan 0 { Channel.initial with ctxs := [(0, x)] }).as (.ctx 0 0)

/-- Slot 3 of core 0, no shepherd. -/
def sOther : State := s0.as (.slot 0 3)

def termsCtx : List Instr := [.xret {}, .xrlk { d := 3, a := 1 }, .xrul { a := 1 }]
def termsSys : List Instr :=
  [.prmt { d := 3, a := 1 }, .prmtL { d := 3, a := 1, mod := 1 }, .resm { d := 3, a := 1 }, .resmL { d := 3, a := 1, mod := 1 },
    .tlbinvG { d := 3, mod := 2 }, .modld { d := 3, a := 1, b := 2 }, .modldDbg { d := 3, a := 1, b := 2, mod := 1 }, .modul { d := 3, imm := 3 }]

/-! ## Readiness: the hypothesis `Ready` of the statements about instructions -/

/-- Every instruction that a slot may issue is ready for the shepherd of a placed launch, its operands full. -/
theorem test_ready_slots_1 : ((termsControl ++ termsTrap ++ termsScalar).all (readyNow · s0)) = true := by decide +kernel

theorem test_ready_slots_2 : ((termsVector ++ termsTile ++ termsMemory ++ termsField).all (readyNow · s0)) = true := by
  decide +kernel

theorem test_ready_slots_3 : ((termsMap ++ termsNear.filter (!termsCtx.contains ·) ++ termsMessage.filter (!termsSys.contains ·)
    ++ termsCapsule ++ termsTable.filter (!termsSys.contains ·) ++ termsCounter).all (readyNow · s0)) = true := by decide +kernel

theorem test_ready_system_cores : (termsSys.all (readyNow · sSys)) = true := by decide +kernel

theorem test_ready_contexts : (termsCtx.all (readyNow · sCtx)) = true := by decide +kernel

theorem test_sys_and_ctx_terms_are_rows :
    (termsSys.all fun i => (termsMessage ++ termsTable).contains i) = true ∧ (termsCtx.all termsNear.contains) = true := by decide +kernel

/-! ## Ill-formed terms, one for each check, which the check refuses (R71, R72, R74, R76, R81, R82) -/

/-- Fields that step 7 refuses, with the operand it names (R371). -/
def bad7 : List (Instr × Nat) := [
  (.add { ty := 0x12 }, 9), (.add { ty := 3, pg := 8 }, 10), (.add { ty := 3, mod := 4 }, 8), (.nop { d := 1 }, 1), (.nop { a := 1 }, 2),
  (.nop { b := 1 }, 3), (.nop { c := 1 }, 4), (.wbinv { p1 := 1 }, 5), (.wbld { p2 := 1 }, 6), (.nop { imm := 1 }, 7), (.xlat { b := 1 }, 3),
  (.tstmp { a := 1 }, 2), (.vadd { ty := 0x12, mod := 1 }, 8), (.vadd { ty := 0x12, mod := 8 }, 8), (.vadd { ty := 3, mod := 4 }, 8),
  (.movs { imm := 7 }, 7), (.sets { imm := 1, mod := 3 }, 8), (.trd { imm := 128 }, 7), (.twr { imm := 0x1007 }, 7), (.cmp { ty := 3, mod := 6 }, 8),
  (.bfx { ty := 8, imm := 0x13F }, 7), (.ext { ty := 3, mod := 4 }, 8), (.vcmp { ty := 3, mod := 7 }, 8), (.vcmp { ty := 3, mod := 6 }, 8),
  (.vcvt { ty := 0x16, imm := 0x13 }, 7), (.vcvt { ty := 0x10, imm := 0x212 }, 7), (.vqnt { ty := 0x13, imm := 4 }, 7), (.vdot { ty := 0x10, mod := 0x10 }, 8),
  (.mma { ty := 0x13, mod := 1 }, 8), (.mma { ty := 0x10, mod := 0x10 }, 8), (.mma { ty := 0x13, c := 0x50 }, 4), (.wbld { imm := 0xF0 }, 7),
  (.mdrain { ty := 0x12, b := 0x40 }, 3), (.ldv { ty := 0x16, mod := 1 }, 8), (.amo { ty := 4, mod := 56 }, 8), (.amo { ty := 0x12, mod := 16 }, 8),
  (.sbindIn { ty := 3, imm := 3 }, 7), (.sbindIn {}, 9), (.eseq { mod := 3 }, 8), (.prmt { mod := 2 }, 8), (.bara { mod := 3 }, 8), (.fencex { imm := 7 }, 7),
  (.fdmode { imm := 1 }, 7), (.fdcmp { imm := 6 }, 7), (.fdlmul { ty := 0x16, mod := 6 }, 8), (.fdpop { brow := 1 }, 3), (.kups { ty := 0x20, mod := 6 }, 8),
  (.kups { ty := 0x20, mod := 8 }, 8), (.ctrrd { imm := 8 }, 7), (.capget { imm := 0x0D }, 7), (.vred { ty := 0x12, imm := 6 }, 7)]

/-- Operands that step 9 refuses. -/
def bad9 : List (Instr × Nat) := [
  (.add { ty := 3, d := 0x40 }, 1), (.add { ty := 3, d := 0x72 }, 1), (.add { ty := 3, a := 0x40 }, 2), (.add { ty := 3, a := 0xF0 }, 2),
  (.add { ty := 3, b := 0x60 }, 3), (.madd { ty := 3, c := 0x68 }, 4), (.vadd { ty := 3, d := 0x77 }, 1), (.vadd { ty := 3, d := 0x40, a := 1 }, 2),
  (.dbnz { d := 0x81 }, 1), (.pand { d := 0x60, a := 0xE0, b := 0x60 }, 2), (.brc { mod := 6, a := 1 }, 2), (.twr { b := 0x40, imm := 5 }, 3),
  (.vsplit { ty := 0x12, d := 0x5E, a := 0x40 }, 1), (.vqnt { ty := 0x13, d := 0x40, a := 0x41, c := 0xC2, mod := 0x10 }, 4),
  (.mma { ty := 0x13, d := 0x68, a := 0x5F }, 2), (.mma { ty := 0x15, d := 0x68, a := 0x40, c := 0x5F, mod := 0x10 }, 4),
  (.mdrain { ty := 1, d := 0x68, b := 0x5E }, 3), (.mzero { ty := 3, d := 0x40 }, 1), (.sbindIn { ty := 4, d := 1 }, 1), (.sendR { c := 0x41, imm := 5 }, 4),
  (.sstat { a := 1 }, 2), (.kiter { ty := 0x20, d := 62 }, 1), (.kprb { ty := 0x21, a := 1 }, 2), (.qclm { d := 1 }, 1), (.fltrd { d := 61 }, 1),
  (.capwait { d := 62 }, 1), (.cpy { d := 1 }, 1)]

/-- Numbers in the fields that step 10 refuses. -/
def bad10 : List (Instr × Nat) := [
  (.sets { imm := 3 }, 7), (.trd { imm := 104 }, 7), (.twr { imm := 0x1003 }, 7), (.capa { imm := 5 }, 7),
  (.kprbv { ty := 0x20, d := 0x40, a := 0x41, b := 0x60, imm := 0x2100 }, 7), (.capset { imm := 3 }, 7), (.xmig { imm := 0x1FFFF }, 7), (.ctrrd { mod := 1, imm := 14 }, 7)]

theorem test_check7_refuses : (bad7.all fun p => p.1.check7 0 2048 false == some p.2) = true := by decide +kernel

theorem test_check9_refuses : (bad9.all fun p => p.1.check7 0 2048 false == none && p.1.check9 0 2048 false == some p.2) = true := by
  decide +kernel

theorem test_check10_refuses : (bad10.all fun p => p.1.check7 0 2048 false == none && p.1.check10 2048 == some p.2) = true := by decide +kernel

/-- An unassigned OP or SUB, a unit that the part lacks, a restricted instruction, and fields of another row's selector. -/
theorem test_other_checks_refuse :
    decodeSlot (BitVec.ofNat 96 (0x0C * 2 ^ 88)) = none ∧ decodeSlot (BitVec.ofNat 96 (0x1013 * 2 ^ 80)) = none
    ∧ decode [0, 1, 2] = .error .short
    ∧ State.precheck { s0 with part := .v2e } (.fdwait {}) = some (stepFault .unitAbsent 6 0)
    ∧ sOther.precheck (.tstart {}) = some (stepFault .priv 8 0) ∧ s0.precheck (.modul {}) = some (stepFault .priv 8 0)
    ∧ sSys.precheck (.vadd { ty := 3, d := 0x40, a := 0x40, b := 0x40 }) = some (stepFault .illegalOp 5 0)
    ∧ sCtx.precheck (.add { ty := 3, d := 0xB0, a := 1, b := 2 }) = some (stepFault .illegalOperand 9 0)
    ∧ (Instr.qpub { mod := 2 }).wf = false ∧ (Instr.bundleIssue (.core 0)).wf = false ∧ (Instr.add { ty := 3 }).wf = true := by
  decide +kernel

/-! ## Results, from the worked examples of the spec -/

/-- R38: DIV.i8.sat of −128 by −1 gives −128, and SAT stays clear. -/
theorem test_div_corner : nextIs (exec (.div { ty := 1, mod := 2, d := 3, a := 1, b := 2 }) (State.regs s0 [(1, 0x80), (2, 0xFF)])) (fun t =>
    t.thread.gr 3 == BitVec.ofInt 64 (-128) && t.thread.flags == 0 && t.thread.pc == s0.thread.pc + 1) = true := by decide +kernel

/-- R36, R37: −100 less 100 wraps to 56 in i8, or stays at −128 and sets SAT. -/
theorem test_sub_wraps_or_saturates :
    nextIs (exec (.sub { ty := 1, d := 3, a := 1, b := 2 }) (State.regs s0 [(1, 0x9C), (2, 100)])) (fun t => t.thread.gr 3 == 56 && t.thread.flags == 0) = true
    ∧ nextIs (exec (.sub { ty := 1, mod := 2, d := 3, a := 1, b := 2 }) (State.regs s0 [(1, 0x9C), (2, 100)])) (fun t =>
      t.thread.gr 3 == BitVec.ofInt 64 (-128) && t.thread.flags == 0x20) = true := by decide +kernel

/-- R57: from 2^31 − 100, the chunk sums 150 and −300 end at 2^31 − 301 under saturation. -/
theorem test_saturation_per_chunk :
    tyInt 3 (narrow 3 true (tyInt 3 (narrow 3 true (2 ^ 31 - 100 + 150)).1 - 300)).1 = 2 ^ 31 - 301 := by decide +kernel

/-- R63: the first columns of the line check. -/
theorem test_check_columns : columns.take 2 = [0x007, 0x00B] ∧ (columns.drop 164).take 2 = [0x700, 0x01F] := by decide +kernel

/-- R68: BR of −7 slots at 0x10_0041 goes to 0xF_FFC4. -/
theorem test_branch_target : linear 0x100041 = 81926 ∧ pcOfInt (81926 - 7) = some 0xFFFC4 := by decide +kernel

/-- R152: LI and LIH of the worked encodings make 0x01FF_FFFF_FFC0_0000. -/
theorem test_li_lih : nextIs (exec (.li { d := 1, imm := 0xFFFFFFC00000 }) s0) (fun t =>
    nextIs (exec (.lih { d := 1, a := 1, imm := 0x1FF }) t) fun u => u.thread.gr 1 == 0x01FFFFFFFFC00000) = true := by decide +kernel

/-- R138: VWID on the V2 and the V2e. -/
theorem test_vwid :
    ([(0x12, 64), (0x16, 320), (0, 2048)].all fun (p : Nat × Nat) =>
      nextIs (exec (.vwid { ty := BitVec.ofNat 6 p.1, d := 4 }) s0) fun t => t.thread.gr 4 == BitVec.ofNat 64 p.2) = true
    ∧ ([(0x12, 32), (0x16, 160), (0, 1024)].all fun (p : Nat × Nat) =>
      nextIs (exec (.vwid { ty := BitVec.ofNat 6 p.1, d := 4 }) { s0 with part := .v2e }) fun t => t.thread.gr 4 == BitVec.ofNat 64 p.2) = true := by
  decide +kernel

/-- R132: `SETSI.or st.flags, 0x40` sets RM to RTZ and keeps the other bits. -/
theorem test_setsi_or : setsValue 1 (0x25 : Word) 0x40 = 0x65 ∧ flagsWritten (0x825 : Word) 0x65 = 0x865 := by decide +kernel

/-- R52: the worked l6 products. -/
theorem test_l6_products : (l6Mul 0x06 0x3C).1 = 0x22 ∧ l6Mul 0x0F 0x0F = (0x0F, 0x20) := by decide +kernel

/-- R168: the worked quantization of one block to e4m3. -/
theorem test_vqnt_worked :
    nextIs (exec (.vqnt { ty := 0x13, mod := 0x10, d := 0x48, a := 0x41, c := 0x49, imm := 1 })
      (s0.setThread { s0.thread with v := s0.thread.v.setIfInBounds 1 (ofElems 0x12
        [0x447A0000, 0xC0400000, 0x3F000000, 0x40000000, 0, 0x40E00000, 0xC4960000, 0x41200000]) }))
      (fun t => vbyte (t.thread.vr 9) 8 == 0x81 && t.thread.flags == 0x10
        && ((List.range' 64 8).map (vbyte (t.thread.vr 8))) == [0x78, 0xB4, 0x20, 0x30, 0x00, 0x3E, 0xF9, 0x42]) = true := by decide +kernel

/-- R171: `VDOT.n8.bx` of the worked bytes adds −398 to lane 0. -/
theorem test_vdot_worked :
    nextIs (exec (.vdot { ty := 5, mod := 0x10, d := 0x43, a := 0x41, b := 0x42 })
      (s0.setThread { s0.thread with v := (s0.thread.v.setIfInBounds 1 0x030001C8).setIfInBounds 2 0xFF0705FE }))
      (fun t => tyInt 3 (elem 3 (t.thread.vr 3) 0) == -398) = true := by decide +kernel

/-- R177: PLT of 128 and 150 finds 22 words and sets bits 0 to 87. -/
theorem test_plt_worked : nextIs (exec (.plt { ty := 0x12, d := 0x60, a := 1, b := 2 }) (State.regs s0 [(1, 128), (2, 150)])) (fun t =>
    t.thread.pr 0 == BitVec.ofNat 256 (2 ^ 88 - 1)) = true := by decide +kernel

/-- R236: FDSTAT's word of an idle field of 2 ways among 16, with 14 left to the slice. -/
theorem test_field_status : Fold.status { Fold.initial with qways := 2, ways := 2 } = 0x0E020200 := by decide +kernel

/-- R334: the worked element and scale of a plat. -/
theorem test_plat_places : let p : Plat := { base := 0x1000, scale := 0x9000, dim := [64, 32, 0, 0], str := [1, 64, 0, 0], ty := 0x13, rank := 2, block := 8, comp := 0, hnt := 0 }
    (p.loc [19, 3, 0, 0]).1 = 0x1000 + 211 ∧ p.scaleLoc [19, 3, 0, 0] = 0x9000 + 26 := by decide +kernel

/-- R207, R208: a store leaves its bytes at its address, least significant first, and the load of the next instruction reads them. -/
theorem test_store_then_load :
    nextIs (exec (.st { ty := 7, a := 1, b := 0x70, c := 2, imm := 4 }) (State.regs s0 [(1, 0x400080000), (2, 0x1122334455667788)])) (fun t =>
      t.mem.readNat 0x80004 4 == 0x55667788 && t.mem.get 0x80004 == 0x88 && t.mem.get 0x80008 == 0
        && nextIs (exec (.ld { ty := 3, d := 5, a := 1, b := 0x70, imm := 4 }) t) fun u => u.thread.gr 5 == 0x55667788) = true := by decide +kernel

/-- R368, R370, R385: TRAP of slot 3 leaves it FAULTED at its PC, with its record in the queue and slot 0 ready. -/
theorem test_trap_taken :
    nextIs (exec (.trap { a := 1, imm := 0x21 }) (State.regs sOther [(1, 0x77)])) (fun t =>
      (t.slot 0 3).st == .faulted && (t.slot 0 3).pc == (s0.slot 0 3).pc && (t.slot 0 0).ready
        && (t.core 0).scr.readNat frqOff 8 == 1 && (t.core 0).scr.readNat (frqOff + 64 + 16) 8 == 0x77
        && (t.core 0).scr.readNat (frqOff + 64 + 24) 2 == 16 && (t.core 0).scr.readNat (frqOff + 64 + 30) 2 == 0x21) = true := by decide +kernel

/-- R131: TRET runs it again. -/
theorem test_tret : nextIs (exec (.trap { a := 1, imm := 0x21 }) sOther) (fun t =>
    nextIs (exec (.tret { d := 3, a := 1 }) (State.regs (t.as (.slot 0 0)) [(1, 3)])) fun u => (u.slot 0 3).st == .runnable) = true := by decide +kernel

/-- R75: a take source is empty after the instruction, and a destination that is one too is full. -/
theorem test_take :
    nextIs (exec (.add { ty := 4, d := 3, a := 0x81, b := 0x81 }) (State.regs s0 [(1, 5)])) (fun t =>
      !t.thread.fe.getLsbD 1 && t.thread.fe.getLsbD 3 && t.thread.gr 3 == 10) = true
    ∧ nextIs (exec (.add { ty := 4, d := 1, a := 0x81, b := 2 }) s0) (fun t => t.thread.fe.getLsbD 1) = true := by decide +kernel

/-- The host's two questions, on one word: the decoder gives the instruction, and step runs it. -/
theorem test_placed_word :
    decodeTableWord 96 0x110800000100FFFFFFC00000 = some (.li { d := 1, imm := 0xFFFFFFC00000 })
    ∧ nextIs (step (State.reset.withFetchWord 96 0x110800000100FFFFFFC00000)) (fun t =>
      t.thread.gr 1 == BitVec.ofInt 64 (-0x400000) && t.thread.pc == 0x40001) = true := by decide +kernel

/-- R56: infinities of both signs in one chunk set IV wherever a quiet NaN stands among them. -/
theorem test_chunk_infinities_in_any_order :
    ([[.nan false, .inf false, .inf true], [.inf true, .nan false, .inf false], [.inf false, .inf true, .nan false]].all fun ps =>
      (chunkSum (ps.map fun x => (x, (0 : Word))) (.fin false 0 0, 0)).2 == flagIV) = true
    ∧ (chunkSum [(.nan false, 0), (.inf true, 0)] (.fin false 0 0, 0)).2 = 0 := by decide +kernel

/-! ## States and operands that meet the hypotheses of the statements

A statement whose only hypothesis is `Ready` has its witnesses in the theorems test_ready_… above. -/

/-- A word of data memory set (virtual address `dataAt + x`). -/
def dataAt : Nat := 0x400000000

/-- Data bytes written to memory. -/
def State.data (s : State) (x n v : Nat) : State := { s with mem := s.mem.writeNat x n v }

/-- Slot `k` of core 0 in a state of its own. -/
def State.slotIn (s : State) (k : Nat) (st : SlotState) (w : Option Wait := none) : State :=
  State.slot0 s k fun t => { t with st := st, wait := w }

theorem witness_NarrowClampsOrWraps : (intTys.all fun t => [tyMin t - 1, tyMin t, tyMax t, tyMax t + 1].all fun v =>
    tyInt t (narrow t true v).1 == max (tyMin t) (min (tyMax t) v)
      && ((narrow t true v).2 == flagSAT) == (decide (v < tyMin t) || decide (tyMax t < v))) = true := by decide +kernel

theorem witness_DivisionTruncatesWithTabledCorners : (intTys.all fun t =>
    divInt t (tyMin t) 0 == (if tyIsSigned t then -1 else tyMax t, flagDZ)
      && (!tyIsSigned t || (divInt t (tyMin t) (-1) == (tyMin t, 0) && divInt t (-7) 2 == (-3, 0) && remInt t (-7) 2 == (-1, 0)))
      && (divInt t (tyMax t) (tyMax t)).1 == 1) = true := by decide +kernel

def brTo (f : FmtB) (s : State) (_ : Eff) : Bool :=
  match pcOfInt (linear s.thread.pc + f.disp.toInt) with
  | some pc => (s.targetLine pc).isNone && (s.targetFault pc).isNone
  | none => false

theorem witness_BranchesReachTheirTargets :
    let s := State.regs (State.targets s0) [(1, 4), (2, 0x40004), (3, 1), (5, 2)]
    [meets (.br { disp := 4 }) s (brTo { disp := 4 }), meets (.call { d := 3, disp := 4 }) s (brTo { disp := 4 }),
      meets (.brc { a := 1, mod := 1, disp := 4 }) s (brTo { disp := 4 }), meets (.brc { a := 0x60, mod := 6, disp := 1 }) s (brTo { disp := 1 }),
      meets (.brc { a := 0x60, mod := 7, disp := 1 }) s (brTo { disp := 1 }),
      meets (.dbnz { d := 3, disp := 4 }) s (fun t e => brTo { disp := 4 } t e && t.rs 3 == 1),
      meets (.dbnz { d := 5, disp := 0 }) s (fun t e => brTo { disp := 0 } t e && t.rs 5 != 1),
      meets (.brx { d := 3, a := 1 }) s (fun t _ => (pcOfInt (linear t.thread.pc + (t.rs 1).toInt) == some 0x40004) && (t.targetLine 0x40004).isNone && (t.targetFault 0x40004).isNone),
      meets (.jmp { d := 3, a := 2 }) s (fun t _ => (t.targetLine (t.rs 2)).isNone && (t.targetFault (t.rs 2)).isNone)].all id = true := by decide +kernel

/-- Core 1, whose slot 0 runs, as a bellwether that `t` may follow. -/
def bellwether (t : State) (a : BitVec 8) (p : Nat → Slot → Bool) : Bool :=
  let b := (t.rs a).toNat % 8
  t.cur == .slot 0 0 && !t.isGateway 0 && p b (t.slot b 0)

theorem witness_WaitingAndSlotControlComplete_1 :
    let s := State.regs s0 [(1, 1), (2, 1), (5, 8), (6, winBase)]
    let two := fun (st : SlotState) (fl : Word) => s.setCore 1 { placeCore with slots := placeCore.slots.setIfInBounds 0 { Slot.initial with st := st, flags := fl } }
    let running := [SlotState.runnable, .parked, .held]
    let flw := fun (a : BitVec 8) (s : State) (p : Nat → Slot → State → Bool) => meets (.flw { d := 3, a := a }) s fun t _ => bellwether t a fun b u => p b u t
    [flw 1 (two .runnable 0) (fun b u _ => b == 1 && !u.follow && running.contains u.st),
      flw 1 (two .parked 0) (fun b u _ => b == 1 && !u.follow && running.contains u.st),
      flw 1 (two .held 0) (fun b u _ => b == 1 && !u.follow && running.contains u.st),
      flw 5 s (fun b _ _ => b == 0), flw 1 (two .runnable 0x800) (fun b u _ => b == 1 && u.follow),
      flw 1 (two .ended 0) (fun b u _ => b == 1 && !running.contains u.st), flw 1 (two .stopped 0) (fun b u _ => b == 1 && !running.contains u.st),
      meets (.flw { d := 3 }) ((s.setCore 1024 { Core.initial with slots := Core.initial.slots.setIfInBounds 0 { Slot.initial with st := .runnable } }).as (.slot 1024 0))
        (fun t _ => t.cur == .slot 1024 0 && t.isGateway 1024),
      (verifyLine (s.mem.line 0)).map (·.2) == some false, meets (.ipf { a := 1, b := 2 }) s (fun _ _ => true),
      meets (.watch { a := 6, b := 0x70, imm := 16 }) s (fun t _ => let a := (t.ea { a := 6, b := 0x70, imm := 16 } 8).toNat
        winBase ≤ a && decide (a < winBase + 2 ^ 22) && a % 8 == 0 && (match t.reach t.cur a 8 .load with
          | .ok (.scr _ _) => true
          | _ => false)),
      meets (.waita {}) (State.slot0 s 0 fun t => { t with ready := true }) (fun t _ => t.thread.ready),
      meets (.flx {}) (s.setThread { s.thread with flags := 0x800 }) (fun t _ => t.thread.follow)].all id
      = true := by decide +kernel

/-- The clauses on another slot: `j` is in a1, and slot 1 has been put into the state that the clause asks for. -/
theorem witness_WaitingAndSlotControlComplete_2 :
    let s := State.regs s0 [(1, 1)]
    let peer := fun (i : Instr) (s : State) (p : Slot → Bool) => meets i s fun t _ => ((t.peer? (t.rs 1).toNat).map p).getD false
    [SlotState.idle, .stopped, .ended].all (fun x => peer (.tstart { d := 3, a := 1, b := 2 }) (State.slotIn s 1 x) (·.st == x)) = true
    ∧ [SlotState.runnable, .held, .stopped].all (fun x => peer (.tstop { d := 3, a := 1 }) (State.slotIn s 1 x) (fun u => u.st == x && u.again.isNone)) = true
    ∧ meets (.tstop { d := 3, a := 1 }) (State.slotIn s 1 .parked (some .message)) (fun t _ => t.abandonable 0 1 (t.slot 0 1)) = true
    ∧ [SlotState.idle, .stopped, .ended, .faulted].all (fun x => meets (.treap { d := 3, a := 1 }) (State.slotIn s 1 x) fun t _ => (t.slot 0 1).st == x && okay (t.reapWay 0 1)) = true
    ∧ [SlotState.stopped, .faulted].all (fun x => peer (.tret { d := 3, a := 1 }) (State.slotIn s 1 x) (·.st == x)) = true
    ∧ peer (.tstat { d := 3, a := 1 }) s (fun _ => true) = true
    ∧ [Instr.tstart { d := 3, a := 1, b := 2 }, .tstop { d := 3, a := 1 }, .treap { d := 3, a := 1 }, .tret { d := 3, a := 1 }].all (fun i =>
      meets i (State.regs s0 [(1, 0)]) (fun t _ => t.rs 1 == 0) && meets i (State.regs s0 [(1, 16)]) (fun t _ => (t.peer? 16).isNone)) = true
    ∧ meets (.tend {}) sOther (fun t _ => t.thread.hold == none && t.cur == .slot 0 3) = true
    ∧ meets (.tend {}) s0 (fun t _ => t.thread.hold == none && t.cur == .slot 0 0 && okay (t.reapWays 0 (List.range' 1 15)) && (List.range 16).all fun i => i == 0 || (t.slot 0 i).st == .idle) = true := by
  decide +kernel

/-- The clauses where the environment lets other work in between the units of a vector access, and where it does not. -/
theorem witness_LoadsAndStoresComplete_2 :
    let s := State.regs s0 [(1, dataAt + 0x80000)]
    let held : State := { s with env := { s.env with defer := [3] } }
    [Instr.ldv { ty := 3, d := 0x43, a := 1, b := 0x70 }, .stv { ty := 3, a := 1, b := 0x70, c := 0x44 }, .gth { ty := 3, d := 0x43, a := 1, b := 0x42 },
      .sct { ty := 3, a := 1, b := 0x42, c := 0x44 }].all (fun i => meets i s (fun t _ => t.deferNow == 0) && meets i held (fun t _ => t.deferNow == 3)
        && nextIs (exec i held) fun t => t.thread.wait == some .served && t.thread.vec.isSome) = true := by decide +kernel

theorem witness_LoadsStoresAndAtomicsComplete :
    let s := State.regs s0 [(1, dataAt + 0x80000), (2, 0)]
    let at_ := fun (f : FmtR) (n : Nat) (acc : Acc) (t : State) => let a := (t.ea f n).toNat
      a % n == 0 && okay (t.reach t.cur a n acc)
    let r : FmtR := { ty := 3, d := 3, a := 1, b := 0x70, imm := 8 }
    let x : FmtR := { ty := 3, a := 1, b := 0x70, c := 4, imm := 8 }
    let v : FmtR := { ty := 3, d := 0x43, a := 1, b := 0x70 }
    let y : FmtR := { ty := 3, a := 1, b := 0x70, c := 0x44 }
    let z : FmtR := { ty := 3, d := 0x43, a := 1, b := 0x70, c := 0x44 }
    [meets (.ld r) s (fun t _ => at_ r 4 .load t), meets (.st x) s (fun t _ => at_ x 4 .store t),
      meets (.ldv v) s (fun t _ => okay (t.unitPlaces (t.ea v 4).toNat 4 .load (t.activeUnits v 4))),
      meets (.stv y) s (fun t _ => okay (t.unitPlaces (t.ea y 4).toNat 4 .store (t.activeUnits y 4))),
      meets (.gth { ty := 3, d := 0x43, a := 1, b := 0x42 }) s (fun t _ => okay (t.gatherPlaces { ty := 3, d := 0x43, a := 1, b := 0x42 } .load)),
      meets (.sct { ty := 3, a := 1, b := 0x42, c := 0x44 }) s (fun t _ => okay (t.gatherPlaces { ty := 3, a := 1, b := 0x42, c := 0x44 } .store)),
      meets (.amo { r with c := 4, mod := 0 }) s (fun t _ => at_ r 4 .atomic t), meets (.cas { r with c := 4 }) s (fun t _ => at_ r 4 .atomic t),
      meets (.amov z) s (fun t _ => (t.ea z 4).toNat % 32 == 0 && okay (Chk.all (fun i => (t.reach t.cur ((t.ea z 4).toNat + 4 * i) 4 .atomic).bind fun l =>
        .ok (i, (t.ea z 4).toNat + 4 * i, l)) ((List.range 8).filter (t.active z.pg 3))))].all id = true := by decide +kernel

theorem witness_StateRegistersComplete :
    let s := State.regs s0 [(1, 1), (2, 0x40003), (4, 1)]
    let trd := fun (imm m : Nat) (p : Nat → Slot → Bool) => meets (.trd { d := if m = 0 ∧ 64 ≤ imm ∧ imm < 96 then 0x43 else if 96 ≤ imm ∧ imm < 104 then 0x63 else 3, a := 1, imm := BitVec.ofNat 32 imm, mod := BitVec.ofNat 6 m }) s
      fun t _ => ((t.peer? 1).map (p imm)).getD false
    let twr := fun (b : BitVec 8) (imm m : Nat) (st : SlotState) => meets (.twr { d := 3, a := 1, b := b, imm := BitVec.ofNat 32 imm, mod := BitVec.ofNat 6 m }) (State.slotIn s 1 st)
      fun t _ => (t.slot 0 1).st == st && okay (t.twr { d := 3, a := 1, b := b, imm := BitVec.ofNat 32 imm, mod := BitVec.ofNat 6 m } (t.slot 0 1))
    [meets (.sets { a := 2, imm := 1 }) s (fun _ _ => true),
      meets (.sets { a := 4, imm := 2 }) s (fun t _ => (efmtWritten (setsValue 0 t.thread.efmt (t.rs 4))).isSome),
      meets (.setsi { imm := 0x001000000040 }) s (fun _ _ => true),
      meets (.setsi { imm := 0x002000000001 }) s (fun t _ => (efmtWritten (setsValue 0 t.thread.efmt 1)).isSome),
      trd 0x1000 0 (fun _ _ => true), trd 0x1002 0 (fun _ _ => true), trd 0 1 (fun n t => (t.port n).isNone), trd 95 1 (fun n t => (t.port n).isNone),
      trd 0 0 (fun n t => (t.port n).isNone), trd 63 0 (fun n t => (t.port n).isNone), trd 64 0 (fun n t => (t.port n).isNone),
      trd 95 0 (fun n t => (t.port n).isNone), trd 96 0 (fun _ _ => true), trd 103 0 (fun _ _ => true),
      twr 2 0x1000 0 .idle, twr 2 0x1000 0 .faulted, twr 4 0x1002 0 .runnable, twr 2 63 0 .runnable, twr 0x42 64 0 .idle, twr 0x62 103 0 .idle, twr 2 95 1 .idle,
      meets (.twr { d := 3, a := 1, b := 2, imm := 0x1000 }) (State.slotIn s 1 .runnable) (fun t _ => (t.slot 0 1).st == .runnable)].all id = true := by decide +kernel

theorem witness_StreamsComplete :
    let s := State.regs s0 [(1, dataAt + 0x80000), (2, 1), (4, 1), (5, 2 ^ 48), (6, 5 + 256 * 48), (7, 5 + 256 * 95)]
    let bind := fun (i : Instr) (f : FmtR) (acc : Acc) => meets i s fun t _ =>
      (t.thread.port (opName f.d)).isNone && decide (0 < (t.rs f.c).toNat) && decide ((t.rs f.c).toNat ≤ 2 ^ 48) && (t.rs f.a).toNat % 8 == 0
        && decide ((t.core 0).generators < 32) && okay (t.reach t.cur (t.rs f.a).toNat 8 acc)
    let q := fun (d a : BitVec 8) => meets (.sbindQ { d := d, a := a, imm := 2 }) (State.slotIn s 5 .runnable) fun t _ =>
      (t.thread.port (opName d)).isNone && (t.slot 0 5).st == .runnable && ((t.slot 0 5).port ((t.rs a).toNat / 256)).isNone
    let un := fun (p : Option Port) => meets (.sunbind { d := 0x31 }) (State.slot0 s 0 fun t => { t with ports := match p with
      | some x => [(49, x)]
      | none => [] }) fun t _ => t.thread.port 49 == p
    [bind (.sbindIn { d := 0x30, a := 1, b := 2, c := 4, ty := 4 }) { d := 0x30, a := 1, b := 2, c := 4, ty := 4 } .pathRead,
      bind (.sbindOut { d := 0x31, a := 1, b := 2, c := 5, ty := 4, imm := 1 }) { d := 0x31, a := 1, b := 2, c := 5, ty := 4 } .pathWrite,
      q 0x3F 6, q 0x5F 7, un none, un (some { kind := .output }), un (some { kind := .input })].all id = true := by decide +kernel

/-- Fields of a map record: key type, value width, level, group limit and split threshold. -/
def mapRec (keyw valw level maxg thr : Nat) : Nat := keyw * 2 ^ 8 + valw * 2 ^ 16 + level * 2 ^ 32 + maxg * 2 ^ 64 + thr * 2 ^ 96

/-- A map whose region is at 16 MiB, as entry 1 of fold 0's map table; map pages are the third 16 GiB. -/
def sMap : State :=
  let s := State.data s0 0x20010 8 0x2F
  let s := s.setKmap 0x1000000 (kmapOf (mapRec 0x20 64 1 4 1) [0x1000000] 1)
  s.setFold 0 { s.fold 0 with maps := [(1, ⟨0x1000000, 0x20, 64, 1, 0⟩)] }

theorem witness_KeyedMapOperationsComplete :
    let s := State.regs sMap [(1, 5), (4, 9)]
    let p := fun (f : FmtR) (keyed : Bool) (o : MapOp) (t : State) (e : Eff) => (match t.boundMap f keyed, t.afterPosted (mapNo f) e with
      | .ok c, .ok e' => ((t.kmap? c.region).map fun m => let g := (t.sentTo c o).1
            (t.fold (m.agentOf g o)).agentQ == [] && m.next g o m.desc.clearing == g && !t.mapHeld m g o && (t.carry c.region o mostForwards g e'.pts).2.2.2
              && okay (t.mapWay c.region [t.sentTo c o])).getD false
      | _, _ => false) && t.deferNow != 2
    let count := fun (t : State) => ((t.kmap? 0x1000000).map (·.desc.count)).getD 0
    let f : FmtR := { ty := 0x20, d := 3, a := 1, imm := 1 }
    [meets (.kprb f) s (p f true (opOf f 0 5 9)), meets (.kins { f with c := 4 }) s (p f true (opOf f 1 5 9)), meets (.kups { f with c := 4 }) s (p f true (opOf f 2 5 9)),
      meets (.kdel f) s (p f true (opOf f 3 5 9)), meets (.kclr { d := 3, imm := 1 }) s (p { d := 3, imm := 1 } false (opOf f 5 0 0)),
      meets (.kiter { f with d := 8 }) (State.regs s [(1, 2 ^ 32)]) (fun t e => p f true (opOf f 4 0 (2 ^ 32)) t e && decide ((t.rs 1).toNat / 2 ^ 32 < count t)),
      meets (.kiter { f with d := 8 }) (State.regs s [(1, 2 ^ 64 - 1)]) (fun t e => okay (t.boundMap f true) && okay (t.afterPosted 1 e) && decide (count t ≤ (t.rs 1).toNat / 2 ^ 32)),
      meets (.kupsPost { ty := 0x20, mod := 0x10, a := 1, c := 4, imm := 1 }) s (fun t _ => okay (t.boundMap f true)),
      meets (.kupsvPost { ty := 0x20, mod := 0x10, a := 0x41, c := 0x44, imm := 0x0801 }) s
        (fun t _ => okay (t.boundMap { ty := 0x20, imm := 0x0801 } true))].all id = true := by decide +kernel

theorem witness_VectorMapOperationsServeTheirLanesInOrder :
    [(Instr.kprbv { ty := 0x20, d := 0x43, a := 0x41, b := 0x62, imm := 0x0801 }),
      .kupsv { ty := 0x20, d := 0x43, a := 0x41, b := 0x62, c := 0x44, imm := 0x0801 }].all (fun i =>
      meets i sMap fun t e => (match t.boundMap { ty := 0x20, imm := 0x0801 } true with
          | .ok c => let os := (vectorOps { ty := 0x20, a := 0x41, imm := 0x0801 } 0 t).map (t.sentTo c)
            (t.kmap? c.region).isSome && okay (t.mapWay c.region os) && (serveAll t c.region 0 os).isSome
          | _ => false) && okay (t.afterPosted 1 e) && t.deferNow != 2) = true := by decide +kernel

theorem witness_MapsAreMadeBoundAndRead :
    let r := mapRec 0x20 64 1 4 1
    let new := fun (s : State) (a v : Nat) (pages used valid : Bool) => meets (.knew { d := 3, a := 1, b := 2 }) (State.regs (State.data s 0x90000 64 v) [(1, a), (2, dataAt + 0x90000)]) fun t _ =>
      okay (t.mapReady a) && match t.mapPage a, t.reachSpan (dataAt + 0x90000) 64 .load with
        | some region, .ok ls => let r := (t.tlbEnter t.cur a).loadSpan (dataAt + 0x90000) ls
          let n := if recValid r.2 then regionPages (recField r.2 8 4) else 1
          match r.1.mapPages n a with
          | .ok ps => let u := r.1.enterPages (min n (ps.length + 1)) a
            okay (u.waysTo (devOf u.myCore) (flt .prot 0 7) ((region :: ps).map fun p => homeFold (p / 64) / 128)) && recValid r.2 == valid && decide (n ≤ ps.length) == pages
              && used == (((u.myLaunch.bind u.launch?).map fun l => l.maps.any fun y => y.2.region == region).getD false)
          | _ => false
        | _, _ => false
    let bound : State := sMap.setLaunch 1 { (sMap.launch? 1).getD placeLaunch with maps := [(1, ⟨0x1000000, 0x20, 64, 1, 0⟩)] }
    let bind := fun (a : Nat) (p : State → Bool) => meets (.kbind { d := 3, a := 1, imm := 2 }) (State.regs sMap [(1, a)]) fun t e =>
      okay (t.afterPosted 2 e) && t.myLaunch == some 1 && okay (t.bindWay 1 a) && (a == 0 || a % 65536 != 0 || okay (t.mapReady a)) && p (t.count 7)
    [new sMap 0x801000000 0 true false false, new sMap 0xBFFFF0000 (mapRec 0x20 64 1 0x10000 1) false false true, new sMap 0x801000000 r true false true,
      new bound 0x801000000 r true true true,
      bind 0 (fun _ => true), bind 0x801000000 (fun t => ((t.mapPage 0x801000000).bind t.kmap?).isSome),
      bind 0x802000000 (fun t => (t.mapPage 0x802000000).isSome && ((t.mapPage 0x802000000).bind t.kmap?).isNone),
      bind 0x801000001 (fun _ => true), bind 0x1000000 (fun t => (t.mapPage 0x1000000).isNone),
      meets (.kbind { d := 3, a := 1, imm := 2 }) (State.regs (sMap.setKmap 0x1000000 { kmapOf r [0x1000000] 1 with desc.valid := false }) [(1, 0x801000000)]) (fun t e =>
        okay (t.afterPosted 2 e) && t.myLaunch == some 1 && ((t.count 7).kmap? 0x1000000).any fun m => !m.desc.valid),
      meets (.kstat { d := 3, a := 1, imm := 1 }) (State.regs sMap [(1, 15)]) (fun t e => okay (t.boundMap { imm := 1 } false) && okay (t.afterPosted 1 e) && okay (t.descWay 0x1000000)),
      meets (.khash { ty := 0x20, d := 3, a := 1, imm := 0x101 }) sMap (fun t e => okay (t.boundMap { ty := 0x20, imm := 0x101 } true) && okay (t.afterPosted 1 e))].all id
      = true := by decide +kernel

/-- An upsert that combines, one that inserts, an insert of a present key, and a delete (R263). -/
theorem witness_AnUpsertIsWhatALaterProbeFinds :
    let m := kmapOf (mapRec 0x20 64 1 4 1) [0x1000000] 1
    let op := fun (k : Nat) (x : Word) => ({ kind := k, comb := 0, signed := false, key := 5, x := x } : MapOp)
    let r := m.apply 0 (op 2 7)
    let q := r.1.apply 0 (op 2 8)
    [m.desc.clearing == false, r.2.ms == msMiss, q.2.ms == msHit, (r.1.apply 0 (op 1 9)).2.ms == msPresent, (r.1.apply 0 (op 3 0)).2.ms == msHit,
      (m.apply 0 (op 1 9)).2.ms == msMiss, q.2.val == 7, (q.1.group 0).find 5 == some 15].all id = true
    ∧ (let m := kmapOf (mapRec 0x20 0 1 4 1) [0x1000000] 1
       let r := m.apply 0 (op 2 7)
       [m.desc.clearing == false, m.desc.valw == 0, r.2.ms == msMiss, r.2.val == m.desc.dflt, (r.1.group 0).find 5 == some 0,
         (r.1.apply 0 (op 2 8)).2.ms == msPresent, (r.1.apply 0 (op 0 0)).2.ms == msHit, m.desc.valw == 0].all id) = true := by decide +kernel

/-- A plat record of rank 2: 64 by 64 elements, rows together. -/
def plat2 (base scale ty block : Nat) : Line :=
  BitVec.ofNat 512 (base + scale * 2 ^ 64 + 64 * 2 ^ 128 + 64 * 2 ^ 160 + 2 ^ 256 + 64 * 2 ^ 288 + ty * 2 ^ 384 + 2 * 2 ^ 392 + block * 2 ^ 400 + 128 * 2 ^ 424)

/-- Fold 0 with plats 5 and 9, of a type, over data memory, and plat 10 in the local window. -/
def sPlat (ty block : Nat) : State :=
  let sc := if block = 8 then dataAt + 0x200000 else 0
  s0.setFold 0 { s0.fold 0 with plats := [(5, plat2 (dataAt + 0x100000) sc ty block), (9, plat2 (dataAt + 0x180000) sc ty block), (10, plat2 (winBase + 4096) sc ty block)] }

/-- A capsule image: two stations on core 0 with handler 1, a payload of 16 bytes, and a completion word. -/
def image (cur completion : Nat) : Nat :=
  16 * 2 ^ 112 + 2 * 2 ^ 128 + cur * 2 ^ 136 + completion * 2 ^ 256 + 2 ^ 48 * 2 ^ 512 + 2 ^ 48 * 2 ^ 576

/-- A launch with handler 1, four barriers and a park queue. -/
def launchOf (s : State) : Launch :=
  { (s.launch? 1).getD placeLaunch with
    handlers := [(1, 0x40000)], hcount := 2, park := 0xB0000, desc := { entry := 0x40000, slots := 16, barriers := 4 },
    barriers := [(0, { phase := 0, members := [((0, 0), 0)], arrivals := [], marks := [] })] }

/-- Slot 0 of core 0 holds bay 0 with an image. -/
def sCap (cur completion : Nat) : State :=
  let s := (State.data s0 0xB0010 4 256).setLaunch 1 (launchOf s0)
  let s := State.core0 s fun c => { c with scr := c.scr.writeNat (bayOff 0) 256 (image cur completion), bays := c.bays.setIfInBounds 0 { st := .held, holder := 0 } }
  State.slot0 s 0 fun t => { t with hold := some 0 }

/-- The same capsule waiting in bay 0, held by no slot. -/
def sWaiting : State :=
  State.slot0 (State.core0 (sCap 0 0) fun c => { c with bays := c.bays.setIfInBounds 0 { st := .waiting } }) 0 fun t => { t with hold := none }

theorem witness_CapsuleInstructionsComplete :
    let new := State.regs (State.data (State.slot0 (sCap 0 0) 0 fun t => { t with hold := none }) 0xA0000 256 (image 0 0)) [(1, dataAt + 0xA0000), (2, dataAt + 0xA1000)]
    let held := fun (i : Instr) (cur cw : Nat) (l : List (Nat × Nat)) (p : State → Bool) => meets i (State.regs (sCap cur cw) l) fun t _ =>
      t.capCore == some (0, 1, 0) && (t.slot 0 0).hold == some 0 && okay (t.spanClean 0 (bayOff 0) 256) && okay (t.spanClean 0 (bayOff 0) 8448) && p t
    let full := fun (i : Instr) => meets i (State.core0 (sCap 0 0) fun c => { c with scr := c.scr.writeNat (bayOff 0 + 16) 1 12 }) fun t _ =>
      t.capCore == some (0, 1, 0) && (t.slot 0 0).hold == some 0 && okay (t.spanClean 0 (bayOff 0) 256) && (t.core 0).bayGet 0 16 1 == 12
    [meets (.capnew { a := 1, b := 2 }) new (fun t _ => (match t.reachSpan (dataAt + 0xA0000) 256 .load with
        | .ok ls => let r := t.loadSpan (dataAt + 0xA0000) ls
          !imageBad r.2 && okay (t.reachSpan (dataAt + 0xA1000) (imgGet r.2 14 2) .load) && (match t.route 1 0 (newImage r.2 1 0 0) 0 with
            | some p => okay (t.transitWay 1 0 p) && !okay ((t.setLaunch 1 { launchOf t with transit := List.replicate 256 { data := 0, ts := 0, place := p } }).transitWay 1 0 p)
            | none => false)
        | _ => false)),
      meets (.capwait { d := 8 }) sWaiting (fun t _ => t.capCore == some (0, 1, 0) && (t.slot 0 0).hold == none && (t.core 0).bayFor 0 == some 0 && okay (t.spanClean 0 (bayOff 0) 256)),
      meets (.capwait { d := 8 }) (State.core0 sWaiting fun c => { c with bays := c.bays.setIfInBounds 0 { st := .waiting, assigned := some 0, handler := 0x40000 } })
        (fun t _ => (t.slot 0 0).hold == none && (t.core 0).bayFor 0 == some 0 && ((t.core 0).bay 0).assigned == some 0),
      meets (.capwaitNw { d := 8, mod := 1 }) sWaiting (fun t _ => (t.slot 0 0).hold == none && (t.core 0).bayFor 0 == some 0),
      meets (.capwaitNw { d := 8, mod := 1 }) (s0.setLaunch 1 (launchOf s0)) (fun t _ => t.capCore == some (0, 1, 0) && (t.slot 0 0).hold == none && (t.core 0).bayFor 0 == none),
      held (.capnext { d := 3 }) 1 0 [] (fun t => decide (imgGet ((t.core 0).bayImage 0) 16 1 ≤ imgGet ((t.core 0).bayImage 0) 17 1 + 1)),
      held (.capnext { d := 3 }) 0 0 [] (fun t => let d := (t.core 0).bayImage 0
        let d' := imgPut (imgPut (imgPut d 17 1 1) 18 1 (imgGet d 18 1 + 1)) 19 1 (imgGet d 19 1 &&& 0xFD)
        decide (1 < imgGet d 16 1) && imgGet d 18 1 != 255 && (match t.route 1 0 d' 1 with
            | some p => okay (t.transitWay 1 0 p)
            | none => false)
          && okay (t.reachSpan (winBase + bayOff 0) (256 + min 8192 (imgGet d 14 2)) .load)),
      held (.capget { d := 3, imm := 0x3F }) 0 0 [] (fun _ => true), held (.capget { d := 3, imm := 0x10 }) 0 0 [] (fun _ => true),
      full (.capins { d := 3, a := 1, b := 2 }), held (.capins { d := 3, a := 1, b := 2 }) 0 0 [(1, 2 ^ 48), (2, 0)] (fun t => !stationBad (t.rs 1).toNat),
      held (.capins { d := 3, a := 1, b := 2 }) 0 0 [(1, 2 ^ 48), (2, 3)] (fun t => decide ((t.core 0).bayGet 0 16 1 < (t.rs 2).toNat)),
      held (.capins { d := 3, a := 1, b := 2 }) 0 0 [(1, 2 ^ 48), (2, 1)] (fun t => !stationBad (t.rs 1).toNat),
      held (.capins { d := 3, a := 1, b := 2 }) 0 0 [(1, 2 ^ 48), (2, 2)] (fun t => !stationBad (t.rs 1).toNat),
      held (.capdel { d := 3, b := 2 }) 0 0 [(2, 0)] (fun _ => true), held (.capdel { d := 3, b := 2 }) 0 0 [(2, 2)] (fun _ => true),
      held (.capdel { d := 3, b := 2 }) 0 0 [(2, 1)] (fun t => decide ((t.core 0).bayGet 0 17 1 < 1 ∧ 1 < (t.core 0).bayGet 0 16 1)),
      held (.capset { a := 1, imm := 0x11 }) 0 0 [(1, 2 ^ 48)] (fun t => match (t.core 0).capset 0 0x11 (t.rs 1).toNat with
        | .ok _ => true
        | .error _ => false),
      held (.cappark { d := 3 }) 0 0 [] (fun t => ((t.launch? 1).map fun l => t.parkRoom l && okay (t.parkClean l)).getD false && okay (t.wayTo (devOf 0) (t.parkDev 1) (flt .prot))),
      held (.capdone {}) 0 0 [] (fun t => (t.core 0).bayGet 0 32 8 == 0),
      held (.capdone {}) 0 (dataAt + 0xA0000) [] (fun t => let a := (t.core 0).bayGet 0 32 8
        a != 0 && a % 8 == 0 && okay (t.reach t.cur a 8 .store))].all id = true := by decide +kernel

theorem witness_TileInstructionsComplete :
    [meets (.mzero { ty := 3, d := 0x6B }) s0 (fun t _ => (t.core 0).pending 3 == 0),
      meets (.mrd { ty := 0x12, d := 0x43, a := 0x68 }) s0 (fun t _ => (t.core 0).pending 0 == 0 && (t.core 0).tags.getLsbD 0 == tagOf 0x12),
      meets (.mwr { ty := 3, d := 0x6F, a := 0x41 }) (State.core0 s0 fun c => { c with tags := 0x80 }) (fun t _ =>
        (t.core 0).pending 7 == 0 && (t.core 0).tags.getLsbD 7 == tagOf 3)].all id = true := by decide +kernel

theorem witness_UnitOperationsAreAcceptedInOrder :
    let on := fun (i : Instr) (ty block no : Nat) => meets i (sPlat ty block) fun t _ => match t.platEntry t.myCore no with
      | some l => (platOf l).rank != 1 && (platOf l).ty == ty && (platOf l).block == block && (origin2 (t.rs 1)).1 % 8 == 0
      | none => false
    [on (.wbld { d := 3, a := 1, p1 := 5, imm := 0x43 }) 0x13 8 5, on (.wbld { d := 3, a := 1, p1 := 5, imm := 0x43 }) 0x10 0 5,
      on (.mload { d := 0x68, a := 1, p1 := 5 }) 0x12 0 5, on (.mload { d := 0x68, a := 1, p1 := 5 }) 3 0 5,
      on (.mdrain { ty := 0x12, d := 0x68, a := 1, p1 := 5 }) 0x12 0 5, on (.mdrain { ty := 1, d := 0x68, a := 1, b := 0x44, p1 := 5 }) 1 0 5].all id = true := by
  decide +kernel

/-- A unit operation of slot 0. -/
def unitOp (k : UnitKind) : UnitOp := { num := 1, slot := 0, pts := 0, conds := [], eff := {}, kind := k }

theorem witness_MatrixOperationsComplete :
    let waiting := fun (s : State) (k : UnitKind) => let t := State.core0 s fun c => { c with mq := [unitOp k] }
      (t.core 0).mrun == none && (t.core 0).mq == [unitOp k] && t.condsDone (unitOp k).conds
    let w : WSlot := { fmt := 6, valid := 1 }
    let again : WSlot := { w with reload := true, plat := plat2 (dataAt + 0x100000) 0 0x10 0, platNo := 5, count := 1 }
    let column := fun (n : Nat) => let op := { unitOp (.mma 0 0 0 0 0 1 0) with got := List.replicate (n * unitK 0x10) 0 }
      let t := State.core0 (sPlat 0x10 0) fun c => { c with mrun := some op, wslots := c.wslots.setIfInBounds 0 again }
      let x := (t.core 0).wslot 0
      (t.core 0).mrun == some op && x.reload && op.got.length / (x.count * unitK (platOf x.plat).ty) == n
        && okay (t.platBoth 0 op.slot (platOf x.plat) op.pts (panelColumn (platOf x.plat) (origin2 x.origin).1 (origin2 x.origin).2 x.count n))
    [waiting s0 (.wbinv 1), waiting s0 (.mma 0 0 0 0 0 1 0), !(((State.core0 s0 fun c => { c with wslots := c.wslots.setIfInBounds 0 w }).core 0).wslot 0).reload,
      w.accepted 1 0, waiting s0 (.mdrain 0 0x12 0 (plat2 (dataAt + 0x100000) 0 0x12 0) 0 0 0 0 0),
      column 0, column 31, (((State.core0 s0 fun c => { c with wslots := c.wslots.setIfInBounds 0 again }).core 0).wslot 0).reload,
      (let p := platOf (plat2 (dataAt + 0x100000) 0 0x10 0)
       okay (s0.platBoth 0 0 p 0 (panelColumn p 0 0 1 31))),
      okay (s0.platReads 0 0 (platOf (plat2 (dataAt + 0x100000) 0 0x12 0)) 0 [[0, 0, 0, 0], [31, 31, 0, 0], [64, 0, 0, 0]]),
      (match s0.drainLines 0 (unitOp (.wbinv 0)) (platOf (plat2 (dataAt + 0x100000) 0 0x12 0)) 0 (List.replicate 33 (1, 0)) with
       | .ok r => decide (1 < r.2.length) && r.2.all fun l => l.all fun x => s0.placeReady 0 x.loc
       | _ => false)].all id = true := by decide +kernel

/-- A copy command of 2 by 2 elements from plat 5 to plat 9, with a completion word. -/
def copyCmd (kind : Nat) (word : Word) : CopyCmd :=
  { kind := kind, core := 0, num := 1, slot := 0, pc := 0x40000, src := plat2 (dataAt + 0x100000) 0 0x12 0, dst := plat2 (dataAt + 0x180000) 0 0x12 0,
    aval := 0, bval := 0, imm := 0, word := some (word, 1), pts := 0, conds := [] }

theorem witness_CopyAndFenceInstructionsComplete :
    let s := State.regs (sPlat 0x12 0) [(1, 0), (2, 0), (12, dataAt + 0x80000)]
    let copy := fun (i : Instr) (kind : Nat) (f : FmtP) => meets i s fun t _ =>
      okay (t.wordOf f.d) && decide ((t.core 0).copyEntries < 32) && match t.buildCopy 0 kind f.p1.toNat f.p2.toNat (t.rs f.a) (t.rs f.b) with
      | .ok _ => true
      | .error _ => false
    let chain := fun (n : Nat) => meets (.cpyc { d := 3, a := 1, b := 2 }) (State.regs (State.data s0 0xD0008 16 (dataAt + 0xC1000 + n * 2 ^ 64)) [(1, dataAt + 0xC0000), (2, dataAt + 0xD0000)])
      fun t _ => okay (t.reach t.cur (dataAt + 0xC0000) 8 .store) && match t.reach t.cur (dataAt + 0xD0000) 24 .atomic with
        | .ok lb => imgGet (t.peek lb 24) 16 8 == n && okay (t.reachSpan (imgGet (t.peek lb 24) 8 8) 8 .store)
        | _ => false
    let r : FmtR := { d := 3, a := 1, b := 2 }
    [copy (.cpy { d := 0x0C, a := 1, b := 2, p1 := 5, p2 := 9 }) 0 { d := 0x0C, a := 1, b := 2, p1 := 5, p2 := 9 },
      copy (.mcast { d := 0x0C, a := 1, b := 2, p1 := 5, p2 := 10, imm := 1 }) 1 { d := 0x0C, a := 1, b := 2, p1 := 5, p2 := 10 },
      copy (.rfill { d := 0x70, a := 1, b := 2, p1 := 5 }) 2 { d := 0x70, a := 1, b := 2, p1 := 5 }, chain 0, chain 1,
      meets (.eseqGo { d := 3, mod := 1 }) (State.core0 s0 fun c => { c with chalted := true }) (fun t _ => (t.core 0).chalted),
      meets (.ewait { a := 1 }) s (fun t _ => decide ((t.rs 1).toNat ≤ (t.core 0).eseq)),
      meets (.fencex { imm := 1 }) s (fun t _ => t.condsDone (t.fenceConds 0 1 t.thread.pts)),
      meets (.fencex { imm := 1 }) (State.core0 s fun c => { c with cq := [.cmd (copyCmd 0 0x400080000)], copyNext := 1 }) (fun t _ => !t.condsDone (t.fenceConds 0 1 t.thread.pts)), meets (.fencex { imm := 0x21 }) s (fun _ _ => true),
      meets (.cwb r) s (fun t _ => t.rs 2 == 0), meets (.cwb r) (State.regs s0 [(1, dataAt + 0x80000), (2, 65)]) (fun _ _ => decide (winBase + 2 ^ 22 ≤ dataAt ∨ dataAt + 0x80080 ≤ winBase))].all id
      = true := by decide +kernel

/-- A field of two ways. -/
def sField (ty block : Nat) : State := let s := sPlat ty block; s.setFold 0 { s.fold 0 with qways := 2, ways := 2 }

theorem witness_FieldInstructionsComplete :
    let s := State.regs (sField 0x12 0) [(1, 0), (2, 0)]
    let f : FmtP := { d := 3, a := 1, b := 2, p1 := 5, imm := 0xE0 }
    let g : FmtF := { mod := 2, drow := 0x10, brow := 8, mrow := 0xC8, dw := 7, aw := 7, bw := 7 }
    let h : FmtF := { g with mod := 0 }
    let room := fun (t : State) => t.cur == .slot 0 0 && !t.isGateway 0 && decide ((t.fold 0).fieldEntries < 16) && (t.fold 0).qways != 0
    [meets (.fdmode { d := 3, imm := 12 }) s (fun t _ => room t), meets (.fdwait { a := 1 }) s (fun t _ => room t && decide ((t.rs 1).toNat ≤ (t.fold 0).fseq)),
      meets (.fdin f) s (fun t _ => room t && okay (t.transferCheck (t.fold 0) f)), meets (.fdout f) s (fun t _ => room t && okay (t.transferCheck (t.fold 0) f)),
      meets (.fdadd g) s (fun t _ => room t && fieldOperandBad 0 g == none), meets (.fdsub g) s (fun _ _ => fieldOperandBad 1 g == none),
      meets (.fdmul g) s (fun _ _ => fieldOperandBad 2 g == none), meets (.fdcmp { h with dw := 0, imm := 1 }) s (fun _ _ => fieldOperandBad 3 { h with dw := 0, imm := 1 } == none),
      meets (.fdsel h) s (fun _ _ => fieldOperandBad 4 h == none), meets (.fdbit { h with imm := 15 }) s (fun _ _ => fieldOperandBad 5 h == none),
      meets (.fdmin h) s (fun _ _ => fieldOperandBad 6 h == none), meets (.fdmax h) s (fun _ _ => fieldOperandBad 7 g == none)].all id = true := by decide +kernel

theorem witness_FieldInstructionsComplete_2 :
    let s := State.regs (sField 0x12 0) []
    let l : FmtF := { ty := 0x16, drow := 0x10, brow := 8, mrow := 0xC8, dw := 5, aw := 5, bw := 5 }
    let q : FmtF := { ty := 0x16, drow := 0x10, arow := 0x40, brow := 8, mrow := 0xC8, dw := 5, aw := 47, bw := 7 }
    let p : FmtF := { drow := 0x10, arow := 0x20, mrow := 0xC8, dw := 7, aw := 7 }
    [meets (.fdlmul l) s (fun _ _ => fieldOperandBad 8 l == none), meets (.fdrq q) s (fun _ _ => fieldOperandBad 9 q == none),
      meets (.fdpop p) s (fun _ _ => fieldOperandBad 10 p == none)].all id = true := by decide +kernel

/-- Lanes selected and not selected by the mask row. -/
theorem witness_RowOperationsActOnSelectedLanesOnly :
    let f : FmtF := { mod := 2, drow := 0xF8, brow := 8, mrow := 0xC8, dw := 7, aw := 7, bw := 7 }
    [decide (f.drow.toNat + spanWidth f.dw ≤ 256), laneSelected 0 f 0 != laneSelected 0 f (BitVec.twoPow 256 200)].all id = true := by decide +kernel

theorem witness_NearMemoryInstructionsComplete :
    let s := State.regs s0 [(1, dataAt + 0x80000), (2, 0)]
    let f : FmtR := { ty := 4, a := 1, b := 2, c := 4 }
    let near := fun (t : State) => let a := (t.ea f 8).toNat
      a % 8 == 0 && (decide (a < apBase) || decide (winBase + 2 ^ 22 ≤ a)) && match t.reach t.cur a 8 .near with
      | .ok (.mem _) => true
      | _ => false
    let lock := fun (ls : List (Nat × Nat × Nat)) => (sCtx.setChan 0 { sCtx.chan 0 with locks := ls }).setThread { sCtx.thread with g := sCtx.thread.g.setIfInBounds 1 0x400080000 }
    let mine := fun (t : State) => match t.myRow (t.rs 1).toNat with
      | .ok r => r.1 == 0 && r.2.1 == 0
      | _ => false
    let row := rowPa 0x80000
    [meets (.xupd f) s (fun t _ => near t), meets (.xnrm { f with mod := 8 }) s (fun t _ => near t),
      meets (.xmig { a := 1, imm := 0xFFFF }) s (fun t _ => decide (popBits 48 (liveMask { imm := 0xFFFF }).toNat ≤ 16) && okay (t.nearPa (t.rs 1).toNat 2)),
      meets (.xovl { d := 3, a := 1, b := 2, imm := 1 }) (State.regs s0 [(1, 0x40000), (2, dataAt)]) (fun t _ => okay (t.nearPa (t.rs 2).toNat 3)
        && okay (Chk.all (fun i => t.codeLine (0x40000 + 64 * i)) (List.range 64))),
      meets (.xret {}) sCtx (fun t _ => t.cur == .ctx 0 0 && (aget (t.chan 0).ctxs 0).isSome),
      meets (.xrlk { d := 3, a := 1 }) (lock [(row, 0, 1)]) (fun t _ => mine t),
      meets (.xrlk { d := 3, a := 1 }) (lock ((List.range 16).map fun i => (row + 1 + i, 0, 1))) (fun t _ => mine t && ((t.chan 0).locks.find? fun l => l.1 == row).isNone && (t.chan 0).locks.length == 16),
      meets (.xrlk { d := 3, a := 1 }) (lock []) (fun t _ => mine t), meets (.xrul { a := 1 }) (lock [(row, 0, 1)]) (fun t _ => mine t)].all id = true := by decide +kernel

theorem witness_MessageInstructionsComplete :
    let s := State.regs s0 [(1, 0), (2, 2047)]
    let m : Msg := { data := 0, ts := 5 }
    [meets (.send { d := 3, a := 1, c := 0x44 }) s (fun t _ => okay ((t.target 1).bind t.sendTo) && (t.setFrom (devOf 0)).deferNow != 2 && (t.setFrom (devOf 0)).accepts 0),
      meets (.sendR { d := 3, a := 1, c := 4, imm := 0x0503, mod := 1 }) (State.slotIn s 3 .runnable) (fun t _ =>
        okay ((t.target 1).bind t.sendTo) && ((t.slot 0 3).port 5).isNone && (t.fillReg 0 3 5 0 0).isSome && (t.slot 0 3).st == .runnable),
      meets (.sendR { d := 3, a := 1, c := 0x44, imm := 0x5F03, mod := 1 }) s (fun t _ =>
        okay ((t.target 1).bind t.sendTo) && ((t.slot 0 3).port 95).isNone && (t.fillReg 0 3 95 0 0).isSome && (t.slot 0 3).st == .idle),
      meets (.sendFar { d := 3, a := 1, b := 2, c := 0x44 }) s (fun t _ => okay (t.target 1) && decide ((t.rs 2).toNat < 2048)),
      meets (.recv { d := 0x43 }) (State.core0 s0 fun c => { c with inbox := [m] }) (fun t _ => (t.core t.myCore).inbox == [m] && okay (t.spanClean t.myCore inboxOff 24)),
      meets (.recvNw { d := 0x43, mod := 1 }) (State.core0 s0 fun c => { c with inbox := [m] }) (fun t _ => (t.core t.myCore).inbox == [m] && okay (t.spanClean t.myCore inboxOff 24)),
      meets (.recvNw { d := 0x43, mod := 1 }) s0 (fun t _ => (t.core t.myCore).inbox.isEmpty),
      meets (.lback { c := 0x44 }) (State.core0 s0 fun c => { c with inbox := List.replicate 31 m }) (fun t _ => decide ((t.core t.myCore).inbox.length < 32) && okay (t.spanClean t.myCore inboxOff 24)),
      meets (.istat { d := 3 }) s0 (fun t _ => okay (t.spanClean t.myCore inboxOff 24))].all id = true := by
  decide +kernel

/-- Whether a queue controller answers at once. -/
def answered (x : Served) : Bool := match x with
  | .answer _ _ => true
  | _ => false

theorem witness_TaskAndQueueInstructionsComplete :
    let s := State.regs (State.targets s0) [(1, dataAt + 0x80000), (2, dataAt + 0x90000), (4, 0x40000), (5, 1), (6, 1024), (7, 2)]
    let two := s.setCore 1 { placeCore with ordinal := 1 }
    let gw := (s.setCore 1024 { Core.initial with slots := Core.initial.slots.setIfInBounds 0 { Slot.initial with st := .runnable } }).as (.slot 1024 0)
    let deque := fun (t : State) => t.hasDeque && t.deferNow != 2 && (t.fold 0).qctlQ == [] && t.searchIdle t.myCore
    let q := fun (i : Instr) (f : FmtR) (acc : Acc) (op : State → QueueOp) (s : State) => meets i s fun t e =>
      match t.queueAt f acc with
      | .ok fi => let u := (t.tlbEnter t.cur (t.rs f.a).toNat).setFrom (fi / 128)
        u.deferNow != 2 && (u.fold fi).qctlQ == [] && answered (u.serveQueue u.cur u.myCore u.thread.pts e (op t))
      | _ => false
    let gwOf := fun (f : FmtR) (t : State) => match t.gwDie f with
      | .ok d => d == 0
      | _ => false
    let die := fun (l : List (Nat × Word)) (s : State) => s.setDie 0 { s.die 0 with gwq := l }
    let lnch := fun (size : Nat) => meets (.lnch { d := 3, a := 1, b := 2 }) (State.data s 0x80010 4 size) fun t _ =>
      okay (t.reach t.cur (dataAt + 0x90000) 64 .load) && match t.reach t.cur (dataAt + 0x80000) 64 .atomic with
        | .ok la => imgGet (t.peek la 64) 16 4 == size && okay (t.reach t.cur (dataAt + 0x80040) 64 .store)
        | _ => false
    [meets (.spawn { d := 3, a := 4, b := 2 }) s (fun t _ => deque t && (t.targetFault (t.rs 4)).isNone), meets (.tnext { d := 8 }) s (fun t _ => deque t),
      meets (.steal { d := 8, a := 5 }) two (fun t _ => deque t && t.isCompute 1 && (t.core 1).launch == t.myLaunch && pastureOf 1 == pastureOf t.myCore),
      meets (.join { d := 8, a := 1, imm := 1 }) s (fun t _ => okay (t.access (dataAt + 0x80000) 32 .atomic)),
      q (.qpub { d := 3, a := 1, b := 2, imm := 3 }) { d := 3, a := 1, b := 2, imm := 3 } .atomic (fun t => .qpub (t.rs 1) (t.rs 2) 3 3) s,
      q (.qclm { d := 8, a := 1, mod := 1 }) { d := 8, a := 1, mod := 1 } .atomic (fun t => .qclm (t.rs 1) true 8) s,
      q (.qstat { d := 3, a := 1 }) { d := 3, a := 1 } .load (fun t => .qstat (t.rs 1) 3) s,
      meets (.qpubGw { d := 3, a := 6, b := 7, mod := 2 }) (die [(0, 5)] s) (fun t _ => gwOf { a := 6 } t && (aget (t.die 0).gwq ((t.rs 7).toNat / 2 ^ 49)).isSome),
      meets (.qpubGw { d := 3, a := 6, b := 7, mod := 2 }) s (fun t _ => gwOf { a := 6 } t && (aget (t.die 0).gwq ((t.rs 7).toNat / 2 ^ 49)).isNone && (t.rs 7).toNat / 2 ^ 49 < (t.die 0).gwNext + 1024),
      meets (.qstatGw { d := 3, a := 6, mod := 2 }) s (fun t _ => gwOf { a := 6 } t),
      meets (.qclmGw { d := 8, mod := 2 }) (die [(0, 5)] gw) (fun t _ => t.isGateway 1024 && (t.die 0).gwClaims.isEmpty && aget (t.die 0).gwq (t.die 0).gwNext == some 5),
      meets (.qclmGw { d := 8, mod := 3 }) gw (fun t _ => aget (t.die 0).gwq (t.die 0).gwNext == none), lnch 0, lnch 4].all id = true := by decide +kernel

/-- A tree of two nodes: core 0 at its root. -/
def tree2 : Tree :=
  { owner := 1, ty := 0x12, op := 0, rootreg := 64, nodes := [(0xFFF, 0, 0), (0, 0, 1)], contribs := [], partials := [], ts := 0, total := none }

theorem witness_ReductionsCombineAndDeliver :
    let on := fun (t : Tree) => s0.setTree 3 t
    let leaf : Tree := { tree2 with contribs := [(1, 5)] }
    let root : Tree := { tree2 with contribs := [(0, 1), (1, 5)], partials := [(1, 5)] }
    [meets (.nred { ty := 0x12, a := 0x41, imm := 3 }) (on tree2) (fun t _ => match aget t.dev.trees 3 with
        | some x => x.ty == 0x12 && x.member 0 0 == some 0 && aget x.contribs 0 == none
        | none => false),
      meets (.nred { ty := 0x12, a := 0x41, imm := 3 }) (on { tree2 with nodes := [(0xFFF, 1, 0), (0, 0, 0)] }) (fun t _ => match aget t.dev.trees 3 with
        | some x => x.member 0 0 == some 1 && aget x.contribs 1 == none && okay (t.wayTo (devOf t.myCore) (devOf (x.node (x.node 1).1).2.2) (flt .prot))
        | none => false),
      aget leaf.partials 1 == none, leaf.children 1 == [], aget root.partials 0 == none, root.children 0 == [1], (aget root.partials 1).isSome, (s0.routed (devOf (root.node 1).2.2) (devOf (root.node 0).2.2)), decide (1 < leaf.nodes.length),
      ((s0.slot 0 0).port 64).isNone, ((on { tree2 with contribs := [], partials := [] }).fillReg 0 0 64 6 0).isSome].all id = true := by decide +kernel

theorem witness_TableInstructionsComplete :
    let s := State.regs s0 [(1, dataAt + 0x80000), (2, 7), (4, 0x40000), (5, 7)]
    let one := fun (w : Nat) => 0x12 + 64 * 2 ^ 16 + 2 ^ 32 + w * 2 ^ 128
    let tree := fun (data : Nat) (ts : List (Nat × Tree)) (h n : Bool) => meets (.trset { d := 3, a := 1, imm := 3 })
      (let u := State.data s 0x80000 24 data; { u with dev := { u.dev with trees := ts } }) fun t _ => match t.reachSpan (dataAt + 0x80000) 16 .load with
        | .ok hs => let r := t.loadSpan (dataAt + 0x80000) hs
          treeHeadOk r.2 == h && match r.1.reachSpan (dataAt + 0x80010) (8 * imgGet r.2 4 2) .load with
            | .ok ls => let q := r.1.loadSpan (dataAt + 0x80010) ls
              q.1.treeNodesOk 1 q.2 (imgGet r.2 4 2) == n
            | _ => false
        | _ => false
    let good := one (0xFFF * 2 ^ 24)
    let clr := fun (ts : List (Nat × Tree)) => meets (.trsetClr { d := 3, imm := 3, mod := 1 }) { s with dev := { s.dev with trees := ts } } fun t _ =>
      okay t.tableLaunch && aget t.dev.trees 3 == aget ts 3
    let opened : Tree := { tree2 with contribs := [(0, 1)] }
    let plat := fun (d : Nat) (ok : Bool) => meets (.plset { d := 3, a := 1, imm := 5 }) (State.data s 0x80000 64 d) fun t _ => match t.access (dataAt + 0x80000) 64 .load with
      | .ok l => platValid (BitVec.ofNat 512 (t.loadAt (dataAt + 0x80000) l 64 1).2) == ok
      | _ => false
    [okay (s.launchWay 1), plat (plat2 dataAt 0 0x12 0).toNat true, plat 0 false, meets (.plget { d := 3, a := 2, imm := 5 }) s (fun t _ => okay t.tableLaunch && decide ((t.rs 2).toNat ≤ 7)),
      meets (.htset { d := 3, a := 4, imm := 255 }) s (fun t _ => isSlotAddr (t.rs 4) && (t.launch? 1).isSome),
      meets (.htset { d := 3, a := 5, imm := 0 }) s (fun t _ => !isSlotAddr (t.rs 5) && t.rs 5 != 0),
      tree 0 [] false true, tree (one 0) [] true false, tree good [] true true, tree good [(3, opened)] true true, opened.isOpen,
      tree good [(3, { tree2 with owner := 2 })] true true, tree good [(3, tree2)] true true, !tree2.isOpen, clr [], clr [(3, { tree2 with owner := 2 })],
      clr [(3, opened)], clr [(3, tree2)]].all id = true := by decide +kernel

theorem witness_TranslationAndModuleInstructionsComplete :
    let s := State.regs s0 [(1, dataAt), (2, 2 ^ 56 - 1), (4, 2 ^ 56)]
    let sys := State.regs sSys [(1, 0x100000), (2, 0x80000)]
    let modld := fun (d : Nat) (ok : Bool) => meets (.modld { d := 3, a := 1, b := 2 }) (State.data sys 0x80000 64 d) fun t _ => match t.reachSpan 0x80000 64 .load with
      | .ok ls => let r := t.loadSpan 0x80000 ls
        (match r.1.modldCode false 0x100000 r.2 with
          | .ok _ => ok && okay (r.1.reachSpan (0x80000 + 72) 64 .load)
          | .error _ => !ok)
      | _ => false
    let bare : State := { s with mem := Memory.writeNat s.mem 0x20008 8 0 }
    let later : State := { bare with env := { bare.env with walk := [1] } }
    let of := fun (l a : Nat) (p : State → Option Leaf → Bool) => meets (.xlat { d := 3, a := 1, b := 2 }) (State.regs sSys [(1, a), (2, l)]) fun t _ =>
      t.isSys && !(t.die (dieOf (t.tlbCore t.cur))).missWaits l (a % 2 ^ 57 / 65536) && p t (((t.liveLaunch (t.rs 2).toNat).map fun y => (t.translateFor (t.tlbCore t.cur) (t.rs 2).toNat y.root (t.rs 1).toNat).2).getD none)
    let held := fun (s : State) (p : TlbEnt → Bool) => let u := s.tlbEnter (.slot 0 0) dataAt
      !(u.tlbAll.filter p).isEmpty && (u.translated (u.tlbAll.filter p)).isEmpty
    let free := fun (st : Nat) => meets (.modul { d := 3, imm := 255 }) (sSys.setModule 255 { st := st }) fun t _ => (t.moduleAt 255).st == st
    [okay (s.launchWay 1), okay (sSys.launchesWay fun _ => true), sSys.dev.reqsign,
      meets (.xlat { d := 3, a := 1 }) s (fun t _ => canonical (t.rs 1).toNat && !t.isSys && (match t.translate t.cur (t.rs 1).toNat true with
        | .ok (some _) => true
        | _ => false)),
      meets (.xlat { d := 3, a := 2 }) s (fun t _ => canonical (t.rs 2).toNat && (match t.translate t.cur (t.rs 2).toNat true with
        | .ok none => true
        | _ => false)),
      meets (.xlat { d := 3, a := 4 }) s (fun t _ => !canonical (t.rs 4).toNat), meets (.xlat { d := 3, a := 1 }) later (fun t _ => match t.translate t.cur (t.rs 1).toNat true with
        | .wait _ => true
        | _ => false),
      of 9 dataAt (fun t _ => (t.liveLaunch 9).isNone), of 1 (2 ^ 56) (fun t _ => (t.liveLaunch 1).isSome && !canonical (2 ^ 56)),
      of 1 dataAt (fun _ o => o.isSome), of 1 (2 ^ 56 - 1) (fun t o => (t.liveLaunch 1).isSome && o.isNone), held s (fun _ => true),
      meets (.tlbinvA { d := 3, a := 1 }) s (fun t _ => (t.tlbSpace { a := 1 }).isSome && t.translated (t.tlbAll.filter fun _ => true) == []),
      meets (.tlbinvL { d := 3, mod := 1 }) s (fun t _ => (t.tlbSpace { mod := 1 }).isSome && t.translated (t.tlbAll.filter fun _ => true) == []),
      meets (.tlbinvA { d := 3, a := 1, b := 2 }) (State.regs sSys [(2, 9)]) (fun t _ => (t.tlbSpace { d := 3, a := 1, b := 2 }).isNone),
      meets (.tlbinvG { d := 3, mod := 2 }) sSys (fun t _ => t.translated (t.tlbAll.filter fun _ => true) == []), modld 0 true, modld (2 ^ 64) false, free 0, free 1, free 2].all id = true := by
  decide +kernel

theorem witness_BarrierCounterAndClockInstructionsComplete :
    let s := State.regs (s0.setLaunch 1 (launchOf s0)) [(1, 0), (2, 0x100000F), (4, winBase + 8), (5, 64)]
    let other := s.as (.slot 0 3)
    let bar := fun (f : FmtR) (p : Barrier → Bool) (t : State) (_ : Eff) => match t.barrierOf f with
      | .ok x => p x.2.2.2
      | _ => false
    let joined := fun (b : Barrier) => b.count (0, 0) == some 0
    let apart := fun (b : Barrier) => (b.count (0, 3)).isNone
    let ahead := State.regs (s0.setLaunch 1 { launchOf s0 with barriers := [(0, { phase := 4, members := [((0, 0), 7), ((0, 3), 4)], arrivals := [], marks := [] })] })
      [(1, 5)]
    [meets (.bara { d := 3 }) s (bar {} fun b => joined b && b.phase == 0), meets (.bara { d := 3 }) ahead (bar {} fun b => b.count (0, 0) == some (b.phase + 3)),
      meets (.barw { a := 1 }) ahead (fun t e => bar {} (fun b => decide (b.phase < (t.rs 1).toNat)) t e), meets (.baraJoin { d := 3, mod := 1 }) s (bar {} joined), meets (.baraJoin { d := 3, mod := 1 }) other (bar {} apart),
      meets (.baraLeave { d := 3, mod := 2 }) s (bar {} joined), meets (.baraLeave { d := 3, mod := 2, imm := 3 }) other (bar { imm := 3 } apart),
      meets (.barw { a := 1 }) s (bar {} fun b => b.phase == 0), meets (.barq { d := 3 }) s (bar {} joined),
      meets (.barq { d := 3, a := 1, mod := 1 }) s (fun t _ => okay (t.memberOf 1 (t.rs 1))),
      meets (.ctrsel { d := 3, a := 2, imm := 7 }) s (fun t _ => (t.rs 2).toNat / 2 ^ 25 == 0 && decide ((t.rs 2).toNat % 256 ≤ 15)),
      meets (.timset { d := 3, a := 1, b := 4 }) s (fun t _ => (t.rs 1).toNat == 0 && okay (t.afterExpiry t.myCore)),
      meets (.timset { d := 3, a := 5, b := 4, mod := 1 }) s (fun t _ => let a := (t.rs 4).toNat
        decide (winBase ≤ a ∧ a < winBase + 4096 * (t.core 0).expire.scrPages ∧ a % 8 = 0 ∧ 64 ≤ (t.rs 5).toNat) && okay (t.afterExpiry t.myCore))].all id = true := by decide +kernel

theorem witness_PreemptionAndResumptionComplete :
    let sys := fun (a : Nat) (s : State) => State.regs (s.as (.sys 0)) [(1, a)]
    let own := fun (i : Instr) (a : Nat) (s : State) (p : State → Nat → Bool) => meets i (sys a s) fun t _ => match t.ownCore (t.rs 1) with
      | some c => p t c
      | none => false
    let launch := fun (i : Instr) (s : State) (p : State → Launch → Bool) => meets i (sys 1 s) fun t _ => ((t.liveLaunch (t.rs 1).toNat).map (p t)).getD false
    let kept := State.core0 s0 fun c => { c with saved := true }
    let pre := s0.setLaunch 1 { launchOf s0 with st := .preempted }
    let dead := s0.setLaunch 1 { launchOf s0 with st := .retiring, aborted := true }
    [own (.resm { d := 3, a := 1 }) 0 (State.core0 dead fun c => { c with saved := true }) (fun t c => (t.core c).saved && t.coreAborted c),
      own (.resm { d := 3, a := 1 }) 0 (State.core0 pre fun c => { c with saved := true }) (fun t c => (t.core c).saved && !t.coreAborted c
        && ((((t.resumeCore c).core c).launch.bind (t.resumeCore c).launch?).map (·.st)) == some .preempted),
      launch (.resmL { d := 3, a := 1, mod := 1 }) dead (fun _ l => l.aborted), launch (.resmL { d := 3, a := 1, mod := 1 }) s0 (fun _ l => !l.aborted && l.st != .preempted),
      own (.prmt { d := 3, a := 1 }) 0 dead (fun t c => !(t.core c).saved && t.coreEnding c), meets (.prmt { d := 3, a := 1 }) (sys 4095 s0) (fun t _ => (t.ownCore (t.rs 1)).isNone), own (.prmt { d := 3, a := 1 }) 0 kept (fun t c => (t.core c).saved),
      own (.prmt { d := 3, a := 1 }) 5 s0 (fun t c => !(t.core c).saved && t.coreEnding c),
      own (.prmt { d := 3, a := 1 }) 0 s0 (fun t c => !(t.core c).saved && !t.coreEnding c && t.quietCore c),
      meets (.resm { d := 3, a := 1 }) (sys 4095 s0) (fun t _ => (t.ownCore (t.rs 1)).isNone), own (.resm { d := 3, a := 1 }) 0 s0 (fun t c => !(t.core c).saved),
      own (.resm { d := 3, a := 1 }) 0 kept (fun t c => (t.core c).saved), own (.resm { d := 3, a := 1 }) 1 (s0.setCore 1 { Core.initial with saved := true }) (fun t c => (t.core c).saved && ((t.core c).launch).isNone),
      meets (.prmtL { d := 3, a := 1, mod := 1 }) (sys 9 s0) (fun t _ => (t.liveLaunch 9).isNone), launch (.prmtL { d := 3, a := 1, mod := 1 }) pre (fun _ l => l.st == .preempted),
      launch (.prmtL { d := 3, a := 1, mod := 1 }) s0 (fun t l => let cs := (coresOfPlacement l.folds l.desc.cores).filter fun c => !(t.core c).saved && !t.coreEnding c
        l.st == .running && !(cs.all fun c => (t.slot c 0).st == .ended) && cs.all t.quietCore),
      launch (.prmtL { d := 3, a := 1, mod := 3 }) s0 (fun t l => t.quietFolds l.folds),
      launch (.prmtL { d := 3, a := 1, mod := 1 }) (State.core0 s0 fun c => { c with slots := c.slots.setIfInBounds 1 { Slot.initial with st := .parked, wait := some .divide } })
        (fun t l => l.st == .running && !(((coresOfPlacement l.folds l.desc.cores).filter fun c => !(t.core c).saved && !t.coreEnding c).all t.quietCore)),
      meets (.resmL { d := 3, a := 1, mod := 1 }) (sys 9 s0) (fun t _ => (t.liveLaunch 9).isNone), launch (.resmL { d := 3, a := 1, mod := 1 }) s0 (fun _ l => l.st == .running),
      launch (.resmL { d := 3, a := 1, mod := 1 }) pre (fun _ l => !l.aborted && l.st == .preempted && l.released.isNone)].all id = true := by decide +kernel

theorem witness_TrapsAndSystemCallsTakeEffect :
    let s := State.core0 s0 fun c => { c with scr := c.scr.writeNat frqOff 8 1 }
    [meets (.sysc { d := 3, a := 1, b := 2, imm := 5 }) s0 (fun t _ => decide (t.dev.excq.length < 4096)),
      meets (.fltrd { d := 8 }) s0 (fun t _ => !(t.core 0).unpinned 1023 && okay (t.spanClean 0 frqOff 24) && (t.core 0).frq.1 == (t.core 0).frq.2.1),
      meets (.fltrdPeek { d := 60, mod := 1 }) s (fun t _ => !(t.core 0).unpinned 1023 && (t.tailBad 0).isNone && okay (t.spanClean 0 (frqOff + 64 + 32 * ((t.core 0).frq.2.1 % 16)) 32) && (t.core 0).frq.1 != (t.core 0).frq.2.1),
      meets (.fltrd { d := 60 }) s (fun t _ => (t.core 0).frq.1 != (t.core 0).frq.2.1)].all id = true := by decide +kernel

theorem witness_TheWheelIssuesTheNextSlotThatMay :
    let issues := fun (s : State) => let t := s.turn 0
      rotate 16 (t.core 0).lastSlot (fun k => decide (k < (t.core 0).nslots) && t.mayIssue 0 k)
    let gated : State := { s0 with env := { s0.env with gate := [1] } }
    [s0.env.gate.headD 0 != 1, gated.env.gate.headD 0 == 1, (gated.core 0).launch.isSome,
      (let s := State.core0 s0 fun c => { c with saved := true }
       (s.core 0).launch.isSome && s.env.gate.headD 0 != 1 && !s.coreLive 0), s0.isGateway 1024, !s0.coreLive 5, rotate 16 15 (fun k => k == 15) == some 15, (rotate 16 3 fun _ => false).isNone, s0.coreLive 0, issues s0 == some 0, (issues (State.slotIn s0 0 .stopped)).isNone,
      sSys.otherMayIssue (.sys 0) == false,
      (let s := s0.setChan 0 { sCtx.chan 0 with windows := [(0, ⟨0x40000, 1, 1, [], true, []⟩)] }
       rotate 16 (s.chan 0).lastCtx (fun i => s.otherMayIssue (.ctx 0 i)) == some 0),
      { s0 with dev := { s0.dev with sysThreads := s0.dev.sysThreads.setIfInBounds 0 { Slot.initial with st := .runnable } } }.otherMayIssue (.sys 0)].all id = true := by
  decide +kernel

theorem witness_RepliesFillsAndWalksArrive :
    let wait := fun (w : Wait) => State.slot0 s0 0 fun t => { t with st := .parked, wait := some w, reply := some {}, followBuf := [] }
    let b : Bundle := { pc := 0x40000, first := .nop {} }
    let join := State.slot0 (wait .follow) 0 fun t => { t with followBuf := [b] }
    let late : State := { wait .follow with ac := 256 }
    let m : FillMsg := { core := 0, slot := 3, reg := 95, val := 1, ts := 4, sender := none }
    let run := State.slotIn s0 3 .runnable
    let inp : Port := { kind := .input, base := 0x400080000, stride := 1, count := 2 ^ 48, ty := 4 }
    let out : Port := { kind := .output, base := 0x400080000, stride := 1, count := 1, ty := 4, buf := [⟨7, 1⟩] }
    let bad : Port := { inp with base := 0xC00000000 }
    let miss : Miss := { space := s0.space (.slot 0 0), page := dataAt / 65536, root := 0x10000, pasture := 0, walking := true }
    let walking := s0.setDie 0 { s0.die 0 with misses := [miss] }
    let ready := fun (s : State) => let t := (s.as (.slot 0 0)).thread
      (s.as (.slot 0 0)).replyReady (.slot 0 0) t
    let vec : VecRun := { instr := .stv {}, store := true, n := 4, hint := 0, todo := [(0, dataAt, .mem 0x80000)], vals := [(0, 1)], pts := 0, eff := {} }
    let units := State.slot0 s0 0 fun t => { t with st := .parked, wait := some .served, vec := some vec }
    let again := State.slot0 s0 0 fun t => { t with st := .parked, wait := some (.empty []), again := some b }
    let wEmpty := State.slot0 s0 0 fun t => { t with st := .parked, wait := some .reply, reply := some { wdest := [3], writes := [.g 3 1] } }
    let full := State.slot0 wEmpty 0 fun t => { t with wait := some (.full [3]) }
    [ready units, ready (wait .reply), ready again, ((again.slot 0 0).vec.isNone && (again.slot 0 0).reply.isNone), ready wEmpty,
      (wEmpty.slot 0 0).blocked { wdest := [3], writes := [.g 3 1] } == [3], (wait .reply).thread.blocked {} == [], !ready full,
      (full.slot 0 0).blocked { wdest := [3] } != [], ready (State.slot0 full 0 fun t => { t with fe := 0 }), !s0.dev.poisoned.contains 0x1000,
      (let far := State.slot0 (wait .reply) 0 fun t => { t with peer := some 5 }
       !(far.as (.slot 0 0)).routed 5 ((far.as (.slot 0 0)).standsOn (.slot 0 0)) && (far.slot 0 0).outgoing.isNone), (join.slot 0 0).bell == none,
      (s0.slot 0 0).fetchWait.isNone, ((wait .follow).slot 0 0).followBuf == [], s0.wayOpen m.sender m.core, ((wait .follow).slot 0 0).blocked {} == [],
      ((wait .reply).as (.slot 0 0)).thread.wait == some .reply, ((wait .reply).as (.slot 0 0)).thread.reply.isSome,
      (let t := State.slot0 s0 0 fun t => { t with fetchWait := some 0x1000 }
       (t.slot 0 0).fetchWait == some 0x1000 && (t.as (.slot 0 0)).lineComes (.slot 0 0) (t.as (.slot 0 0)).thread 0x1000),
      (out.unwritten.take (out.askWrites (128 - (s0.core 0).asked)))[s0.env.pick.headD 0 % max 1 (out.askWrites (128 - (s0.core 0).asked))]? == some 0, !(join.slot 0 0).followBuf.isEmpty,
      decide ((late.slot 0 0).flwSince + 256 ≤ late.ac), ((run.slot 0 3).port 95).isNone, (run.fillReg m.core m.slot m.reg m.val m.ts).isSome,
      (s0.fillReg m.core m.slot m.reg m.val m.ts).isSome, (s0.slot 0 3).st == .idle, !(s0.core 0).saved,
      decide (inp.done + s0.perPop 48 inp * inp.buf.length < inp.count), s0.condsDone (inp.held 1), okay (s0.streamRead 0 0 inp 0 (inp.span 0 1)),
      !okay (s0.streamRead 0 0 bad 0 (bad.span 0 1)), s0.condsDone (out.held 1), okay (s0.streamWrite 0 0 out 0 (out.appendElems 48 0 1 7)),
      !okay (s0.streamWrite 0 0 { out with base := 0xC00000000 } 0 (bad.appendElems 48 0 1 7)),
      out.askWrites (128 - (s0.core 0).asked) != 0, ((State.core0 s0 fun c => { c with pinned := List.range' 1016 7 }).core 0).unpinned 1023, (s0.core 0).launch.isSome, canonical (2 ^ 56 - 1),
      inp.ask (128 - (s0.core 0).asked) (s0.perPop 48 inp) != 0, decide (inp.buf.length < 8), dieOf 0 == 0,
      ((walking.die 0).misses.find? fun m => m.space == walking.space (.slot 0 0) && m.page == dataAt % 2 ^ 57 / 65536) == some miss,
      (s0.walkPath dataAt 3 miss.root).all (fun a => !s0.dev.poisoned.contains (a / 64)), (s0.die 0).misses.isEmpty,
      (s0.walkPath (2 ^ 56 - 1) 3 (s0.rootOf (.slot 0 0))).all (fun a => !s0.dev.poisoned.contains (a / 64))].all id = true := by
  decide +kernel

theorem witness_CopyEnginesAndFieldSequencersAdvance :
    let q := State.core0 s0 fun c => { c with cq := [.cmd (copyCmd 0 0x400080000)] }
    let run := fun (word : Word) => ({ cmd := copyCmd 0 word, chunks := [⟨none, [⟨false, [0, 0, 0, 0], [0, 0, 0, 0], none⟩]⟩], sent := 1, doneChunks := 0, mark := 0, walk := false } : CopyRun)
    let going := fun (word : Word) => State.core0 s0 fun c => { c with crun := some (run word) }
    let stuck := fun (w : Word) => ({ run 0x400080000 with cmd := { copyCmd 0 0x400080000 with dst := plat2 w.toNat 0 0x12 0 }, chunks := [⟨none, [⟨false, [0, 0, 0, 0], [0, 0, 0, 0], some 1⟩]⟩] } : CopyRun)
    let wk : Walk := { desc := 0x400090000, atRec := 0x4000A0000, fresh := false, slot := 0, pc := 0x40000, pts := 0 }
    let c := fun (k : FieldKind) => ({ core := 0, slot := 0, pc := 0x40000, ticket := 1, pts := 0, conds := [], kind := k } : FieldCmd)
    let fin := FieldKind.fin (plat2 (dataAt + 0x100000) 0 0x12 0) 0 0 0 0
    let fld := fun (k : FieldKind) => let s := sField 0x12 0
      s.setFold 0 { s.fold 0 with frun := some { cmd := c k, lane := 0, mark := 0, due := 8 } }
    let badIn := FieldKind.fin (plat2 0xC00000000 0 0x12 0) 0 0 0 0
    let parked := State.slot0 (fld (.mode 2 0 0 {} 3)) 0 fun t => { t with st := .parked, wait := some .served }
    [!(s0.core 0).chalted, okay (q.copyStart 0), (q.core 0).crun.isNone,
      okay ((going 0x400080000).copyStep 0 (run 0x400080000) 0), (going 0x400080000).copyMove 0 == some (none, 0), okay ((going 0x400080000).copyWord 0 (copyCmd 0 0x400080000) 0),
      (let r := { run 0x400080000 with cmd := { copyCmd 2 0x400080000 with src := plat2 (dataAt + 0x100000) 0 0x12 0 }, chunks := [⟨none, [⟨false, [0, 0, 0, 0], [0, 0, 0, 0], some 1⟩]⟩] }
       match ((going 0x400080000).copyStep 0 r 0) with
       | .ok q => q.2.chunks.isEmpty && okay ((q.1.setCore 0 { q.1.core 0 with crun := some q.2 }).copyWord 0 q.2.cmd q.2.mark)
       | _ => false),
      (let s := State.core0 { s0 with env := { s0.env with pick := [1] } } fun c => { c with crun := some (run 0x400080000), cover := [run 0x400080000] }
       s.copyMove 0 == some (some 0, 0) && okay (s.popPick.copyStep 0 (run 0x400080000) 0)),
      !okay ((going 0x400080000).copyStep 0 (stuck 0xC00000000) 0),
      okay ((State.core0 s0 fun c => { c with cwalk := some wk }).walkAsk 0 wk), ((State.core0 s0 fun c => { c with crun := some (stuck 0xC00000000) }).copyFault 0).isSome,
      ((State.core0 s0 fun c => { c with crun := some { run 0x400080004 with chunks := [] } }).copyFault 0).isSome,
      (let s := (sField 0x12 0).setFold 0 { (sField 0x12 0).fold 0 with fq := [c fin] }
       (s.fold 0).frun.isNone && !(s.fold 0).fhalted && s.condsDone (c fin).conds),
      (((fld (.op 0 {})).fold 0).frun.map fun r => decide (s0.ac < r.due) && decide (r.due ≤ ({ s0 with ac := 8 } : State).ac)).getD false, ((parked.setWays 0 2).fieldRetire 0 0 0).awaits (.slot 0 0),
      (((fld badIn).fold 0).frun.map fun r => let x := (fld badIn).fieldAt 0 r
        (fld badIn).lanesLeft 0 x != 0 && !okay ((fld badIn).fieldLane 0 x)).getD false].all id = true := by decide +kernel

theorem witness_MapAgentsAdvance :
    let m := kmapOf (mapRec 0x20 64 1 4 1) [0x1000000] 1
    let s := sMap
    let p : Posted := { core := 0, slot := 0, num := 1, mapNo := 1, pts := 0, region := 0x1000000, op := { kind := 2, comb := 0, signed := false, key := 5, x := 1 }, conds := [], grp := 0, queued := false }
    let sp : KMap := { m with desc := { m.desc with splitting := true } }
    [s.kmap? 0x1000000 == some m, s.condsDone p.conds, !m.desc.splitting, !m.desc.clearing, m.desc.threshold != 0, decide (m.desc.count < m.desc.maxgroups),
      decide (128 + 512 * (m.desc.count + 1) ≤ 64 * m.lowest), !sp.splitMade, sp.split.splitMade, (s.fold 0).launch == some 1,
      s.routed (devOf p.core) (m.agentOf p.grp p.op / 128), s.splitRouted m, s.routed (m.agent 0 / 128) (m.descAgent / 128), s.routed (m.descAgent / 128) 0, !s.mapHeld m p.grp p.op, s.folds.all (fun x => x.2.agentQ == []), s.deferNow == 0, s.dev.poisoned.isEmpty,
      (let at_ := m.desc.hashOf 5 % 2 ^ (m.group 0).level
       m.next at_ p.op false == at_ && (s.carry 0x1000000 p.op mostForwards at_ 0).2.2.2 && (s.carry 0x1000000 p.op mostForwards (1 - at_) 0).2.2.2),
      (let t := s.setFold (m.agent 0) { s.fold (m.agent 0) with agentQ := [p.req 0] }
       !(t.carry 0x1000000 p.op mostForwards 0 0).2.2.2), ({ s with env := { s.env with defer := [2] } } : State).deferNow == 2, (aget (s.fold 0).maps 1).isSome, (takeStale 0 1 1 [(0, 2, 1, 0, 0), (0, 1, 1, 1, 1)]).isSome, m.desc.s != m.desc.count].all id = true := by decide +kernel

/-- The cases of the request at the head of an agent's queue. -/
theorem witness_MapAgentsAdvance_heads :
    let m := kmapOf (mapRec 0x20 64 1 4 1) [0x1000000] 1
    let clearing : KMap := { m with desc := { m.desc with clearing := true } }
    let op := fun (k : Nat) (key : BitVec 128) => ({ kind := k, comb := 0, signed := false, key := key, x := 1 } : MapOp)
    let req := fun (g : Nat) (o : MapOp) => ({ who := .slot 0 0, pts := 0, region := 0x1000000, ops := [(g, o)], done := [], ts := 0, shape := .scalar 3, eff := {} } : MapReq)
    let queued := fun (m : KMap) (r : MapReq) => let s := sMap.setKmap 0x1000000 m; s.setFold 0 { s.fold 0 with agentQ := [r] }
    let head := fun (m : KMap) (g : Nat) (o : MapOp) (p : KMap → Nat → Bool) => let s := queued m (req g o)
      let s0 := s.setAgentQ 0 []
      (s.fold 0).agentQ == [req g o] && s.env.combine == [] && ((s0.kmap? 0x1000000).map fun n => !s0.mapHeld n g o
        && p n (n.desc.hashOf o.key % 2 ^ (n.group g).level)).getD false
    let home := m.desc.hashOf 5 % 2 ^ (m.group 0).level
    let more := (m.apply home (op 1 5)).1
    let iter := fun (g : Nat) (x : Word) (found : Bool) (last : Bool) => head more g { op 4 0 with x := x } fun n _ => (n.iterAt g x).2.isSome == found && decide (g + 1 = n.desc.count) == last
    [iter home 0 true (home == 1), iter (1 - home) 0 false (home == 0), iter home (BitVec.ofNat 64 (home * 2 ^ 32 + 9)) false (home == 1), sMap.agentRouted more 0 1, head m 9 (op 4 0) (fun n _ => decide (n.desc.count ≤ 9)),
      ({ req home (op 2 5) with busy := true } : MapReq).busy, !(req home (op 2 5)).busy, (sMap.agentRouted m (1 - home) home),
      (let t : State := { queued m (req home (op 2 5)) with dev := { s0.dev with poisoned := m.linesOf home (op 2 5) } }
       ((t.setAgentQ 0 []).kmap? 0x1000000).any fun n => (t.setAgentQ 0 []).mapHeld n home (op 2 5)),
      head m home (op 0 5) (fun n h => !n.desc.clearing && h == home), head m home (op 2 5) (fun n h => !n.desc.clearing && h == home),
      head m (1 - home) (op 1 5) (fun n h => !n.desc.clearing && h != 1 - home),       head m 0 (op 4 0) (fun n _ => !n.desc.clearing), head m 0 (op 5 0) (fun n _ => !n.desc.clearing && !n.desc.splitting),
      head clearing 0 (op 5 0) (fun n _ => n.desc.clearing && !n.desc.splitting), (State.slotIn s0 0 .parked (some .served)).awaits (.slot 0 0), (req 0 (op 0 5)).blocking, s0.routed 0 (s0.standsOn (.slot 0 0)),
      (queued m (req 0 (op 0 5))).folds.any fun x => x.2.agentQ != []].all id = true := by decide +kernel

/-- A split of a group with two entries (R259). -/
theorem witness_ASplitDividesItsGroup :
    let m := kmapOf (mapRec 0x20 64 0 4 1) [0x1000000] 1
    let op := fun (k : BitVec 128) => ({ kind := 1, comb := 0, signed := false, key := k, x := 1 } : MapOp)
    let x := ((m.apply 0 (op 1)).1.apply 0 (op 2)).1
    [x.desc.s != x.desc.count, (x.group 0).entries.length == 2, (x.split.group 0).entries.length + (x.split.group 1).entries.length == 2].all id = true := by decide +kernel

theorem witness_MessagesQueuesAndCapsulesMove :
    let f : MsgFlight := { core := 0, msg := { data := 0, ts := 1 }, sender := none }
    let far : FarMsg := { commons := 0, core := 0, msg := { data := 0, ts := 1 } }
    let linked : State := { s0 with dev := { s0.dev with links := [(0, { width := 16, route := 2, commons := 5 })] } }
    let req := fun (op : QueueOp) => ({ who := .slot 0 0, pts := 0, eff := {}, op := op } : QueueReq)
    let parked := State.slotIn s0 0 .parked (some .served)
    let x : Capsule := { data := BitVec.ofNat 67584 (image 0 0), ts := 1, place := .core 0 }
    let l : Launch := { launchOf s0 with transit := [x] }
    let s := s0.setLaunch 1 l
    let waits := fun (y : Served) => match y with
      | .waits _ => true
      | _ => false
    let faults := fun (y : Served) => match y with
      | .fault _ => true
      | _ => false
    let noRoom := fun (y : Served) => match y with
      | .noRoom => true
      | _ => false
    let empty := State.data parked 0x80040 4 8
    let crowd := (List.range 128).foldl (fun s f => s.setFold f { s.fold f with claims := List.replicate 64 { who := .slot 0 1, hdr := 0x80000, d := 8, pts := 0, eff := {} } }) empty
    let again : State := { parked with env := { parked.env with walk := [1], defer := [] }, mem := parked.mem.writeNat 0x20008 8 0 }
    let search := fun (y : Served) => match y with
      | .onward .. => true
      | _ => false
    let two := parked.setCore 8 { placeCore with ordinal := 1 }
    let two := two.setLaunch 1 { (two.launch? 1).getD placeLaunch with folds := [0, 1] }
    let two := two.setFold 1 { Fold.initial with launch := some 1 }
    [s0.wayOpen f.sender f.core, !(s0.core f.core).saved, search (two.serveQueue (.slot 0 0) 0 0 {} (.tnext 8)),
      (match again.serveQueue (.slot 0 0) 0 0 {} (.qstat 0x400080000 3) with
       | .again => true
       | _ => false),
      decide ((s0.core f.core).inbox.length < 32), (s0.core f.core).heldMsgs.isEmpty, far.commons == s0.dev.commons && s0.isCompute far.core,
      ({ far with commons := 5 } : FarMsg).commons != linked.dev.commons && linked.dev.links.any fun l => l.2.route != 0 && l.2.commons != linked.dev.commons,
      parked.awaits (.slot 0 0), answered (parked.serveQueue (.slot 0 0) 0 0 {} (req (.tnext 8)).op),
      waits (empty.serveQueue (.slot 0 0) 0 0 {} (.qclm 0x400080000 false 8)), noRoom (crowd.serveQueue (.slot 0 0) 0 0 {} (.qclm 0x400080000 false 8)), faults (parked.serveQueue (.slot 0 0) 0 0 {} (.qclm 0xC00000000 false 8)),
      transitAt s.dev.launches 0 == some (1, 0), s.taker 1 l x == some 0, (s.core 0).freeBay == some 0, s.inStore x, s.bayBad 0 == none, s0.inboxBad f.core == none].all id = true := by decide +kernel

theorem witness_ContextsAndPacketsMove :
    let away := State.slot0 s0 3 fun t => { t with st := .parked, wait := some .near, shipTo := some 0, reloc := some (0, 0, 0xFF) }
    let p : Packet := { atMemory := true, core := 0, slot := 0, num := 1, pts := 0, pa := 0x80000, ty := 4, op := 0, x := 1, conds := [] }
    let ctx := fun (r : Bool) (f : Option FaultInfo) => (aget (sCtx.chan 0).ctxs 0).map fun x => ({ x with returning := r, fault := f } : Ctx)
    let line : LineSt := ⟨3, 5, true⟩
    let room : Fold := { Fold.initial with lines := [(1, line), (2, line)] }
    let lock := fun (n : Nat) => sCtx.setChan 0 { sCtx.chan 0 with locks := [(rowPa p.pa, 0, 1)], deferred := List.replicate n p }
    [s0.routed 0 0, room.lines.length ≤ room.room, ((lock 31).chan 0).deferred.length < 32, !decide (((lock 32).chan 0).deferred.length < 32), (lock 31).routed (devOf p.core) (p.pa / 2 ^ 39),
      (let f : Fold := { Fold.initial with ways := 16, lines := [(1, line), (2, line)] }
       decide (f.room < f.lines.length) && (f.lines.find? fun y => y.1 != 2) == some (1, line)),
      (away.slot 0 3).shipTo == some 0, (away.slot 0 3).reply.isNone, (away.chan 0).freeCtx == some 0, s0.placeReady (devOf p.core) (.mem p.pa),
      -- an XMIG that has read g1 and waits for its context
      (let e : Eff := { writes := [.g 1 7] }
       let t := State.slot0 away 3 fun t => { t with reply := some e }
       (t.slot 0 3).reply == some e && (e.writes.all fun w => (w.reg?.map (liveReg 0xFF)).getD true) && !(t.slot 0 3).stopReq && e.pops == [] && !e.ended && e.pc == none
         && liveReg 0xFF 1 && nextIs (exec (.contextTake 0 3) t) fun u => ((aget (u.chan 0).ctxs 0).map fun x => x.thread.gr 1 == 7 && x.thread.pc == succPc (t.slot 0 3).pc 1).getD false),
      ((ctx true none).map fun x => sCtx.ctxHolds 0 0 x .packets).getD false, ((ctx false (some (flt .xlate))).map fun x => x.fault.isSome && sCtx.routed 0 (devOf x.core)).getD false,
      s0.condsDone p.conds, (s0.chan (channelPa p.pa)).locks.isEmpty, aget (s0.fold (homeFold 0x2000)).lines 0x2000 == none, s0.paOk (64 * 0x2000),
      (let s := s0.setFold (homeFold 0x2000) { s0.fold (homeFold 0x2000) with lines := [(0x2000, line)] }
       aget (s.fold (homeFold 0x2000)).lines 0x2000 == some line),
      (let s := s0.setChan 0 { Channel.initial with windows := [(1, ⟨0x40000, 1, 1, [], false, []⟩)] }
       (aget (s.chan 0).windows 1).map (·.arrived) == some false)].all id = true := by decide +kernel

theorem witness_TimersCallsAndTheHostTakeEffect :
    let t := State.core0 s0 fun c => { c with timer := 1, event := BitVec.ofNat 64 winBase, expired := true }
    let rec_ : FaultRec := default
    let esc := fun (sv : Bool) => State.core0 s0 fun c => { c with escal := [rec_], saved := sv }
    let r : SysReq := { who := .slot 0 0, call := 0, a := 0, b := 0, d := 3, eff := {} }
    let q := fun (r : SysReq) => (s0.takeSysc r).residentCall r 0
    let open_ : State := { s0 with sysc := [r] }
    let win : State := { s0 with dev := { s0.dev with winbase := 0, hostVisible := [0] } }
    let held : State := { win with dev := { win.dev with hostHeld := [{ off := 0, data := none, n := 8 }] } }
    let value := fun (x : Reply) (p : List Cond → Bool) => match x with
      | .value _ _ cs _ => p cs
      | _ => false
    let pending : SysReq := { r with result := some 5, conds := [] }
    -- a page of 64 KiB, whose tables stand at 0, with a packet under way to it, which UNMAP waits for
    let near : Packet := { atMemory := true, core := 0, slot := 3, num := 1, pts := 0, pa := 0x400080000, ty := 4, op := 0, x := 1, conds := [] }
    let bare := State.core0 { s0 with dev := { s0.dev with launches := [] } } fun c => { c with root := 0 }
    let small : State := { (State.data (State.data (State.data (State.data bare 0 8 0x20001) 0x20008 8 0x30001) 0x30000 8 0x50001) 0x50000 8 0x40008000F) with packets := [near] }
    let unmapped := (small.takeSysc r).residentCall { r with call := 2, a := BitVec.ofNat 64 dataAt, b := 65536 } 0
    [(t.core 0).expired && !(t.core 0).saved && (t.expiryHeld 0).isNone, ((esc true).core 0).saved, !((esc false).core 0).saved && (esc false).quietCore 0, open_.sysc[0]? == some r, s0.condsDone pending.conds,
      value (q r).2 s0.condsDone, (q { r with call := 4 }).2 == .never, value unmapped.2 fun cs => !unmapped.1.condsDone cs,
      (let s : State := { s0 with dev := { s0.dev with poisoned := [0x2000] } }
       ((s.takeSysc r).residentCall { r with call := 0x0C, a := BitVec.ofNat 64 (dataAt + 0x80000), b := 8 } 0).2 == .later),
      win.hostReady 60 8, !held.hostReady 60 8, win.hostReady 0xFFFFFFFFFFFFFFF8 8,
      (win.hostPa 60).isSome, (win.hostPa 0x10000).isNone].all id = true := by decide +kernel

theorem witness_LaunchesAdvance :
    let m : Module := { base := 0x100000, imagesize := 0x10000, textbase := 0x100000, textsize := 0x1000, record := 0, use := 0, st := 1 }
    -- a descriptor of 1 fold, 1 core, 1 slot at 0x100000 and a launch record at the ring's first entry
    let desc := 0x100000 + 2 ^ 64 + 2 ^ 80 + 2 ^ 88 + 2 ^ 104 + 2 ^ 144
    let mem := (((s0.mem.writeNat 0x100000 128 desc).writeNat 0x90000 8 0).writeNat 0x90008 8 1).writeNat 0x90010 4 4
    let mem := (mem.writeNat 0x90040 64 (0x100000 + 2 ^ 136))
    let s : State := { s0 with mem := mem, dev := { s0.dev with launches := [], rings := [{ hdr := 0x90000, pasture := 0, root := 0x10000 }], modules := [(0, m)], nextLaunch := 2 } }
    let l := launchOf s0
    let one := fun (l : Launch) => s0.setLaunch 1 l
    let queued : Launch := { l with st := .queued, prio := 2, raisedAt := 0, desc := { l.desc with folds := 2 }, folds := [] }
    let free := fun (l : Launch) => (one l).setFold 0 Fold.initial
    let ended := State.slotIn s0 0 .ended
    [s.dev.rings.length == 1, !(s.refuses 0 0 0 (s.readTable 0x10000 0x100000 128) (s.moduleOf 0x10000 0x100000)), s.refuses 4 0 0 (s.readTable 0x10000 0x100000 128) (s.moduleOf 0x10000 0x100000), s.dev.stage == 4, s.dev.errcode == 0, !s.dev.removed, s.mem.readNat 0x90000 8 != s.mem.readNat 0x90008 8, s.mem.readNat 0x90010 4 != 0,
      imgGet (s.mem.readNat 0x90040 64) 17 1 == 1, s.dev.poisoned.isEmpty, imgGet (s.mem.readNat 0x90040 64) 8 8 == 0,
      s.unusedFrom (s.dev.launches.length + 1) s.dev.nextLaunch == 2, nextIs (execLaunchRecordTake 0 s) (fun t => t.mem.readNat 0x90000 8 == 1 && t.mem.readNat 0x90051 1 == 0 && (t.launch? 2).isSome),
      decide (s.pendingOf (8 * s.dev.devnum) < 64), !s.ringWaits 0 0, l.st == .running,
      ({ l with st := .retiring } : Launch).st == .retiring, ({ l with st := .retired } : Launch).st == .retired, ((one { l with st := .placing }).launch? 1).map (·.st) == some .placing, ((one { l with st := .preempted }).launch? 1).map (·.st) == some .preempted, (one l).launch? 1 == some l, queued.st == .queued, queued.raisedAt + 2 ^ 24 ≤ ({ one queued with ac := 2 ^ 24 }).ac,
      (free queued).mayPlace 1 queued, (free { queued with st := .placing }).mayPlace 1 { queued with st := .placing },
      (coresOfPlacement l.folds l.desc.cores).all fun c => (ended.slot c 0).st == .ended, ended.drained l, !s0.retHeld l,
      ({ s0 with dev := { s0.dev with poisoned := [(((s0.dev.rings[l.ring]?).map (·.hdr)).getD 0 + 24) / 64] } } : State).retHeld l, !l.aborted, s0.dev.poisoned.isEmpty, (s0.setModule 3 { m with st := 2 }).moduleAt 3 == { m with st := 2 }].all id = true := by
  decide +kernel

theorem witness_LinksSparesErrorsAndBootTakeEffect :
    let d := s0.dev
    let keyed := fun (k : BitVec 8) (bad : Bool) => ({ s0 with dev := { d with keys := k, revoked := 0, images := Vector.replicate 2 { keyid := 0, sigOk := true } }, env := { s0.env with hbmBad := bad } } : State)
    let link : Link := { width := 16, good := 0xFFFF }
    let out : Device := { d with farOut := [{ commons := 5, core := 0, msg := { data := 0, ts := 1 } }] }
    [!d.poisoned.contains 7, !s0.cleanCopy 7, s0.mayPoison 7, ({ d with poisoned := [7] } : Device).poisoned.contains 7,
      (s0.setFold (homeFold 7) { s0.fold (homeFold 7) with lines := [(7, ⟨0, 0, false⟩)] }).cleanCopy 7,
      decide (d.rowCount 0 5 + 1 ≤ d.rowlimit), ({ d with rowErrors := [((0, 5), d.rowlimit)] } : Device).rowlimit < ({ d with rowErrors := [((0, 5), d.rowlimit)] } : Device).rowCount 0 5 + 1,
      (s0.chan 0).locks.isEmpty, decide ((aget d.laneSpares 0).getD 0 < 2), s0.isCompute 8 && devOf 8 == d.devnum && (s0.fold (foldOf 8)).launch.isNone && (s0.fold (foldOf 8)).spare.isNone,
      link.widthOf == 16, out.farOut.length == 1, !(out.links.any fun l => l.2.route != 0 && l.2.width != 0 && l.2.commons != out.commons),
      ((s0.setChan 0 { s0.chan 0 with locks := [(5, 0, 1)] }).chan 0).locks.any (fun l => l.1 == 5), ({ link with good := 0x7FFF } : Link).widthOf == 8, (keyed 0 false).dev.keys == 0, (keyed 2 false).dev.bootSlot.isNone, (keyed 1 true).dev.bootSlot.isSome,
      (keyed 1 false).dev.bootSlot == some (keyed 1 false).dev.activeImage, (keyed 1 false).dev.keyOk 0 true, !(keyed 1 false).dev.keyOk 1 true,
      ({ s0 with dev := { d with launches := [] } } : State).abortAll.allRetired,
      !({ s0 with posted := [{ core := 0, slot := 0, num := 1, mapNo := 1, pts := 0, region := 0, op := { kind := 2, comb := 0, signed := false, key := 5, x := 1 }, conds := [], grp := 0, queued := false }] } : State).abortAll.allRetired].all id = true := by decide +kernel

/-- PCs at the ends of the slot number space (R65, R66). -/
theorem witness_ProgramCountersNameSlots :
    (([0, 4, 5 * 2 ^ 58 - 1].all fun n => decide ((pcOf n).toNat / 64 = n / 5 ∧ (pcOf n).toNat % 64 = n % 5))
      && isSlotAddr 0x40004 && !isSlotAddr 0x40005 && !isSlotAddr 0x40008 && isSlotAddr 0xFF00000000000000 && !isSlotAddr 0x100000000000000
      && pcOf (linear 0x40004) == 0x40004) = true := by decide +kernel

theorem witness_TakeAndWaitEmptyActAtCompletion :
    let u : Uses := { reads := [(1, true)], writes := [(3, true)] }
    let e : Eff := { takes := [1], writes := [.g 1 9] }
    let fills := State.slot0 s0 0 fun t => { t with holders := [(1, ⟨7, 2⟩)] }
    [(s0.slot 0 0).ports.isEmpty, (s0.slot 0 0).fe.getLsbD 1, (match s0.prepare u with
        | .wait (.full rs) => rs == [3]
        | _ => false),
      okay (s0.prepare { u with writes := [(1, true)] }), (aget (fills.slot 0 0).holders 1).isSome, e.takes.contains 1].all id = true := by decide +kernel

theorem witness_RestrictedInstructionsFaultPriv :
    [Instr.tstart {}, .tstop {}, .treap {}, .trd { imm := 0x1000 }, .twr { imm := 0x1000 }, .tret {}, .fdmode {}, .plset {}, .plinv {}, .knew {}, .kclr {}, .htset {}, .trset {},
      .trsetClr { mod := 1 }, .modld {}, .modldDbg { mod := 1 }, .modul {}, .prmt {}, .prmtL { mod := 1 }, .resm {}, .resmL { mod := 1 }, .tlbinvG { mod := 2 }].all (fun i =>
        i.check7 0 2048 false == none && nextIs (exec i sOther) (fun t => (t.slot 0 3).st == .faulted)) = true := by decide +kernel

theorem witness_ChecksComeBeforeAnyEffect :
    [sOther.precheck (.tstart {}) == some (stepFault .priv 8 0), (sOther.precheck (.add { ty := 3, d := 3, a := 1, b := 2 })).isNone,
      (match (State.slot0 s0 0 fun t => { t with fe := 0 }).prepare (usesOf (.add { ty := 3, d := 3, a := 1, b := 2 }) 0 2048 false) with
        | .wait _ => true
        | _ => false),
      (match (State.slot0 s0 0 fun t => { t with ports := [(1, { kind := .output })] }).prepare (usesOf (.add { ty := 3, d := 3, a := 1, b := 2 }) 0 2048 false) with
        | .bad _ => true
        | _ => false),
      nextIs (exec (.fdwait {}) { s0 with part := .v2e }) (fun t => (t.slot 0 0).st == .faulted),
      State.precheck { sSys with part := .v2e } (.fdadd {}) == some (stepFault .unitAbsent 6 0)].all id = true := by decide +kernel

theorem witness_EveryStepAnswers :
    nextIs (step State.reset) (fun _ => true) = true ∧ (match step { State.reset with dev := { State.reset.dev with stage := 15 }, agenda := [] } with
      | .fault f => f == .halted
      | _ => false) = true := by
  decide +kernel

/-- A fault of slot 3 with a free record entry, one with none, and one of slot 0 (R370, R373, R375). -/
theorem witness_AFaultIsTakenAndReturnedFrom :
    let f := flt .align 0 2 5
    let full := State.core0 s0 fun c => { c with scr := c.scr.writeNat frqOff 8 16 }
    [f.brk == false, (s0.slot 0 3).hold == none, s0.dev.poisoned.isEmpty, ((sOther.raise f).core 0).scr.readNat frqOff 8 == 1, (((full.as (.slot 0 3)).raise f).core 0).waitingRecs.length == 1,
      ((s0.raise f).core 0).escal.length == 1, (s0.slot 0 3).reloc == none, ((sOther.raise f).slot 0 3).st == .faulted].all id = true := by decide +kernel

/-- An instruction of each class that has a completion without a fault. -/
theorem witness_RegisterInstructionsChangeOnlyTheirDestinations :
    [Instr.add { ty := 3, d := 3, a := 0x81, b := 2 }, .li { d := 3, imm := 5 }, .vadd { ty := 0x12, d := 0x43, a := 0x41, b := 0x42 }, .vcmp { ty := 3, d := 0x63, a := 0x41, b := 0x42 },
      .br {}].all (fun i => (pairBody i).isSome && ((State.targets s0).slot 0 0).again.isNone && readyNow i (State.targets s0) && nextIs (exec i (State.targets s0)) fun t => (t.slot 0 0).st != .faulted) = true := by decide +kernel

theorem witness_MemoryInstructionsChangeOnlyTheirBytes :
    let s := State.regs s0 [(1, dataAt + 0x80000), (4, 0xFF)]
    [Instr.ld { ty := 3, d := 3, a := 1, b := 0x70 }, .ldv { ty := 3, d := 0x43, a := 1, b := 0x70 }, .gth { ty := 3, d := 0x43, a := 1, b := 0x42 },
      .st { ty := 3, a := 1, b := 0x70, c := 4 }, .amo { ty := 3, d := 3, a := 1, b := 0x70, c := 4 }, .cas { ty := 3, d := 3, a := 1, b := 0x70, c := 4 },
      .stv { ty := 3, a := 1, b := 0x70, c := 0x44 }, .sct { ty := 3, a := 1, b := 0x42, c := 0x44 }, .amov { ty := 3, d := 0x43, a := 1, b := 0x70, c := 0x44 }].all (fun i =>
        readyNow i s && nextIs (exec i s) fun t => t.thread.st != .faulted && t.thread.wait == none) = true := by decide +kernel

theorem witness_MemoryAccessesFaultWhereTheyMustNotGo :
    let s := State.data (State.data s0 0x20010 8 0x2F) 0x20018 8 0x03
    let ld := fun (a : Nat) (p : State → Bool) => meets (.ld { ty := 3, d := 3, a := 1, b := 0x70 }) (State.regs s [(1, a)]) fun t _ => p t
    let leaf := fun (t : State) (a : Nat) (p : Leaf → Bool) => canonical a && ((t.lookup t.cur a).map p).getD false
    let waits := State.data s 0x20008 8 0
    [meets (.ld { ty := 3, d := 3, a := 1, b := 0x70 }) (State.regs { waits with env := { waits.env with walk := [1] } } [(1, dataAt)]) (fun t _ => match t.translate t.cur dataAt true with
        | .wait _ => true
        | _ => false),
      [0x800000000, 0xC00000000, 0x80000].all (fun a => match s.translate s.cur a true with
        | .ok (some _) => true
        | _ => false), (match s.translate s.cur 0x1000000000 true with
        | .ok none => true
        | _ => false), ld (dataAt + 1) (fun _ => true), ld (2 ^ 56) (fun _ => !canonical (2 ^ 56)), ld 0x1000000000 (fun t => (t.lookup t.cur 0x1000000000).isNone),
      ld 0x800000000 (fun t => leaf t 0x800000000 (·.pte.getLsbD 5)), ld 0xC00000000 (fun t => leaf t 0xC00000000 fun l => !l.pte.getLsbD 5 && !l.pte.getLsbD 6 && !l.pte.getLsbD 2),
      meets (.st { ty := 3, a := 1, b := 0x70, c := 4 }) (State.regs s [(1, 0x80000)]) (fun t _ => leaf t 0x80000 fun l => !l.pte.getLsbD 5 && !l.pte.getLsbD 3),
      meets (.amov { ty := 3, d := 0x43, a := 1, b := 0x70, c := 0x44 }) (State.regs s [(1, dataAt + 16)]) (fun _ _ => true)].all id = true := by decide +kernel

/-- A line that the slice holds, and one that it does not. -/
theorem witness_HomesOrderTheirAccesses :
    let s := s0.setFold (homeFold 0x2000) { s0.fold (homeFold 0x2000) with lines := [(0x2000, ⟨3, 9, false⟩)] }
    s.tsAt (.mem 0x80000) = (3, 9) ∧ (s.homeWrite (.mem 0x80000) 4 7 5 false).2 = 10 ∧ (s0.homeWrite (.mem 0x80000) 4 7 5 true).2 = 5 := by decide +kernel

theorem witness_RemoteFillsEnterOnce :
    let t := Slot.initial
    -- g3 is live and empty while its thread is away on a channel core (R278)
    let away : Slot := { t with fe := 0, reloc := some (0, 0, 8), shipTo := none, st := .parked, wait := some .near }
    [away.awayLive 3, !away.fe.getLsbD 3, (away.remoteFill 3 1 2).isSome, !away.awayLive 4, (t.port 0).isNone, (({ t with fe := 0 } : Slot).remoteFill 95 1 2).isSome, (t.remoteFill 63 1 2).isSome, (({ t with holders := [(63, ⟨1, 2⟩)] } : Slot).remoteFill 63 1 2).isNone].all id
      = true := by decide +kernel

/-- A line with one instruction, and one with a pair (R61, R62). -/
theorem witness_AStepRunsTheDecodedInstruction :
    let pair : Line := sealLine (BitVec.ofNat 512 (0x10000C000301020000000000 + 0x30004AC042C0410000000000 * 2 ^ 96 + 2 ^ 485))
    let s : State := { State.reset.placeWord 0 with agenda := [] }
    let l := placeLine 0
    [lineWordBad l == none, decodeSlot (slotBits l 0) == some (.nop {}), (pmask l).testBit 0 == false, lineWordBad pair == none, (pmask pair).testBit 0, (decodeSlot (slotBits pair 1)).isSome, !pairBad 0x10 0x30 (decodeSlot (slotBits pair 0)) (decodeSlot (slotBits pair 1)),
      s.coreLive 0, s.env.gate.headD 0 != 1, (let t := s.turn 0
        rotate 16 (t.core 0).lastSlot (fun k => decide (k < (t.core 0).nslots) && t.mayIssue 0 k) == some 0), s.thread.subst == none, !s.thread.follow,
      (let b : Bundle := { pc := 0x40000, first := .nop {} }
       let p := State.slot0 s 0 fun t => { t with st := .parked, wait := some (.empty []), again := some b }
       (p.as (.slot 0 0)).replyReady (.slot 0 0) (p.as (.slot 0 0)).thread && p.thread.vec.isNone && p.thread.reply.isNone),
      (match ((s.as (.slot 0 0)).bundle).2 with
        | .ok b => b.second.isNone
        | .error _ => false)].all id = true := by decide +kernel

theorem witness_EncodingsAreReadBackAndComplete :
    (Instr.add { ty := 3, d := 3, a := 1, b := 2 }).wf = true ∧ (Instr.add { ty := 3, d := 3, a := 1, b := 2 }).encode = some 0x10000C000301020000000000 := by decide +kernel

theorem witness_EveryStepKeepsMemoryCanonical : State.reset.mem.wf = true ∧ s0.mem.wf = true ∧ nextIs (step s0) (fun t => t.mem.wf) = true := by decide +kernel

end Sys2Proof.Machine.Tests
end

section
/-! SUPPORT. Memory as its bytes: what a write leaves at each address, and that a canonical memory is known by what it reads. -/

namespace Sys2Proof.Machine

/-- Byte `j` of the bytes written, as it reads back. -/
theorem Memory.get_writeNat_in (m : Memory) (a : Nat) : ∀ (n v j : Nat), j < n →
    Memory.get (Memory.writeNat m a n v) (a + j) = BitVec.ofNat 8 (v / 2 ^ (8 * j)) := by
  intro n
  induction n generalizing m a with
  | zero => intro v j h; omega
  | succ n ih =>
    intro v j h
    rw [Memory.writeNat]
    cases j with
    | zero =>
      rw [Memory.get_writeNat_out _ _ _ _ _ (by omega), Nat.add_zero, Memory.get_put_self]
      apply BitVec.eq_of_toNat_eq
      simp
    | succ j =>
      rw [show a + (j + 1) = a + 1 + j by omega, ih _ _ _ _ (by omega), Nat.div_div_eq_div_mul, Nat.mul_succ, Nat.pow_add,
        Nat.mul_comm 256]

/-- An address below every entry reads as blank. -/
theorem Memory.get_of_above {a b : Nat} {m : Memory} (ha : Memory.above a m = true) (hw : Memory.wf m = true) (h : b ≤ a) :
    Memory.get m b = Memory.blank := by
  induction m generalizing a with
  | nil => rfl
  | cons x m ih =>
    obtain ⟨c, y⟩ := x
    rw [Memory.wf_cons] at hw
    simp only [Bool.and_eq_true, Memory.above, decide_eq_true_eq] at hw ha
    rw [Memory.get, if_neg (by omega)]
    exact ih hw.1.2 hw.2 (by omega)

/-- The tail of a canonical memory reads as the whole does, but for the first address, which it does not list. -/
theorem Memory.get_tail {a : Nat} {x : Byte} {m : Memory} (h : Memory.wf ((a, x) :: m) = true) (b : Nat) :
    Memory.get m b = if a = b then Memory.blank else Memory.get ((a, x) :: m) b := by
  rw [Memory.wf_cons] at h
  simp only [Bool.and_eq_true] at h
  obtain ⟨⟨-, ha⟩, hw⟩ := h
  split
  · next e => exact Memory.get_of_above ha hw e.ge
  · next e => rw [Memory.get, if_neg e]

/-- The first address that a canonical memory lists does not read as blank, and every address below it does. -/
theorem Memory.head_get {a : Nat} {x : Byte} {m : Memory} (h : Memory.wf ((a, x) :: m) = true) :
    Memory.get ((a, x) :: m) a ≠ Memory.blank ∧ ∀ b < a, Memory.get ((a, x) :: m) b = Memory.blank := by
  rw [Memory.wf_cons] at h
  simp only [Bool.and_eq_true, bne_iff_ne] at h
  obtain ⟨⟨hx, ha⟩, hw⟩ := h
  refine ⟨by simpa [Memory.get] using hx, fun b hb => ?_⟩
  rw [Memory.get, if_neg (by omega)]
  exact Memory.get_of_above ha hw hb.le

/-- What follows the first entry of a canonical memory is canonical. -/
theorem Memory.wf_tail {y : Host.Cell} {m : Memory} (h : Memory.wf (y :: m) = true) : Memory.wf m = true := by
  obtain ⟨a, x⟩ := y
  rw [Memory.wf_cons] at h
  simp only [Bool.and_eq_true] at h
  exact h.2

/-- Canonical memories that read alike are equal. -/
theorem Memory.ext_get {m m' : Memory} (h : Memory.wf m = true) (h' : Memory.wf m' = true)
    (hg : ∀ x, Memory.get m x = Memory.get m' x) : m = m' := by
  induction m generalizing m' with
  | nil =>
    cases m' with
    | nil => rfl
    | cons y m' =>
      obtain ⟨ha, -⟩ := Memory.head_get h'
      exact absurd (hg y.1).symm ha
  | cons y m ih =>
    obtain ⟨a, x⟩ := y
    obtain ⟨ha, hlo⟩ := Memory.head_get h
    cases m' with
    | nil => exact absurd (hg a) ha
    | cons z m' =>
      obtain ⟨b, y⟩ := z
      obtain ⟨hb, hlo'⟩ := Memory.head_get h'
      obtain rfl : a = b := by
        rcases Nat.lt_trichotomy a b with hlt | heq | hgt
        · exact absurd ((hg a).trans (hlo' _ hlt)) ha
        · exact heq
        · exact absurd ((hg b).symm.trans (hlo _ hgt)) hb
      obtain rfl : x = y := by simpa [Memory.get] using hg a
      have ht : ∀ c, Memory.get m c = Memory.get m' c := fun c => by
        rw [Memory.get_tail h, Memory.get_tail h', hg]
      rw [ih (Memory.wf_tail h) (Memory.wf_tail h') ht]

/-- Settles O54, byte by byte of the write, and by the first entry of canonical memories for their equality. -/
theorem memoryReadsBackWhatWasWritten : Obligations.MemoryReadsBackWhatWasWritten := by
  intro m a n v
  exact ⟨Memory.readNat_writeNat m a n v, fun j hj => Memory.get_writeNat_in m a n v j hj,
    fun x hx => Memory.get_writeNat_out m a n v x hx, Memory.writeNat_wf a n v, fun _ => Memory.ext_get⟩

end Sys2Proof.Machine
end

section
/-! SUPPORT. What an issue answers before its effect, and that every row, event and step answers. -/

namespace Sys2Proof.Machine

/-- An encoding of a unit that the part lacks is refused before every other check. -/
theorem precheck_absent {s : State} {i : Instr} {v : View} (h : i.view = some v) (hu : v.spec.unit ≠ .none) (hp : s.part.full = false) :
    s.precheck i = some (stepFault .unitAbsent 6 0) := by
  simp [State.precheck, h, hu, hp]

/-- Operands that are not there make an issue wait on registers alone. -/
theorem prepare_wait_plain {s : State} {u : Uses} {p : List Nat} {x : Wait} (h : s.prepare u p = .wait x) :
    (∃ rs, x = .empty rs) ∨ ∃ rs, x = .full rs := by
  unfold State.prepare at h
  dsimp only at h
  repeat' (split at h)
  all_goals cases h
  · exact .inl ⟨_, rfl⟩
  · exact .inr ⟨_, rfl⟩

/-- A wait for a register parks, and no more. -/
theorem prepare_wait_park {s : State} {u : Uses} {p : List Nat} {x : Wait} (h : s.prepare u p = .wait x) : s.parkOn x = s.park x := by
  obtain ⟨rs, rfl⟩ | ⟨rs, rfl⟩ := prepare_wait_plain h <;> rfl

/-- Settles O47, from the ways in which an issue ends before its effect. -/
theorem checksComeBeforeAnyEffect : Obligations.ChecksComeBeforeAnyEffect := by
  intro i v s hv
  obtain ⟨w, body, hrun⟩ := exec_run i hv
  have hexec : exec i s = meaning i w body s := hrun s
  refine ⟨fun f hf => ?_, fun hc => ⟨fun f hp => ?_, fun x hp => ?_⟩, fun hu hp => ?_⟩
  · rw [hexec, meaning_precheck hf]
  · rw [hexec, meaning_bad hc hp]
  · rw [hexec, meaning_wait hc hp, prepare_wait_park hp]
  · rw [hexec, meaning_precheck (precheck_absent hv hu hp)]

/-- No row of the opcode table is refused or stops the run. -/
theorem exec_next (i : Instr) : ∀ s, ∃ t, exec i s = .next t := by
  cases i <;> exact fun _ => ⟨_, rfl⟩

/-- Nor does any event. -/
theorem Event.run_next (e : Event) (s : State) : ∃ t, e.run s = .next t := by
  cases e <;> exact ⟨_, rfl⟩

/-- The bundle that a wheel has issued runs to a next state. -/
theorem State.runIssued_next (s : State) : ∃ t, s.runIssued = .next t := by
  unfold State.runIssued
  split
  · exact ⟨_, rfl⟩
  · next b _ =>
    dsimp only
    split
    · exact ⟨_, rfl⟩
    · split
      · exact ⟨_, rfl⟩
      · obtain ⟨t, ht⟩ := exec_next b.first { s with issue := none }
        exact ⟨_, by rw [ht]⟩

/-- So does an event with the bundle that it issues. -/
theorem State.runEvent_next (s : State) (e : Event) : ∃ t, s.runEvent e = .next t := by
  obtain ⟨t, ht⟩ := e.run_next s
  obtain ⟨u, hu⟩ := t.runIssued_next
  exact ⟨u, by rw [State.runEvent, ht]; exact hu⟩

/-- A step with an event to come runs it. -/
theorem step_cons {s : State} {e : Event} {es : List Event} (h : s.agenda = e :: es) : step s = State.runEvent { s with agenda := es } e := by
  rw [step, h]

/-- A step with none puts the next round on the agenda, or stops where the device has halted. -/
theorem step_nil {s : State} (h : s.agenda = []) : step s = if s.halted then .fault .halted else .next s.nextRound := by
  rw [step, h]

/-- Settles O48, from the answers of every row, event and issued bundle. -/
theorem everyStepAnswers : Obligations.EveryStepAnswers := by
  refine ⟨exec_next, fun s => ⟨fun h => ?_, fun ha hs => ?_⟩⟩
  · cases ha : s.agenda with
    | cons e es => obtain ⟨t, ht⟩ := State.runEvent_next { s with agenda := es } e; exact ⟨t, (step_cons ha).trans ht⟩
    | nil =>
      have hs : s.dev.stage ≠ 15 := h.resolve_left (by simp [ha])
      exact ⟨_, (step_nil ha).trans (if_neg (by simpa [State.halted] using hs))⟩
  · rw [step_nil ha, if_pos (by simp [State.halted, hs])]

end Sys2Proof.Machine
end

section
/-! SUPPORT. What accesses, fetch, issue, streams and maps do to memory. -/

namespace Sys2Proof.Machine

/-- What a check answers, where it holds, is as `P` says. -/
def Chk.Post {α : Type} (P : α → Prop) : Chk α → Prop
  | .ok a => P a
  | .bad _ | .wait _ => True

/-- The state that an effect leaves, or a request leaves behind, is as `P` says. -/
def Res.Post (P : State → Prop) : Res → Prop
  | .done s _ | .sent s _ => P s
  | .fault _ | .park _ => True

@[simp] theorem Chk.post_ok {α : Type} (P : α → Prop) (a : α) : (Chk.ok a).Post P ↔ P a := Iff.rfl
@[simp] theorem Chk.post_bad {α : Type} (P : α → Prop) (f : FaultInfo) : (Chk.bad f).Post P := trivial
@[simp] theorem Chk.post_wait {α : Type} (P : α → Prop) (w : Wait) : (Chk.wait w).Post P := trivial
@[simp] theorem Res.post_done (P : State → Prop) (s : State) (e : Eff) : (Res.done s e).Post P ↔ P s := Iff.rfl
@[simp] theorem Res.post_sent (P : State → Prop) (s : State) (w : Wait) : (Res.sent s w).Post P ↔ P s := Iff.rfl
@[simp] theorem Res.post_fault (P : State → Prop) (f : FaultInfo) : (Res.fault f).Post P := trivial
@[simp] theorem Res.post_park (P : State → Prop) (w : Wait) : (Res.park w).Post P := trivial
@[simp] theorem doneS_post (P : State → Prop) (s : State) (e : Eff) (d : BitVec 8) (x fl : Word) : (doneS s e d x fl).Post P ↔ P s := Iff.rfl
@[simp] theorem doneV_post (P : State → Prop) (s : State) (e : Eff) (d : BitVec 8) (x : VReg) (fl : Word) : (doneV s e d x fl).Post P ↔ P s := Iff.rfl

theorem Chk.Post.of_ok {α : Type} {P : α → Prop} {c : Chk α} {a : α} (hc : c.Post P) (h : c = .ok a) : P a := by
  subst h; exact hc

/-- An effect after a check is as the effect after each answer of the check. -/
theorem Chk.res_post {α : Type} {P : State → Prop} {c : Chk α} {f : α → Res} (h : ∀ a, c = .ok a → (f a).Post P) : (c.res f).Post P := by
  cases c with
  | ok a => exact h a rfl
  | bad _ => trivial
  | wait _ => trivial

theorem Chk.Post.bind {α β : Type} {Q : α → Prop} {P : β → Prop} {c : Chk α} {f : α → Chk β} (hc : c.Post Q) (h : ∀ a, Q a → (f a).Post P) :
    (c.bind f).Post P := by
  cases c with
  | ok a => exact h a hc
  | bad _ => trivial
  | wait _ => trivial

theorem Chk.bind_post {α β : Type} {P : β → Prop} {c : Chk α} {f : α → Chk β} (h : ∀ a, c = .ok a → (f a).Post P) : (c.bind f).Post P := by
  cases c with
  | ok a => exact h a rfl
  | bad _ => trivial
  | wait _ => trivial

/-- A step of the machine keeps memory canonical. -/
def Keeps (f : State → Host.Outcome State Fault Refusal) : Prop := ∀ s t, Inv s → f s = .next t → Inv t

theorem keeps_answer (g : State → State) (h : ∀ s, Memory.wf s.mem = true → Memory.wf (g s).mem = true) : Keeps fun s => answer (g s) := by
  intro s t hs ht
  cases ht
  exact h s hs

theorem foldl_mem {α : Type} (f : State → α → State) (h : ∀ s x, (f s x).mem = s.mem) (l : List α) (s : State) :
    (l.foldl f s).mem = s.mem := by
  induction l generalizing s with
  | nil => rfl
  | cons x l ih => rw [List.foldl_cons, ih, h]
theorem Res.post_ite {P : State → Prop} {c : Prop} [Decidable c] {a b : Res} (ha : c → a.Post P) (hb : ¬c → b.Post P) :
    (if c then a else b).Post P := by
  split
  · exact ha ‹_›
  · exact hb ‹_›

theorem ite_wf {c : Prop} [Decidable c] {a b : State} (ha : Memory.wf a.mem = true) (hb : Memory.wf b.mem = true) :
    Memory.wf (if c then a else b).mem = true := by
  split
  · exact ha
  · exact hb

/-- A fold of steps that keep memory canonical keeps it canonical. -/
theorem foldl_wf {α : Type} {f : State → α → State} (hf : ∀ s x, Memory.wf s.mem = true → Memory.wf (f s x).mem = true) (l : List α) {s : State}
    (h : Memory.wf s.mem = true) : Memory.wf (l.foldl f s).mem = true := by
  induction l generalizing s with
  | nil => exact h
  | cons x l ih => exact ih (hf s x h)

@[simp] theorem State.countFor_mem (s : State) (w : Who) (ev : Nat) : (s.countFor w ev).mem = s.mem := by
  unfold State.countFor
  split <;> rfl

@[simp] theorem State.enterLeaf_mem (s : State) (c sp va : Nat) (l : Leaf) : (s.enterLeaf c sp va l).mem = s.mem := by
  simp [State.enterLeaf, apply_ite State.mem]

@[simp] theorem State.touchWalk_mem (s : State) (path : List Nat) : (s.touchWalk path).mem = s.mem :=
  foldl_mem _ (fun _ _ => State.homeRead_mem ..) path s

@[simp] theorem State.tlbEnter_mem (s : State) (w : Who) (va : Nat) : (s.tlbEnter w va).mem = s.mem := by
  unfold State.tlbEnter
  dsimp only
  repeat' split
  all_goals simp

@[simp] theorem State.noteFault_mem (s : State) (w : Who) (f : FaultInfo) : (s.noteFault w f).mem = s.mem := by
  unfold State.noteFault
  split
  · rfl
  · split <;> simp

@[simp] theorem State.setFrom_mem (s : State) (d : Nat) : (s.setFrom d).mem = s.mem := by simp [State.setFrom]

@[simp] theorem State.deliverReply_mem (s : State) (d : Nat) (e : Eff) : (s.deliverReply d e).mem = s.mem := by
  unfold State.deliverReply
  split <;> simp

@[simp] theorem State.noteAccess_mem (s : State) (va : Nat) (l : Loc) : (s.noteAccess va l).mem = s.mem := by
  unfold State.noteAccess
  dsimp only
  repeat' split
  all_goals simp

@[simp] theorem State.loadSpan_mem (s : State) (va : Nat) (ls : List (Nat × Loc)) : (s.loadSpan va ls).1.mem = s.mem := by
  induction ls generalizing s va with
  | nil => rfl
  | cons x ls ih => simp [State.loadSpan, ih]

@[simp] theorem State.store_wf {s : State} (l : Loc) (n hint v : Nat) (h : Memory.wf s.mem = true) : Memory.wf (s.store l n hint v).mem = true :=
  State.rmw_wf l n hint _ h

theorem State.storeSpan_wf {s : State} (va : Nat) (ls : List (Nat × Loc)) (v : Nat) (h : Memory.wf s.mem = true) :
    Memory.wf (s.storeSpan va ls v).mem = true := by
  induction ls generalizing s va v with
  | nil => exact h
  | cons x ls ih => exact ih _ _ (by simp [h])

@[simp] theorem State.stackFix_mem (s : State) (p : Nat) : (s.stackFix p).mem = s.mem := rfl

@[simp] theorem State.dieFill_mem (s : State) (c ln : Nat) (x : Line) : (s.dieFill c ln x).mem = s.mem := by
  unfold State.dieFill
  split <;> rfl

@[simp] theorem State.codeInstall_mem (s : State) (c ln k : Nat) (x : Line) : (s.codeInstall c ln k x).mem = s.mem := by
  simp [State.codeInstall, apply_ite State.mem]

@[simp] theorem State.fixMem_wf {s : State} (ln : Nat) (x : Line) (h : Memory.wf s.mem = true) : Memory.wf (s.fixMem ln x).mem = true :=
  Memory.writeNat_wf _ _ _ h

@[simp] theorem State.readCode_wf {s : State} (c ln : Nat) (h : Memory.wf s.mem = true) : Memory.wf (s.readCode c ln).1.mem = true := by
  unfold State.readCode
  dsimp only
  repeat' split
  all_goals simp [h]

@[simp] theorem State.readMem_wf {s : State} (ln : Nat) (h : Memory.wf s.mem = true) : Memory.wf (s.readMem ln).1.mem = true := by
  unfold State.readMem
  repeat' split
  all_goals simp [h]

@[simp] theorem State.fetch_wf {s : State} (w : Who) (pc : Word) (h : Memory.wf s.mem = true) : Memory.wf (s.fetch w pc).1.mem = true := by
  unfold State.fetch
  dsimp only
  repeat' split
  all_goals simp [h]

@[simp] theorem State.targetFetch_wf {s : State} (pc : Word) (h : Memory.wf s.mem = true) : Memory.wf (s.targetFetch pc).mem = true :=
  State.fetch_wf _ _ h

@[simp] theorem State.popPick_mem (s : State) : s.popPick.mem = s.mem := rfl

/-- A fault keeps memory canonical: only a code line that its fetch corrected has been written. -/
@[simp] theorem State.fail_wf {s : State} (f : FaultInfo) (h : Memory.wf s.mem = true) : Memory.wf (s.fail f).mem = true := by
  unfold State.fail
  dsimp only
  repeat' split
  all_goals simp [h]

/-- An issue keeps memory canonical where its effect does. -/
theorem State.run_wf {s : State} {i : Instr} {w : Option Wait} {body : State → Eff → Res} (h : Memory.wf s.mem = true)
    (hb : ∀ s1 e, Memory.wf s1.mem = true → (body s1 e).Post fun t => Memory.wf t.mem = true) : Memory.wf (s.run i w body).mem = true := by
  obtain ⟨f, hr⟩ | ⟨f, hr⟩ | ⟨x, hr⟩ | ⟨s1, e, hready, ⟨s2, e2, hd, hr⟩ | ⟨s2, x, hd, hr⟩⟩ := run_cases s i w body
  · simp [hr, h]
  · simp [hr, h]
  · simp [hr, h]
  all_goals
    have hs2 := hb s1 e (by rw [prepare_mem hready.2, h])
    rw [hd] at hs2
    simpa [hr] using hs2

theorem meaning_keeps {i : Instr} {w : Option Wait} {body : State → Eff → Res}
    (hb : ∀ s e, Memory.wf s.mem = true → (body s e).Post fun t => Memory.wf t.mem = true) : Keeps (meaning i w body) := by
  intro s t hs ht
  cases ht
  exact State.run_wf hs hb

theorem Res.Post.mono {P Q : State → Prop} {r : Res} (h : ∀ s, P s → Q s) (hr : r.Post P) : r.Post Q := by
  cases r with
  | done s e => exact h s hr
  | sent s w => exact h s hr
  | fault f => trivial
  | park w => trivial

theorem meaning_keeps_of_mem {i : Instr} {w : Option Wait} {body : State → Eff → Res} (hb : ∀ s e, (body s e).Post fun t => t.mem = s.mem) :
    Keeps (meaning i w body) :=
  meaning_keeps fun s e hs => (hb s e).mono fun t (ht : t.mem = s.mem) => by rw [ht, hs]

@[simp] theorem State.bundle_wf {s : State} (h : Memory.wf s.mem = true) : Memory.wf s.bundle.1.mem = true := by
  unfold State.bundle
  dsimp only
  repeat' split
  all_goals simp [h]

@[simp] theorem State.markStall_mem (s : State) (c k : Nat) : (s.markStall c k).mem = s.mem := by
  unfold State.markStall
  repeat' split
  all_goals simp

@[simp] theorem State.turn_mem (s : State) (c : Nat) : (s.turn c).mem = s.mem := by
  unfold State.turn
  exact foldl_mem _ (fun _ _ => State.markStall_mem ..) _ _

@[simp] theorem State.copyToFollowers_mem (s : State) (c k : Nat) (b : Bundle) (told : Bool) : (s.copyToFollowers c k b told).mem = s.mem := by
  refine foldl_mem _ (fun s x => ?_) _ s
  dsimp only
  repeat' split
  all_goals simp

@[simp] theorem State.lastBundle_mem (s : State) (c k : Nat) (b : Bundle) : (s.lastBundle c k b).mem = s.mem := by simp [State.lastBundle]

@[simp] theorem State.issueThread_wf {s : State} (h : Memory.wf s.mem = true) : Memory.wf s.issueThread.mem = true := by
  unfold State.issueThread
  dsimp only
  repeat' split
  all_goals simp [h]

theorem execBundleIssue_keeps (a : Issuer) : Keeps (execBundleIssue a) := by
  refine keeps_answer _ fun s h => ?_
  cases a
  all_goals
    dsimp only
    repeat' split
    all_goals simp [h]

@[simp] theorem State.runAhead_wf {s : State} (c k : Nat) (h : Memory.wf s.mem = true) : Memory.wf (s.runAhead c k).mem = true := by
  unfold State.runAhead
  split <;> simp [h]

theorem execFetchLineArrival_keeps (w : Who) : Keeps (execFetchLineArrival w) := by
  refine keeps_answer _ fun s h => ?_
  dsimp only
  repeat' split
  all_goals simp [h]

theorem execFollowJoin_keeps (c k : Nat) : Keeps (execFollowJoin c k) := by
  refine keeps_answer _ fun s h => ?_
  dsimp only
  repeat' split
  all_goals simp [h]

theorem execFlwTimeout_keeps (c k : Nat) : Keeps (execFlwTimeout c k) := by
  refine keeps_answer _ fun s h => ?_
  dsimp only
  repeat' split
  all_goals simp [h]

@[simp] theorem State.tellFollowers_mem (s : State) (c k : Nat) (b : Bundle) (out : Word × Bool) : (s.tellFollowers c k b out).mem = s.mem := by
  refine foldl_mem _ (fun s x => ?_) _ s
  dsimp only
  split <;> simp

@[simp] theorem State.keepAgain_mem (s : State) (b : Bundle) : (s.keepAgain b).mem = s.mem := by
  unfold State.keepAgain
  dsimp only
  split <;> simp

@[simp] theorem State.afterIssue_mem (s : State) (b : Bundle) : (s.afterIssue b).mem = s.mem := by
  unfold State.afterIssue
  dsimp only
  repeat' split
  all_goals simp

@[simp] theorem takeTo_wf {s : State} (e : Eff) (pc : Word) (h : Memory.wf s.mem = true) : (takeTo s e pc).Post fun t => Memory.wf t.mem = true := by
  unfold takeTo
  repeat' split
  all_goals simp [h]

@[simp] theorem takeLinear_wf {s : State} (e : Eff) (t : Int) (h : Memory.wf s.mem = true) :
    (takeLinear s e t).Post fun t => Memory.wf t.mem = true := by
  unfold takeLinear
  split <;> simp [h]

@[simp] theorem vwidBody_mem (f : FmtR) (s : State) (e : Eff) : (vwidBody f s e).Post fun t => t.mem = s.mem := rfl

@[simp] theorem watchBody_mem (f : FmtR) (s : State) (e : Eff) : (watchBody f s e).Post fun t => t.mem = s.mem := by
  unfold watchBody
  dsimp only
  split
  · trivial
  · split
    · trivial
    · refine Chk.res_post fun l _ => ?_
      cases l <;> simp

@[simp] theorem waitaBody_mem (f : FmtR) (s : State) (e : Eff) : (waitaBody f s e).Post fun t => t.mem = s.mem := by
  unfold waitaBody
  dsimp only
  split <;> simp

@[simp] theorem State.prefetch_wf {s : State} (l3 : Bool) (va : Nat) (h : Memory.wf s.mem = true) : Memory.wf (s.prefetch l3 va).mem = true := by
  unfold State.prefetch
  dsimp only
  repeat' split
  all_goals simp [h]

@[simp] theorem State.prefetchFrom_wf {s : State} (l3 : Bool) (va n : Nat) (h : Memory.wf s.mem = true) :
    Memory.wf (s.prefetchFrom l3 va n).mem = true := by
  induction n generalizing s va with
  | zero => exact h
  | succ n ih => exact ih _ (State.prefetch_wf _ _ h)

@[simp] theorem ipfBody_wf (f : FmtR) {s : State} (e : Eff) (h : Memory.wf s.mem = true) :
    (ipfBody f s e).Post fun t => Memory.wf t.mem = true := by simp [ipfBody, h]

@[simp] theorem flwBody_mem (f : FmtR) (s : State) (e : Eff) : (flwBody f s e).Post fun t => t.mem = s.mem := by
  unfold flwBody
  dsimp only
  repeat' split
  all_goals simp

@[simp] theorem flxBody_mem (f : FmtR) (s : State) (e : Eff) : (flxBody f s e).Post fun t => t.mem = s.mem := by
  unfold flxBody
  dsimp only
  split <;> simp

@[simp] theorem vdivBody_mem (f : FmtR) (s : State) (e : Eff) : (vdivBody f s e).Post fun t => t.mem = s.mem := rfl

@[simp] theorem vsqrtBody_mem (f : FmtR) (s : State) (e : Eff) : (vsqrtBody f s e).Post fun t => t.mem = s.mem := rfl

theorem execPageRefill_keeps (c p : Nat) : Keeps (execPageRefill c p) := by
  refine keeps_answer _ fun s h => ?_
  dsimp only
  split <;> simp [h]

@[simp] theorem State.pathReach_mem (s : State) (c k va n : Nat) (acc : Acc) : (s.pathReach c k va n acc).1.mem = s.mem := by
  unfold State.pathReach
  split <;> simp

@[simp] theorem State.pathRead_mem (s : State) (c k va n ts : Nat) (alloc : Bool) (lam : Nat) :
    (s.pathRead c k va n ts alloc lam).Post fun r => r.1.mem = s.mem :=
  Chk.bind_post fun _ _ => by simp

@[simp] theorem State.pathWrite_wf {s : State} (c k va n v ts : Nat) (alloc : Bool) (h : Memory.wf s.mem = true) :
    (s.pathWrite c k va n v ts alloc).Post fun r => Memory.wf r.1.mem = true :=
  Chk.bind_post fun _ _ => State.homeWrite_wf _ _ _ _ _ (by simpa using h)

@[simp] theorem State.streamRead_mem (s : State) (c k : Nat) (p : Port) (ts : Nat) (is : List Nat) :
    (s.streamRead c k p ts is).Post fun r => r.1.mem = s.mem := by
  induction is generalizing s with
  | nil => rfl
  | cons i is ih => exact (State.pathRead_mem ..).bind fun r hr => (ih r.1).bind fun q hq => hq.trans hr

@[simp] theorem State.streamWrite_wf {s : State} (c k : Nat) (p : Port) (ts : Nat) (is : List (Nat × Nat)) (h : Memory.wf s.mem = true) :
    (s.streamWrite c k p ts is).Post fun r => Memory.wf r.1.mem = true := by
  induction is generalizing s with
  | nil => exact h
  | cons i is ih => exact (State.pathWrite_wf _ _ _ _ _ _ _ h).bind fun r hr => (ih hr).bind fun q hq => hq

theorem execStreamElementArrival_keeps (c k r : Nat) : Keeps (execStreamElementArrival c k r) := by
  refine keeps_answer _ fun s h => ?_
  dsimp only
  split
  · exact h
  · split
    · exact h
    · split
      · next hr => exact (congrArg Memory.wf ((State.streamRead_mem ..).of_ok hr)).trans h
      · simp [h]
      · exact h

@[simp] theorem State.writeAppend_wf {s : State} (c k r i : Nat) (open_ : Bool) (h : Memory.wf s.mem = true) :
    Memory.wf (s.writeAppend c k r i open_).mem = true := by
  unfold State.writeAppend
  dsimp only
  split
  · exact h
  · split
    · exact h
    · split
      · exact h
      · split
        · next hw => simpa using (State.streamWrite_wf _ _ _ _ _ h).of_ok hw
        · simp [h]
        · exact h

@[simp] theorem State.writeAll_wf {s : State} (c k r n : Nat) (h : Memory.wf s.mem = true) : Memory.wf (s.writeAll c k r n).mem = true := by
  induction n generalizing s with
  | zero => exact h
  | succ n ih => exact ih (State.writeAppend_wf _ _ _ _ _ h)

theorem execStreamWriteCompletion_keeps (c k r : Nat) : Keeps (execStreamWriteCompletion c k r) :=
  keeps_answer _ fun _ h => State.writeAppend_wf _ _ _ _ _ h

@[simp] theorem State.unbind_mem (s : State) (c k r : Nat) : (s.unbind c k r).mem = s.mem := by
  unfold State.unbind
  repeat' split
  all_goals simp

@[simp] theorem sbindStream_mem (kind : PortKind) (f : FmtR) (s : State) (e : Eff) : (sbindStream kind f s e).Post fun t => t.mem = s.mem := by
  unfold sbindStream
  dsimp only
  split
  · exact Res.post_ite (fun _ => trivial) fun _ => Res.post_ite (fun _ => trivial) fun _ => Res.post_ite (fun _ => trivial) fun _ =>
      Res.post_ite (fun _ => trivial) fun _ => Chk.res_post fun _ _ => by simp
  · trivial

@[simp] theorem sbindQBody_mem (f : FmtR) (s : State) (e : Eff) : (sbindQBody f s e).Post fun t => t.mem = s.mem := by
  unfold sbindQBody
  dsimp only
  repeat' split
  all_goals simp

@[simp] theorem sunbindBody_mem (f : FmtR) (s : State) (e : Eff) : (sunbindBody f s e).Post fun t => t.mem = s.mem := by
  unfold sunbindBody
  dsimp only
  split
  · split
    · rfl
    · split
      · split <;> trivial
      · simp
  · rfl

@[simp] theorem sstatBody_mem (f : FmtR) (s : State) (e : Eff) : (sstatBody f s e).Post fun t => t.mem = s.mem := rfl

@[simp] theorem State.setKmap_mem (s : State) (region : Nat) (m : KMap) : (s.setKmap region m).mem = s.mem := rfl

@[simp] theorem State.countFold_mem (s : State) (ev f n : Nat) : (s.countFold ev f n).mem = s.mem := by
  refine foldl_mem _ (fun s c => ?_) _ s
  rfl

@[simp] theorem State.clampFold_mem (s : State) (f own ts : Nat) : (s.clampFold f own ts).1.mem = s.mem := by
  unfold State.clampFold
  dsimp only
  split <;> simp

@[simp] theorem State.noteTs_mem (s : State) (f ts : Nat) : (s.noteTs f ts).mem = s.mem := by simp [State.noteTs]

@[simp] theorem State.groupLoad_mem (s : State) (region g pts : Nat) : (s.groupLoad region g pts).1.mem = s.mem := by
  unfold State.groupLoad
  split
  · rfl
  · rw [State.noteTs_mem, State.setKmap_mem, State.clampFold_mem]

@[simp] theorem State.groupStore_mem (s : State) (region g pts : Nat) : (s.groupStore region g pts).1.mem = s.mem := by
  unfold State.groupStore
  split <;> simp

@[simp] theorem State.askSplit_mem (s : State) (region g before : Nat) : (s.askSplit region g before).mem = s.mem := by
  unfold State.askSplit
  dsimp only
  repeat' split
  all_goals simp

@[simp] theorem State.serveKey_mem (s : State) (region g pts : Nat) (o : MapOp) (blocking : Bool) :
    (s.serveKey region g pts o blocking).1.mem = s.mem := by
  unfold State.serveKey
  repeat' split
  all_goals simp

@[simp] theorem State.serveIter_mem (s : State) (region g pts : Nat) (cursor : Word) : (s.serveIter region g pts cursor).1.mem = s.mem := by
  unfold State.serveIter
  dsimp only
  repeat' split
  all_goals simp [State.groupLoad_mem]

theorem execSplitRequest_keeps (i : Nat) : Keeps (execSplitRequest i) := by
  refine keeps_answer _ fun s h => ?_
  dsimp only
  split
  · exact h
  · split
    · exact h
    · repeat' split
      all_goals exact h

@[simp] theorem State.doSplit_mem (s : State) (region : Nat) : (s.doSplit region).mem = s.mem := by
  unfold State.doSplit
  repeat' split
  all_goals simp

theorem execSplit_keeps (m : Nat) : Keeps (execSplit m) := by
  refine keeps_answer _ fun s h => ?_
  simp [h]

@[simp] theorem State.publish_mem (s : State) (region : Nat) : (s.publish region).mem = s.mem := by
  unfold State.publish
  split <;> simp

@[simp] theorem State.publishSplit_mem (s : State) (region : Nat) : (s.publishSplit region).mem = s.mem := by
  unfold State.publishSplit
  repeat' split
  all_goals simp

theorem execSplitPublication_keeps (m : Nat) : Keeps (execSplitPublication m) := by
  refine keeps_answer _ fun s h => ?_
  simp [h]

theorem execMapCopyUpdate_keeps (f l n : Nat) : Keeps (execMapCopyUpdate f l n) := by
  refine keeps_answer _ fun s h => ?_
  dsimp only
  split
  · exact h
  · split
    · exact h
    · split
      · exact h
      · split <;> exact h

@[simp] theorem State.storeGroups_mem (s : State) (own : Nat → Nat) (pts : Nat) (as : List Nat) : (s.storeGroups own pts as).1.mem = s.mem := by
  induction as generalizing s with
  | nil => rfl
  | cons a as ih => simp [State.storeGroups, ih]

@[simp] theorem State.beginClear_mem (s : State) (region : Nat) : (s.beginClear region).mem = s.mem := by
  unfold State.beginClear
  split <;> simp

@[simp] theorem State.clearMap_mem (s : State) (region pts : Nat) : (s.clearMap region pts).1.mem = s.mem := by
  unfold State.clearMap
  split <;> simp

@[simp] theorem State.startClear_mem (s : State) (region : Nat) : (s.startClear region).mem = s.mem := by simp [State.startClear]

@[simp] theorem State.serveClear_mem (s : State) (region pts : Nat) : (s.serveClear region pts).1.mem = s.mem := by
  unfold State.serveClear
  split <;> simp

@[simp] theorem State.forward_mem (s : State) (region g g' pts : Nat) (o : MapOp) : (s.forward region g g' pts o).1.mem = s.mem := by
  unfold State.forward
  repeat' split
  all_goals simp

@[simp] theorem State.carry_mem (s : State) (region : Nat) (o : MapOp) (n g pts : Nat) : (s.carry region o n g pts).1.mem = s.mem := by
  induction n generalizing s g pts with
  | zero => rfl
  | succ n ih =>
    unfold State.carry
    dsimp only
    repeat' split
    all_goals simp [ih]

@[simp] theorem State.serveOp_mem (s : State) (region g pts : Nat) (o : MapOp) (blocking busy : Bool) :
    (s.serveOp region g pts o blocking busy).1.mem = s.mem := by
  unfold State.serveOp
  split
  · rfl
  · split
    · rfl
    · split <;> simp

@[simp] theorem State.serveOps_mem (s : State) (r : MapReq) (os : List (Nat × MapOp)) : (s.serveOps r os).1.mem = s.mem := by
  induction os generalizing s r with
  | nil => rfl
  | cons o os ih =>
    unfold State.serveOps
    dsimp only
    split <;> simp [ih]

@[simp] theorem State.enqueueMap_mem (s : State) (r : MapReq) : (s.enqueueMap r).mem = s.mem := by
  unfold State.enqueueMap
  split <;> simp

@[simp] theorem State.setAgentQ_mem (s : State) (f : Nat) (q : List MapReq) : (s.setAgentQ f q).mem = s.mem := rfl

@[simp] theorem State.answerMap_mem (s : State) (r : MapReq) (d : Nat) : (s.answerMap r d).mem = s.mem := by
  unfold State.answerMap
  repeat' split
  all_goals simp

@[simp] theorem State.passOn_mem (s : State) (d : Nat) (r : MapReq) (a : MapAns) (ts : Nat) : (s.passOn d r a ts).mem = s.mem := by
  unfold State.passOn
  dsimp only
  split <;> simp

@[simp] theorem State.serveCombined_mem (s : State) (g pts : Nat) (rs : List MapReq) : (s.serveCombined g pts rs).mem = s.mem := by
  unfold State.serveCombined
  split
  · rfl
  · dsimp only
    split
    · refine (foldl_mem _ (fun s q => State.passOn_mem ..) _ _).trans ?_
      simp
    · rfl

@[simp] theorem State.combineNow_mem (s : State) (r : MapReq) (rs : List MapReq) : (s.combineNow r rs).1.mem = s.mem := by
  unfold State.combineNow
  repeat' split
  all_goals simp

@[simp] theorem State.serveHead_mem (s : State) (f : Nat) : (s.serveHead f).mem = s.mem := by
  unfold State.serveHead
  split
  · rfl
  · dsimp only
    split
    · simp
    · simp
    · repeat' split
      all_goals simp

theorem execMapRequestService_keeps (f : Nat) : Keeps (execMapRequestService f) := by
  refine keeps_answer _ fun s h => ?_
  simp [h]

theorem execPostedUpsertApply_keeps (i : Nat) : Keeps (execPostedUpsertApply i) := by
  refine keeps_answer _ fun s h => ?_
  dsimp only
  repeat' split
  all_goals simp [h]



@[simp] theorem sendMap_mem (s : State) (r : MapReq) : (sendMap s r).Post fun t => t.mem = s.mem := by
  unfold sendMap
  dsimp only
  repeat' split
  all_goals simp

@[simp] theorem mapIssue_mem (f : FmtR) (keyed : Bool) (sh : MapShape) (ops : State → List MapOp) (s : State) (e : Eff) :
    (mapIssue f keyed sh ops s e).Post fun t => t.mem = s.mem :=
  Chk.res_post fun _ _ => Chk.res_post fun _ _ => Chk.res_post fun _ _ => sendMap_mem ..

@[simp] theorem kprbBody_mem (f : FmtR) (s : State) (e : Eff) : (kprbBody f s e).Post fun t => t.mem = s.mem := by simp [kprbBody]

@[simp] theorem kinsBody_mem (f : FmtR) (s : State) (e : Eff) : (kinsBody f s e).Post fun t => t.mem = s.mem := by simp [kinsBody]

@[simp] theorem kupsBody_mem (f : FmtR) (s : State) (e : Eff) : (kupsBody f s e).Post fun t => t.mem = s.mem := by simp [kupsBody]

@[simp] theorem kdelBody_mem (f : FmtR) (s : State) (e : Eff) : (kdelBody f s e).Post fun t => t.mem = s.mem := by simp [kdelBody]

@[simp] theorem kprbvBody_mem (f : FmtR) (s : State) (e : Eff) : (kprbvBody f s e).Post fun t => t.mem = s.mem := by simp [kprbvBody]

@[simp] theorem kupsvBody_mem (f : FmtR) (s : State) (e : Eff) : (kupsvBody f s e).Post fun t => t.mem = s.mem := by simp [kupsvBody]

@[simp] theorem State.post_mem (s : State) (n region : Nat) (os : List (Nat × MapOp)) : (s.post n region os).mem = s.mem := by
  induction os generalizing s with
  | nil => rfl
  | cons o os ih => exact (ih _).trans rfl

@[simp] theorem postIssue_mem (f : FmtR) (ops : State → List MapOp) (s : State) (e : Eff) :
    (postIssue f ops s e).Post fun t => t.mem = s.mem := by
  refine Chk.res_post fun c _ => ?_
  dsimp only
  split <;> simp

@[simp] theorem kupsPostBody_mem (f : FmtR) (s : State) (e : Eff) : (kupsPostBody f s e).Post fun t => t.mem = s.mem := by simp [kupsPostBody]

@[simp] theorem kupsvPostBody_mem (f : FmtR) (s : State) (e : Eff) : (kupsvPostBody f s e).Post fun t => t.mem = s.mem := by simp [kupsvPostBody]

@[simp] theorem State.enterPages_mem (s : State) (n a : Nat) : (s.enterPages n a).mem = s.mem := by
  refine foldl_mem _ (fun s i => ?_) _ s
  split <;> simp

@[simp] theorem State.createMap_mem (s : State) (r region pts : Nat) (pages : List Nat) :
    (s.createMap r region pts pages).1.mem = s.mem := by simp [State.createMap]

@[simp] theorem knewBody_mem (f : FmtR) (s : State) (e : Eff) : (knewBody f s e).Post fun t => t.mem = s.mem := by
  unfold knewBody
  dsimp only
  split
  · trivial
  · refine Chk.res_post fun _ _ => ?_
    split
    · trivial
    · split
      · trivial
      · refine Chk.res_post fun ls _ => Chk.res_post fun pages _ => Chk.res_post fun _ _ => ?_
        repeat' split
        all_goals simp

@[simp] theorem State.bindMap_mem (s : State) (l n : Nat) (c : Option MapCopy) : (s.bindMap l n c).mem = s.mem := by
  unfold State.bindMap
  dsimp only
  split <;> simp

@[simp] theorem kbindBody_mem (f : FmtR) (s : State) (e : Eff) : (kbindBody f s e).Post fun t => t.mem = s.mem := by
  unfold kbindBody
  dsimp only
  split
  · trivial
  · refine Chk.res_post fun _ _ => Chk.res_post fun _ _ => Chk.res_post fun _ _ => ?_
    repeat' split
    all_goals simp

@[simp] theorem kstatBody_mem (f : FmtR) (s : State) (e : Eff) : (kstatBody f s e).Post fun t => t.mem = s.mem := by
  refine Chk.res_post fun _ _ => ?_
  dsimp only
  split
  · trivial
  · exact Chk.res_post fun _ _ => Chk.res_post fun _ _ => by simp

@[simp] theorem khashBody_mem (f : FmtR) (s : State) (e : Eff) : (khashBody f s e).Post fun t => t.mem = s.mem :=
  Chk.res_post fun _ _ => Chk.res_post fun _ _ => Chk.res_post fun _ _ => by simp

@[simp] theorem kiterBody_mem (f : FmtR) (s : State) (e : Eff) : (kiterBody f s e).Post fun t => t.mem = s.mem := by
  refine Chk.res_post fun _ _ => ?_
  split
  · exact Chk.res_post fun _ _ => by simp
  · simp

@[simp] theorem kclrBody_mem (f : FmtR) (s : State) (e : Eff) : (kclrBody f s e).Post fun t => t.mem = s.mem := by simp [kclrBody]

end Sys2Proof.Machine
end

section
/-! SUPPORT. What capsules, slot control, the thread path's instructions and the matrix unit do to memory. -/

namespace Sys2Proof.Machine

@[simp] theorem State.enterTransit_mem (s : State) (ln : Nat) (x : Capsule) : (s.enterTransit ln x).mem = s.mem := by
  unfold State.enterTransit
  split <;> simp

@[simp] theorem State.commitCapsule_mem (s : State) (x : Capsule) (b : Option Nat) : (s.commitCapsule x b).mem = s.mem := by
  unfold State.commitCapsule
  repeat' split
  all_goals simp

@[simp] theorem State.sendOff_mem (s : State) : s.sendOff.mem = s.mem := by
  unfold State.sendOff
  split <;> simp

@[simp] theorem State.startCursors_mem (s : State) (ln : Nat) : (s.startCursors ln).mem = s.mem := by
  unfold State.startCursors
  split <;> simp

@[simp] theorem State.deliverFrom_mem (s : State) (ln j : Nat) : (s.deliverFrom ln j).mem = s.mem := by
  unfold State.deliverFrom
  split
  · rfl
  · split
    · rfl
    · split
      · rfl
      · split
        · rfl
        · split
          · rfl
          · dsimp only
            repeat' split
            all_goals simp

theorem execCapsuleDelivery_keeps (i : Nat) : Keeps (execCapsuleDelivery i) := by
  refine keeps_answer _ fun s h => ?_
  split <;> simp [h]

@[simp] theorem State.writeLines_wf {s : State} (pa v ts n : Nat) (h : Memory.wf s.mem = true) : Memory.wf (s.writeLines pa v ts n).1.mem = true := by
  induction n generalizing s pa v with
  | zero => exact h
  | succ n ih => exact ih _ _ (State.homeWrite_wf _ _ _ _ _ h)

@[simp] theorem State.markPark_mem (s : State) (ln w : Nat) : (s.markPark ln w).mem = s.mem := by
  unfold State.markPark
  split <;> simp

@[simp] theorem State.parkCapsule_wf {s : State} (ln d reason ts : Nat) (r : Option FaultRec) (h : Memory.wf s.mem = true) :
    Memory.wf (s.parkCapsule ln d reason ts r).1.mem = true := by
  unfold State.parkCapsule
  dsimp only
  repeat' split
  all_goals simp [h, State.homeWrite_wf]

@[simp] theorem State.reapCapsule_wf {s : State} (c k : Nat) (h : Memory.wf s.mem = true) :
    Memory.wf (s.reapCapsule c k).mem = true := by
  unfold State.reapCapsule
  dsimp only
  repeat' split
  all_goals simp [h]

@[simp] theorem State.ejectBay_wf {s : State} (c b : Nat) (h : Memory.wf s.mem = true) : Memory.wf (s.ejectBay c b).mem = true := by
  unfold State.ejectBay
  dsimp only
  split
  · exact h
  · split
    · split
      · simp [h]
      · split
        · simp [h]
        · split
          · split <;> simp [h]
          · simp [h]
    · exact h

@[simp] theorem State.parkAll_wf {s : State} (ln reason : Nat) (h : Memory.wf s.mem = true) : Memory.wf (s.parkAll ln reason).mem = true := by
  unfold State.parkAll
  split
  · exact h
  · next l _ =>
    have hspill : ∀ {s : State} (xs : List Capsule), Memory.wf s.mem = true →
        Memory.wf (xs.foldl (fun s y => (s.parkCapsule ln y.data.toNat reason y.ts none).1) s).mem = true := fun xs =>
      foldl_wf (fun _ _ => State.parkCapsule_wf _ _ _ _ _) xs
    dsimp only
    split
    all_goals
      refine hspill _ (foldl_wf (fun s c hs => hspill _ ?_) _ h)
      refine foldl_wf (fun s b hb => ?_) _ hs
      split <;> simp [hb]

@[simp] theorem routedCapsule_mem (way : Chk Unit) (d : Nat) (x : Capsule) (b : Option Nat) (s : State) (e : Eff) :
    (routedCapsule way d x b s e).Post fun t => t.mem = s.mem := by
  unfold routedCapsule
  split <;> simp

@[simp] theorem capnewBody_mem (f : FmtR) (s : State) (e : Eff) : (capnewBody f s e).Post fun t => t.mem = s.mem := by
  unfold capnewBody
  dsimp only
  split
  · trivial
  · split
    · trivial
    · refine Chk.res_post fun ls _ => ?_
      split
      · trivial
      · split
        · trivial
        · refine Chk.res_post fun lt _ => ?_
          split
          · trivial
          · exact (routedCapsule_mem ..).mono fun t ht => by simpa using ht

@[simp] theorem capwaitForm_mem (nw : Bool) (f : FmtR) (s : State) (e : Eff) : (capwaitForm nw f s e).Post fun t => t.mem = s.mem := by
  unfold capwaitForm
  dsimp only
  split
  · trivial
  · split
    · trivial
    · split
      · exact Chk.res_post fun _ _ => rfl
      · split <;> rfl

@[simp] theorem capwaitBody_mem (f : FmtR) (s : State) (e : Eff) : (capwaitBody f s e).Post fun t => t.mem = s.mem := by simp [capwaitBody]

@[simp] theorem capwaitNwBody_mem (f : FmtR) (s : State) (e : Eff) : (capwaitNwBody f s e).Post fun t => t.mem = s.mem := by simp [capwaitNwBody]

@[simp] theorem capnextBody_mem (f : FmtR) (s : State) (e : Eff) : (capnextBody f s e).Post fun t => t.mem = s.mem := by
  refine Chk.res_post fun ⟨c, ln, b⟩ _ => ?_
  dsimp only
  split
  · simp
  · split
    · trivial
    · split
      · trivial
      · exact Chk.res_post fun ls _ => (routedCapsule_mem ..).mono fun t ht => by simpa using ht

@[simp] theorem capinsBody_mem (f : FmtR) (s : State) (e : Eff) : (capinsBody f s e).Post fun t => t.mem = s.mem := by
  refine Chk.res_post fun ⟨c, _, b⟩ _ => ?_
  dsimp only
  repeat' split
  all_goals simp

@[simp] theorem capdelBody_mem (f : FmtR) (s : State) (e : Eff) : (capdelBody f s e).Post fun t => t.mem = s.mem := by
  refine Chk.res_post fun ⟨c, _, b⟩ _ => ?_
  dsimp only
  split <;> simp

@[simp] theorem capsetBody_mem (f : FmtR) (s : State) (e : Eff) : (capsetBody f s e).Post fun t => t.mem = s.mem := by
  refine Chk.res_post fun ⟨c, _, b⟩ _ => ?_
  dsimp only
  split
  · exact Chk.res_post fun _ _ => rfl
  · trivial

@[simp] theorem capgetBody_mem (f : FmtR) (s : State) (e : Eff) : (capgetBody f s e).Post fun t => t.mem = s.mem := by
  unfold capgetBody
  dsimp only
  split
  · split <;> simp
  · exact Chk.res_post fun _ _ => by simp

@[simp] theorem capparkBody_wf (f : FmtR) {s : State} (e : Eff) (h : Memory.wf s.mem = true) :
    (capparkBody f s e).Post fun t => Memory.wf t.mem = true := by
  refine Chk.res_post fun ⟨c, ln, b⟩ _ => ?_
  dsimp only
  split
  · trivial
  · refine Chk.res_post fun _ _ => ?_
    split
    · trivial
    · simp [h]

@[simp] theorem capdoneBody_wf (f : FmtR) {s : State} (e : Eff) (h : Memory.wf s.mem = true) :
    (capdoneBody f s e).Post fun t => Memory.wf t.mem = true := by
  unfold capdoneBody
  refine Chk.res_post fun x _ => ?_
  obtain ⟨c, _, b⟩ := x
  dsimp only
  generalize (s.core c).bayGet b 32 8 = a
  split
  · simp [h]
  · split
    · trivial
    · exact Chk.res_post fun _ _ => by simp [h]

@[simp] theorem movsBody_mem (f : FmtR) (s : State) (e : Eff) : (movsBody f s e).Post fun t => t.mem = s.mem := rfl

@[simp] theorem setState_mem (s : State) (e : Eff) (num mode opnd : Nat) (x : Word) :
    (setState s e num mode opnd x).Post fun t => t.mem = s.mem := by
  unfold setState
  dsimp only
  repeat' split
  all_goals simp

@[simp] theorem setsBody_mem (f : FmtR) (s : State) (e : Eff) : (setsBody f s e).Post fun t => t.mem = s.mem := by simp [setsBody]

@[simp] theorem setsiBody_mem (f : FmtI) (s : State) (e : Eff) : (setsiBody f s e).Post fun t => t.mem = s.mem := by simp [setsiBody]

@[simp] theorem capaBody_mem (f : FmtR) (s : State) (e : Eff) : (capaBody f s e).Post fun t => t.mem = s.mem := rfl

@[simp] theorem State.setPeer_mem (s : State) (j : Nat) (t : Slot) : (s.setPeer j t).mem = s.mem := by
  unfold State.setPeer
  split <;> simp

@[simp] theorem doneStatus_post (P : State → Prop) (s : State) (e : Eff) (d : BitVec 8) (t : Slot) (refused : Bool) :
    (doneStatus s e d t refused).Post P ↔ P s := Iff.rfl

/-- A step on a slot of the core is as what it does with that slot. -/
theorem withSlot_post {P : State → Prop} {f : FmtR} {s : State} {e : Eff} {g : Nat → Slot → Res} (hs : P s) (hg : ∀ j t, (g j t).Post P) :
    (withSlot f s e g).Post P := by
  unfold withSlot
  dsimp only
  split
  · exact hs
  · exact hg _ _

@[simp] theorem State.loseFills_mem (s : State) (t : Slot) : (s.loseFills t).mem = s.mem := by
  unfold State.loseFills
  split <;> simp

@[simp] theorem tstartBody_mem (f : FmtR) (s : State) (e : Eff) : (tstartBody f s e).Post fun t => t.mem = s.mem := by
  refine withSlot_post rfl fun j t => ?_
  split <;> simp

@[simp] theorem State.leaveBarriers_mem (s : State) (c j : Nat) : (s.leaveBarriers c j).mem = s.mem := by
  unfold State.leaveBarriers
  split <;> simp

@[simp] theorem State.stopSlot_mem (s : State) (c j : Nat) : (s.stopSlot c j).mem = s.mem := by simp [State.stopSlot]

@[simp] theorem tstopBody_mem (f : FmtR) (s : State) (e : Eff) : (tstopBody f s e).Post fun t => t.mem = s.mem := by
  refine withSlot_post rfl fun j t => ?_
  split
  · dsimp only
    repeat' split
    all_goals simp
  · simp

@[simp] theorem State.reap_wf {s : State} (c k : Nat) (h : Memory.wf s.mem = true) : Memory.wf (s.reap c k).mem = true := by
  have hwrite : ∀ (s : State) (p : Nat × Port), Memory.wf s.mem = true →
      Memory.wf (if p.2.kind == .output then s.writeAll c k p.1 p.2.buf.length else s).mem = true := fun s p hs => by
    split <;> simp [hs]
  have hunbind : ∀ (s : State) (p : Nat × Port), Memory.wf s.mem = true → Memory.wf (s.unbind c k p.1).mem = true := fun s p hs => by simp [hs]
  exact foldl_wf hunbind _ (foldl_wf hwrite _ (State.reapCapsule_wf c k h))

@[simp] theorem treapBody_wf (f : FmtR) {s : State} (e : Eff) (h : Memory.wf s.mem = true) : (treapBody f s e).Post fun t => Memory.wf t.mem = true := by
  refine withSlot_post h fun j t => ?_
  split
  case h_5 => simp [h]
  all_goals exact Chk.res_post fun _ _ => by simp [h]

@[simp] theorem tstatBody_mem (f : FmtR) (s : State) (e : Eff) : (tstatBody f s e).Post fun t => t.mem = s.mem := by
  unfold tstatBody
  split <;> simp

@[simp] theorem trdBody_mem (f : FmtR) (s : State) (e : Eff) : (trdBody f s e).Post fun t => t.mem = s.mem := by
  refine Chk.res_post fun ⟨j, t⟩ _ => ?_
  dsimp only
  repeat' split
  all_goals simp

@[simp] theorem twrBody_mem (f : FmtR) (s : State) (e : Eff) : (twrBody f s e).Post fun t => t.mem = s.mem := by
  refine Chk.res_post fun ⟨j, t⟩ _ => ?_
  dsimp only
  split
  · simp
  · exact Chk.res_post fun _ _ => by simp

@[simp] theorem tretBody_mem (f : FmtR) (s : State) (e : Eff) : (tretBody f s e).Post fun t => t.mem = s.mem := by
  refine withSlot_post rfl fun j t => ?_
  split <;> simp

@[simp] theorem State.reapSiblings_wf {s : State} (c : Nat) (js : List Nat) (h : Memory.wf s.mem = true) :
    Memory.wf (s.reapSiblings c js).1.mem = true := by
  induction js generalizing s with
  | nil => exact h
  | cons j js ih =>
    unfold State.reapSiblings
    dsimp only
    split
    · exact ih (State.reap_wf c j h)
    · exact ih h

@[simp] theorem tendBody_wf (f : FmtR) {s : State} (e : Eff) (h : Memory.wf s.mem = true) : (tendBody f s e).Post fun t => Memory.wf t.mem = true := by
  unfold tendBody
  dsimp only
  split
  · trivial
  · split
    · split
      · exact h
      · split
        · exact Chk.res_post fun _ _ => by simp [h]
        · trivial
    · exact h

@[simp] theorem State.loadAt_mem (s : State) (va : Nat) (l : Loc) (n hint : Nat) : (s.loadAt va l n hint).1.mem = s.mem := by simp [State.loadAt]

@[simp] theorem State.storeAt_wf {s : State} (va : Nat) (l : Loc) (n hint v : Nat) (h : Memory.wf s.mem = true) :
    Memory.wf (s.storeAt va l n hint v).mem = true := by simp [State.storeAt, h]

@[simp] theorem State.rmwAt_wf {s : State} (va : Nat) (l : Loc) (n hint : Nat) (f : Nat → Nat) (h : Memory.wf s.mem = true) :
    Memory.wf (s.rmwAt va l n hint f).1.mem = true :=
  State.rmw_wf l n hint f (by simpa using h)

@[simp] theorem ldBody_mem (f : FmtR) (s : State) (e : Eff) : (ldBody f s e).Post fun t => t.mem = s.mem := by
  refine Chk.res_post fun _ _ => ?_
  simp

@[simp] theorem stBody_wf (f : FmtR) {s : State} (e : Eff) (h : Memory.wf s.mem = true) :
    (stBody f s e).Post fun t => Memory.wf t.mem = true := by
  refine Chk.res_post fun _ _ => ?_
  simp [h]

@[simp] theorem State.loadUnits_mem (s : State) (n hint : Nat) (ls : List (Nat × Nat × Loc)) : (s.loadUnits n hint ls).1.mem = s.mem := by
  induction ls generalizing s with
  | nil => rfl
  | cons l ls ih => simp [State.loadUnits, ih]

@[simp] theorem State.storeUnits_wf {s : State} (n hint : Nat) (v : Nat → Nat) (ls : List (Nat × Nat × Loc)) (h : Memory.wf s.mem = true) :
    Memory.wf (s.storeUnits n hint v ls).mem = true := by
  induction ls generalizing s with
  | nil => exact h
  | cons l ls ih => exact ih (State.storeAt_wf _ _ _ _ _ h)

@[simp] theorem startVec_mem (s : State) (i : Instr) (store : Bool) (n hint : Nat) (todo : List (Nat × Nat × Loc)) (vals : List (Nat × Nat)) (e : Eff) :
    (startVec s i store n hint todo vals e).Post fun t => t.mem = s.mem := by simp [startVec]

@[simp] theorem ldvBody_mem (f : FmtR) (s : State) (e : Eff) : (ldvBody f s e).Post fun t => t.mem = s.mem := by
  refine Chk.res_post fun ls _ => ?_
  split <;> simp

@[simp] theorem stvBody_wf (f : FmtR) {s : State} (e : Eff) (h : Memory.wf s.mem = true) : (stvBody f s e).Post fun t => Memory.wf t.mem = true := by
  refine Chk.res_post fun ls _ => ?_
  split
  · exact (startVec_mem ..).mono fun t ht => by rw [ht, h]
  · simp [h]

@[simp] theorem gthBody_mem (f : FmtR) (s : State) (e : Eff) : (gthBody f s e).Post fun t => t.mem = s.mem := by
  refine Chk.res_post fun ls _ => ?_
  split <;> simp

@[simp] theorem sctBody_wf (f : FmtR) {s : State} (e : Eff) (h : Memory.wf s.mem = true) : (sctBody f s e).Post fun t => Memory.wf t.mem = true := by
  refine Chk.res_post fun ls _ => ?_
  split
  · exact (startVec_mem ..).mono fun t ht => by rw [ht, h]
  · simp [h]

@[simp] theorem State.vecStep_wf {s : State} (v : VecRun) (h : Memory.wf s.mem = true) : Memory.wf (s.vecStep v).mem = true := by
  unfold State.vecStep
  repeat' split
  all_goals simp [h]

@[simp] theorem amoBody_wf (f : FmtR) {s : State} (e : Eff) (h : Memory.wf s.mem = true) :
    (amoBody f s e).Post fun t => Memory.wf t.mem = true := by
  refine Chk.res_post fun _ _ => ?_
  simp [h]

@[simp] theorem casBody_wf (f : FmtR) {s : State} (e : Eff) (h : Memory.wf s.mem = true) :
    (casBody f s e).Post fun t => Memory.wf t.mem = true := by
  refine Chk.res_post fun _ _ => ?_
  simp [h]

@[simp] theorem State.rmwUnits_wf {s : State} (n hint : Nat) (g : Nat → Nat → Nat) (ls : List (Nat × Nat × Loc)) (h : Memory.wf s.mem = true) :
    Memory.wf (s.rmwUnits n hint g ls).1.mem = true := by
  induction ls generalizing s with
  | nil => exact h
  | cons l ls ih => exact ih (State.rmwAt_wf _ _ _ _ _ h)

@[simp] theorem amovBody_wf (f : FmtR) {s : State} (e : Eff) (h : Memory.wf s.mem = true) :
    (amovBody f s e).Post fun t => Memory.wf t.mem = true := by
  unfold amovBody
  dsimp only
  split
  · trivial
  · exact Chk.res_post fun ls _ => by simp [h]

@[simp] theorem State.platRead_mem (s : State) (c k : Nat) (p : Plat) (x : List Nat) (ts lam : Nat) :
    (s.platRead c k p x ts lam).Post fun r => r.1.mem = s.mem := by
  unfold State.platRead
  split
  · rfl
  · exact (State.pathRead_mem ..).bind fun r hr => hr

@[simp] theorem State.platScale_mem (s : State) (c k : Nat) (p : Plat) (x : List Nat) (ts lam : Nat) :
    (s.platScale c k p x ts lam).Post fun r => r.1.mem = s.mem := by
  unfold State.platScale
  split <;> simp

@[simp] theorem State.reachUnits_mem (s : State) (c k : Nat) (us : List PlatUnit) : (s.reachUnits c k us).Post fun r => r.1.mem = s.mem := by
  induction us generalizing s with
  | nil => rfl
  | cons u us ih => exact Chk.bind_post fun q _ => (ih _).bind fun y hy => by simpa using hy

/-- The bytes of a write keep memory canonical. -/
@[simp] theorem State.homePut_wf {s : State} (l : Loc) (n v w : Nat) (h : Memory.wf s.mem = true) : Memory.wf (s.homePut l n v w).mem = true := by
  rw [State.homePut_mem]
  split
  · exact Memory.writeNat_wf _ _ _ h
  · exact h

@[simp] theorem State.putUnits_wf {s : State} (p : Plat) (w : Nat) (us : List UnitWrite) (h : Memory.wf s.mem = true) :
    Memory.wf (s.putUnits p w us).mem = true :=
  foldl_wf (fun _ _ => State.homePut_wf _ _ _ _) us h

@[simp] theorem State.writeUnits_wf {s : State} (p : Plat) (ts : Nat) (us : List UnitWrite) (h : Memory.wf s.mem = true) :
    Memory.wf (s.writeUnits p ts us).1.mem = true := by
  unfold State.writeUnits
  split <;> simp [h]

@[simp] theorem State.platReads_mem (s : State) (c k : Nat) (p : Plat) (ts : Nat) (xs : List (List Nat)) :
    (s.platReads c k p ts xs).Post fun r => r.1.mem = s.mem := by
  induction xs generalizing s with
  | nil => rfl
  | cons x xs ih => exact (State.platRead_mem ..).bind fun r hr => (ih r.1).bind fun q hq => hq.trans hr

@[simp] theorem mzeroBody_mem (f : FmtR) (s : State) (e : Eff) : (mzeroBody f s e).Post fun t => t.mem = s.mem := by
  unfold mzeroBody
  dsimp only
  split <;> simp

@[simp] theorem doneElems_post (P : State → Prop) (s : State) (e : Eff) (f : FmtR) (t : Nat) (g : Nat → Nat × Word) :
    (doneElems s e f t g).Post P ↔ P s := Iff.rfl

@[simp] theorem mrdBody_mem (f : FmtR) (s : State) (e : Eff) : (mrdBody f s e).Post fun t => t.mem = s.mem := by
  unfold mrdBody
  dsimp only
  repeat' split
  all_goals simp

@[simp] theorem mwrBody_mem (f : FmtR) (s : State) (e : Eff) : (mwrBody f s e).Post fun t => t.mem = s.mem := by
  unfold mwrBody
  dsimp only
  repeat' split
  all_goals simp

@[simp] theorem mstatBody_mem (f : FmtR) (s : State) (e : Eff) : (mstatBody f s e).Post fun t => t.mem = s.mem := rfl

@[simp] theorem mstatWBody_mem (f : FmtR) (s : State) (e : Eff) : (mstatWBody f s e).Post fun t => t.mem = s.mem := rfl

@[simp] theorem State.platBoth_mem (s : State) (c sl : Nat) (p : Plat) (ts : Nat) (xs : List (List Nat)) :
    (s.platBoth c sl p ts xs).Post fun r => r.1.mem = s.mem := by
  induction xs generalizing s with
  | nil => rfl
  | cons x xs ih =>
    refine (State.platRead_mem ..).bind fun r hr => ?_
    split
    · exact (ih r.1).bind fun q hq => hq.trans hr
    · exact (State.platScale_mem ..).bind fun z hz => (ih z.1).bind fun q hq => hq.trans (hz.trans hr)

@[simp] theorem acceptUnit_mem (s : State) (e : Eff) (k : UnitKind) : (acceptUnit s e k).Post fun t => t.mem = s.mem := rfl

@[simp] theorem mmaBody_mem (f : FmtR) (s : State) (e : Eff) : (mmaBody f s e).Post fun t => t.mem = s.mem := rfl

@[simp] theorem wbldBody_mem (f : FmtP) (s : State) (e : Eff) : (wbldBody f s e).Post fun t => t.mem = s.mem := by
  refine Chk.res_post fun l _ => ?_
  dsimp only
  split <;> simp

@[simp] theorem wbinvBody_mem (f : FmtP) (s : State) (e : Eff) : (wbinvBody f s e).Post fun t => t.mem = s.mem := rfl

@[simp] theorem mloadBody_mem (f : FmtP) (s : State) (e : Eff) : (mloadBody f s e).Post fun t => t.mem = s.mem := by
  refine Chk.res_post fun _ _ => ?_
  simp

@[simp] theorem mdrainBody_mem (f : FmtP) (s : State) (e : Eff) : (mdrainBody f s e).Post fun t => t.mem = s.mem := by
  refine Chk.res_post fun _ _ => ?_
  simp

@[simp] theorem State.unitFault_mem (s : State) (c : Nat) (op : UnitOp) (f : FaultInfo) : (s.unitFault c op f).mem = s.mem := by simp [State.unitFault]

@[simp] theorem State.unitDone_mem (s : State) (c : Nat) (op : UnitOp) (e : Eff) : (s.unitDone c op e).mem = s.mem := by simp [State.unitDone]

@[simp] theorem State.unitGoes_mem (s : State) (c : Nat) (op : UnitOp) : (s.unitGoes c op).mem = s.mem := rfl

@[simp] theorem State.mmaJudge_mem (s : State) (c : Nat) (op : UnitOp) : (s.mmaJudge c op).mem = s.mem := by
  unfold State.mmaJudge
  dsimp only
  repeat' split
  all_goals simp

theorem execMatrixOpBegin_keeps (c : Nat) : Keeps (execMatrixOpBegin c) := by
  refine keeps_answer _ fun s h => ?_
  dsimp only
  repeat' split
  all_goals simp [h]

@[simp] theorem State.drainLines_mem (s : State) (c : Nat) (op : UnitOp) (p : Plat) (org : Word) (ys : List (Nat × Word)) :
    (s.drainLines c op p org ys).Post fun r => r.1.mem = s.mem := by
  unfold State.drainLines
  split
  · rfl
  · exact (State.reachUnits_mem ..).bind fun r hr => hr

@[simp] theorem State.readColumn_mem (s : State) (c : Nat) (op : UnitOp) (l : Line) (org : Word) (n : Nat) :
    (s.readColumn c op l org n).Post fun r => r.1.mem = s.mem :=
  (State.platBoth_mem ..).bind fun _ hr => hr

theorem execMatrixOpCompletion_keeps (c : Nat) : Keeps (execMatrixOpCompletion c) := by
  refine keeps_answer _ fun s h => ?_
  dsimp only
  split
  · exact h
  · split
    case h_1 =>
      split
      · split
        · next hr =>
          have hm := (congrArg Memory.wf ((State.readColumn_mem ..).of_ok hr)).trans h
          split <;> simp [hm]
        · simp [h]
        · exact h
      · simp [h]
    case h_2 =>
      split
      · next hr =>
        have hm := (congrArg Memory.wf ((State.readColumn_mem ..).of_ok hr)).trans h
        split <;> simp [hm]
      · simp [h]
      · exact h
    case h_3 => simp [h]
    case h_4 =>
      split
      · next hr =>
        have hm := (congrArg Memory.wf ((State.platReads_mem ..).of_ok hr)).trans h
        split <;> simp [hm]
      · simp [h]
      · exact h
    case h_5 =>
      split
      · next hr =>
        have hm := (congrArg Memory.wf ((State.drainLines_mem ..).of_ok hr)).trans h
        refine ite_wf h ?_
        split <;> simp [hm]
      · simp [h]
      · exact h

end Sys2Proof.Machine
end

section
/-! SUPPORT. What pairs, copies, fences, fields and the channels do to memory. -/

namespace Sys2Proof.Machine

/-- A taken branch leaves what the fetch of its target left. -/
theorem takeTo_state (s : State) (e : Eff) (pc : Word) : (takeTo s e pc).Post fun t => t = s.targetFetch pc := by
  unfold takeTo
  split
  · trivial
  · split
    · trivial
    · rfl

theorem takeLinear_state (s : State) (e : Eff) (n : Int) : (takeLinear s e n).Post fun t => ∃ pc, pcOfInt n = some pc ∧ t = s.targetFetch pc := by
  unfold takeLinear
  split
  · next pc h => exact (takeTo_state s e pc).mono fun t ht => ⟨pc, h, ht⟩
  · trivial

/-- An instruction of a pair leaves the state of its reads, but for what the fetch of a branch's target left (R68, R77). -/
theorem pairBody_state {i : Instr} {body : State → Eff → Res} (h : pairBody i = some body) (s : State) (e : Eff) :
    (body s e).Post fun t => t = s ∨ ∃ pc, branchTarget i s = some pc ∧ t = s.targetFetch pc := by
  cases i
  case br f => cases h; exact (takeLinear_state ..).mono fun _ => .inr
  case call f => cases h; exact (takeLinear_state ..).mono fun _ => .inr
  case brc f =>
    cases h
    unfold brcBody
    dsimp only
    exact Res.post_ite (fun _ => (takeLinear_state ..).mono fun _ => .inr) fun _ => .inl rfl
  case dbnz f =>
    cases h
    unfold dbnzBody
    exact Res.post_ite (fun _ => (takeLinear_state ..).mono fun _ => .inr) fun _ => .inl rfl
  case brx f => cases h; exact (takeLinear_state ..).mono fun _ => .inr
  case jmp f => cases h; exact (takeTo_state ..).mono fun _ ht => .inr ⟨_, rfl, ht⟩
  case ext f =>
    cases h
    unfold extBody
    exact Res.post_ite (fun _ => .inl rfl) fun _ => .inl rfl
  all_goals cases h <;> exact .inl rfl

theorem pairBody_wf {i : Instr} {body : State → Eff → Res} (hi : pairBody i = some body) {s : State} (e : Eff) (h : Memory.wf s.mem = true) :
    (body s e).Post fun t => Memory.wf t.mem = true := by
  refine (pairBody_state hi s e).mono fun t ht => ?_
  obtain rfl | ⟨pc, -, rfl⟩ := ht
  · exact h
  · exact State.targetFetch_wf pc h

theorem State.pairHalf_wf {s : State} (i : Instr) (prior : List Nat) (h : Memory.wf s.mem = true) :
    (s.pairHalf i prior).Post fun r => Memory.wf r.1.mem = true := by
  unfold State.pairHalf
  split
  · trivial
  · refine Chk.bind_post fun p hp => ?_
    split
    · trivial
    · next body hbody =>
      have hb := pairBody_wf hbody p.2 (s := p.1) (by rw [prepare_mem hp, h])
      revert hb
      cases body p.1 p.2 <;> simp

@[simp] theorem State.runPair_wf {s : State} (a b : Instr) (h : Memory.wf s.mem = true) : Memory.wf (s.runPair a b).mem = true := by
  unfold State.runPair
  split
  · simp [h]
  · simp [h]
  · next s1 e1 h1 =>
    have hs1 : Memory.wf s1.mem = true := (State.pairHalf_wf a [] h).of_ok h1
    split
    · simp [hs1]
    · simp [h]
    · next s2 e2 h2 =>
      have hs2 : Memory.wf s2.mem = true := (State.pairHalf_wf b _ hs1).of_ok h2
      simp [hs2]

@[simp] theorem State.runBadPair_wf {s : State} (a : Instr) (h : Memory.wf s.mem = true) : Memory.wf (s.runBadPair a).mem = true := by
  unfold State.runBadPair
  split
  · simp [h]
  · simp [h]
  · next s1 e1 h1 =>
    have hs1 : Memory.wf s1.mem = true := (State.pairHalf_wf a [] h).of_ok h1
    simp [hs1]

@[simp] theorem State.fillReg_mem (s : State) (c k r : Nat) (x : VReg) (ts : Nat) : ∀ t ∈ (s.fillReg c k r x ts), t.mem = s.mem := by
  unfold State.fillReg
  dsimp only
  split <;> simp

@[simp] theorem State.copyRead_mem (s : State) (c : Nat) (m : CopyCmd) (is : List CopyItem) : (s.copyRead c m is).Post fun r => r.1.mem = s.mem := by
  induction is generalizing s with
  | nil => rfl
  | cons i is ih =>
    have hread : (if i.scale then s.platScale c m.slot (platOf m.src) i.src m.pts 0 else s.platRead c m.slot (platOf m.src) i.src m.pts 0).Post
        fun r => r.1.mem = s.mem := by split <;> simp
    exact hread.bind fun r hr => (ih r.1).bind fun q hq => hq.trans hr

@[simp] theorem State.copyReach_mem (s : State) (c : Nat) (m : CopyCmd) (t : Option Nat) (va n : Nat) :
    (s.copyReach c m t va n).1.mem = s.mem := by
  unfold State.copyReach
  dsimp only
  repeat' split
  all_goals simp

@[simp] theorem State.copyReaches_mem (s : State) (c : Nat) (m : CopyCmd) (t : Option Nat) (us : List PlatUnit) :
    (s.copyReaches c m t us).Post fun r => r.1.mem = s.mem := by
  induction us generalizing s with
  | nil => rfl
  | cons u us ih => exact Chk.bind_post fun q _ => (ih _).bind fun y hy => by simpa using hy

@[simp] theorem State.refreshL1_mem (s : State) (c : Nat) (l : Loc) : (s.refreshL1 c l).mem = s.mem := by
  unfold State.refreshL1
  dsimp only
  repeat' split
  all_goals simp

@[simp] theorem State.copyWord_wf {s : State} (c : Nat) (m : CopyCmd) (mark : Nat) (h : Memory.wf s.mem = true) :
    (s.copyWord c m mark).Post fun r => Memory.wf r.1.mem = true := by
  unfold State.copyWord
  split
  · exact h
  · split
    · trivial
    · exact Chk.bind_post fun l _ => by simp [h, State.homeWrite_wf]

@[simp] theorem State.copyRetire_mem (s : State) (c e : Nat) : (s.copyRetire c e).mem = s.mem := rfl

@[simp] theorem State.copyFill_mem (s : State) (c : Nat) (r : CopyRun) (vs : List Nat) : (s.copyFill c r vs).Post fun q => q.1.mem = s.mem := by
  unfold State.copyFill
  dsimp only
  split
  · next ht => exact State.fillReg_mem _ _ _ _ _ _ _ ht
  · trivial

@[simp] theorem State.copyStep_wf {s : State} (c : Nat) (r : CopyRun) (i : Nat) (h : Memory.wf s.mem = true) :
    (s.copyStep c r i).Post fun q => Memory.wf q.1.mem = true := by
  unfold State.copyStep
  dsimp only
  split
  · exact h
  · refine Chk.bind_post fun _ _ => ?_
    split
    · split
      · exact (State.copyFill_mem ..).bind fun q hq => (congrArg Memory.wf hq).trans h
      · exact h
    · exact (State.copyRead_mem ..).bind fun d hd => (congrArg Memory.wf hd).trans h
    · exact (State.copyReaches_mem ..).bind fun q hq => State.writeUnits_wf _ _ _ ((congrArg Memory.wf hq).trans h)

@[simp] theorem State.copyEnd_wf {s : State} (c : Nat) (r : CopyRun) (h : Memory.wf s.mem = true) : Memory.wf (s.copyEnd c r).mem = true := by
  unfold State.copyEnd
  split
  · next w hw =>
    have hm : Memory.wf w.1.mem = true := (State.copyWord_wf c r.cmd r.mark h).of_ok hw
    simp [hm]
  · exact h

theorem execCopyCommandCompletion_keeps (c : Nat) : Keeps (execCopyCommandCompletion c) := by
  refine keeps_answer _ fun s h => ?_
  dsimp only
  split
  · exact h
  · split
    · split
      · simp [h]
      · split
        · next q hq =>
          have hm : Memory.wf q.1.mem = true := (State.copyStep_wf (s := s.popPick) _ _ _ (by simp [h])).of_ok hq
          split <;> simp [hm]
        · exact h
    · split
      · next q hq =>
        obtain ⟨r, -, hr⟩ := Option.map_eq_some_iff.mp hq
        exact (State.copyStep_wf (s := s.popPick) _ _ _ (by simp [h])).of_ok hr
      · exact h
    · exact h

@[simp] theorem State.forget_mem (s : State) (space : Nat) (va : Word) : (s.forget space va).mem = s.mem := rfl

@[simp] theorem State.remember_mem (s : State) (r : ChainRec) : (s.remember r).mem = s.mem := rfl

@[simp] theorem State.readRecord_mem (s : State) (c : Nat) (w : Walk) : (s.readRecord c w).Post fun r => r.1.mem = s.mem := by
  refine (State.pathRead_mem ..).bind fun q hq => ?_
  dsimp only
  split
  · trivial
  · split
    · trivial
    · split
      · trivial
      · exact hq

@[simp] theorem State.startRecord_mem (s : State) (c : Nat) (w : Walk) : (s.startRecord c w).Post fun t => t.mem = s.mem := by
  unfold State.startRecord
  dsimp only
  split
  · trivial
  · exact (State.readRecord_mem ..).bind fun q hq => by simpa using hq

@[simp] theorem State.startWalk_mem (s : State) (c : Nat) (desc : Word) (slot : Nat) (pc : Word) (pts : Nat) (rest : List CopyEntry) :
    (s.startWalk c desc slot pc pts rest).Post fun t => t.mem = s.mem :=
  (State.pathRead_mem ..).bind fun _ hq => hq

@[simp] theorem State.startBehind_mem (s : State) (c : Nat) : (s.startBehind c).mem = s.mem := by
  unfold State.startBehind
  dsimp only
  repeat' split
  all_goals simp

@[simp] theorem State.copyStart_mem (s : State) (c : Nat) : (s.copyStart c).Post fun t => t.mem = s.mem := by
  unfold State.copyStart
  dsimp only
  repeat' split
  all_goals simp

theorem execCopyCommandStart_keeps (c : Nat) : Keeps (execCopyCommandStart c) := by
  refine keeps_answer _ fun s h => ?_
  dsimp only
  split
  · exact h
  · split
    · next hs => exact (congrArg Memory.wf ((State.copyStart_mem ..).of_ok hs)).trans h
    · exact h

@[simp] theorem State.walkAsk_wf {s : State} (c : Nat) (w : Walk) (h : Memory.wf s.mem = true) :
    (s.walkAsk c w).Post fun t => Memory.wf t.mem = true := by
  refine (State.pathRead_mem ..).bind fun t ht => ?_
  have hm : Memory.wf t.1.mem = true := by rw [ht, h]
  split
  · exact (State.pathWrite_wf _ _ _ _ _ _ _ hm).bind fun q hq => hq
  · exact (State.pathRead_mem ..).bind fun n hn => (congrArg Memory.wf hn).trans hm

theorem execChainWalkStep_keeps (c : Nat) : Keeps (execChainWalkStep c) := by
  refine keeps_answer _ fun s h => ?_
  dsimp only
  split
  · split
    · exact h
    · split
      · next hs => exact (State.walkAsk_wf _ _ h).of_ok hs
      · exact h
  · exact h

theorem execCopyEngineFault_keeps (c : Nat) : Keeps (execCopyEngineFault c) := by
  refine keeps_answer _ fun s h => ?_
  dsimp only
  repeat' split
  all_goals simp [h]

@[simp] theorem acceptCopy_mem (kind : Nat) (f : FmtP) (s : State) (e : Eff) :
    (acceptCopy kind f s e).Post fun t => t.mem = s.mem := by
  refine Chk.res_post fun w _ => ?_
  split
  · trivial
  · exact Res.post_ite (fun _ => trivial) fun _ => by simp

@[simp] theorem cpyBody_mem (f : FmtP) (s : State) (e : Eff) : (cpyBody f s e).Post fun t => t.mem = s.mem := by simp [cpyBody]

@[simp] theorem mcastBody_mem (f : FmtP) (s : State) (e : Eff) : (mcastBody f s e).Post fun t => t.mem = s.mem := by simp [mcastBody]

@[simp] theorem rfillBody_mem (f : FmtP) (s : State) (e : Eff) : (rfillBody f s e).Post fun t => t.mem = s.mem := by simp [rfillBody]

@[simp] theorem cpycBody_wf (f : FmtP) {s : State} (e : Eff) (h : Memory.wf s.mem = true) : (cpycBody f s e).Post fun t => Memory.wf t.mem = true := by
  unfold cpycBody
  dsimp only
  refine Res.post_ite (fun _ => trivial) fun _ => Res.post_ite (fun _ => trivial) fun _ => Chk.res_post fun la _ => Chk.res_post fun lb _ =>
    Chk.res_post fun lt _ => Res.post_ite (fun _ => trivial) fun _ => Res.post_ite (fun _ => ?_) fun _ => ?_
  · simp [h]
  · exact State.storeSpan_wf _ _ _ (by simp [h])

@[simp] theorem eseqBody_mem (f : FmtP) (s : State) (e : Eff) : (eseqBody f s e).Post fun t => t.mem = s.mem := rfl

@[simp] theorem eseqGoBody_mem (f : FmtP) (s : State) (e : Eff) : (eseqGoBody f s e).Post fun t => t.mem = s.mem := by
  unfold eseqGoBody
  dsimp only
  split <;> simp

@[simp] theorem State.copyDrop_mem (s : State) (c : Nat) : (s.copyDrop c).mem = s.mem := by
  unfold State.copyDrop
  dsimp only
  repeat' split
  all_goals simp

@[simp] theorem eseqDropBody_mem (f : FmtP) (s : State) (e : Eff) : (eseqDropBody f s e).Post fun t => t.mem = s.mem := by
  unfold eseqDropBody
  dsimp only
  split <;> simp

@[simp] theorem ewaitBody_mem (f : FmtP) (s : State) (e : Eff) : (ewaitBody f s e).Post fun t => t.mem = s.mem := by
  unfold ewaitBody
  dsimp only
  split <;> simp

@[simp] theorem State.evictLine_mem (s : State) (ln : Nat) : (s.evictLine ln).mem = s.mem := by
  unfold State.evictLine
  dsimp only
  split <;> simp

@[simp] theorem fencexBody_mem (f : FmtR) (s : State) (e : Eff) : (fencexBody f s e).Post fun t => t.mem = s.mem := by
  unfold fencexBody
  dsimp only
  repeat' split
  all_goals simp

@[simp] theorem State.cwbOne_mem (s : State) (inv : Bool) (va : Nat) : (s.cwbOne inv va).1.mem = s.mem := by
  unfold State.cwbOne
  dsimp only
  repeat' split
  all_goals simp

@[simp] theorem State.cwbFrom_mem (s : State) (inv : Bool) (va n : Nat) : (s.cwbFrom inv va n).1.mem = s.mem := by
  induction n generalizing s va with
  | zero => rfl
  | succ n ih => simp [State.cwbFrom, ih]

@[simp] theorem cwbBody_mem (f : FmtR) (s : State) (e : Eff) : (cwbBody f s e).Post fun t => t.mem = s.mem := by
  unfold cwbBody
  dsimp only
  repeat' split
  all_goals simp

@[simp] theorem State.setWays_mem (s : State) (f m : Nat) : (s.setWays f m).mem = s.mem := by
  unfold State.setWays
  dsimp only
  split
  · rfl
  · rw [State.setFold_mem]
    split
    · exact foldl_mem _ (fun _ _ => State.evictLine_mem ..) _ _
    · rfl

@[simp] theorem State.fieldRetire_mem (s : State) (f mark : Nat) (flags : BitVec 4) : (s.fieldRetire f mark flags).mem = s.mem := by
  unfold State.fieldRetire
  dsimp only
  split <;> simp

theorem execFieldCommandStart_keeps (f : Nat) : Keeps (execFieldCommandStart f) := by
  refine keeps_answer _ fun s h => ?_
  dsimp only
  repeat' split
  all_goals simp [h]

@[simp] theorem State.finLane_mem (s : State) (f : Nat) (m : FieldCmd) (l : Line) (org : Word) (l0 row srow j : Nat) :
    (s.finLane f m l org l0 row srow j).Post fun t => t.mem = s.mem := by
  unfold State.finLane
  dsimp only
  split
  · rfl
  · refine (State.platRead_mem ..).bind fun r hr => ?_
    split
    · exact (State.platScale_mem ..).bind fun q hq => hq.trans hr
    · exact hr

@[simp] theorem State.foutLine_wf {s : State} (f : Nat) (r : FieldRun) (p : Plat) (h : Memory.wf s.mem = true) :
    (s.foutLine f r p).Post fun q => Memory.wf q.1.mem = true := by
  unfold State.foutLine
  split
  · exact h
  · exact (State.reachUnits_mem ..).bind fun q hq => State.writeUnits_wf _ _ _ ((congrArg Memory.wf hq).trans h)

@[simp] theorem State.fieldLane_wf {s : State} (f : Nat) (r : FieldRun) (h : Memory.wf s.mem = true) :
    (s.fieldLane f r).Post fun q => Memory.wf q.1.mem = true := by
  unfold State.fieldLane
  split
  · exact (State.finLane_mem ..).bind fun q hq => (congrArg Memory.wf hq).trans h
  · simp [h]
  · exact h

@[simp] theorem State.fieldLanes_wf {s : State} (f : Nat) (r : FieldRun) (n : Nat) (h : Memory.wf s.mem = true) :
    Memory.wf (s.fieldLanes f r n).1.mem = true := by
  induction n generalizing s r with
  | zero => exact h
  | succ n ih =>
    unfold State.fieldLanes
    split
    · next hq => exact ih _ ((State.fieldLane_wf f r h).of_ok hq)
    · exact h

theorem execFieldCommandCompletion_keeps (f : Nat) : Keeps (execFieldCommandCompletion f) := by
  refine keeps_answer _ fun s h => ?_
  dsimp only
  repeat' split
  all_goals simp [h]

theorem execFieldFault_keeps (f : Nat) : Keeps (execFieldFault f) := by
  refine keeps_answer _ fun s h => ?_
  dsimp only
  repeat' split
  all_goals simp [h]

@[simp] theorem State.acceptField_mem (s : State) (f : Nat) (k : FieldKind) : (s.acceptField f k).1.mem = s.mem := by simp [State.acceptField]

/-- A field command is as what it does with the fold once its queue has room. -/
theorem fieldIssue_post {P : State → Prop} {s : State} {go : Nat → Fold → Res} (h : ∀ f x, (go f x).Post P) : (fieldIssue s go).Post P :=
  Chk.res_post fun _ _ => Res.post_ite (fun _ => trivial) fun _ => h _ _

@[simp] theorem fdmodeBody_mem (f : FmtR) (s : State) (e : Eff) : (fdmodeBody f s e).Post fun t => t.mem = s.mem :=
  fieldIssue_post fun _ _ => by simp

@[simp] theorem fdwaitBody_mem (f : FmtR) (s : State) (e : Eff) : (fdwaitBody f s e).Post fun t => t.mem = s.mem :=
  Chk.res_post fun _ _ => Res.post_ite (fun _ => trivial) fun _ => rfl

@[simp] theorem fdstatRead_mem (f : FmtR) (i : Nat) (s : State) (e : Eff) : (fdstatRead f i s e).Post fun t => t.mem = s.mem := by
  unfold fdstatRead
  dsimp only
  split <;> simp

@[simp] theorem fdstatBody_mem (f : FmtR) (s : State) (e : Eff) : (fdstatBody f s e).Post fun t => t.mem = s.mem := by
  refine Chk.res_post fun _ _ => ?_
  simp

@[simp] theorem fdstatGoBody_mem (f : FmtR) (s : State) (e : Eff) : (fdstatGoBody f s e).Post fun t => t.mem = s.mem :=
  Chk.res_post fun _ _ => fdstatRead_mem ..

@[simp] theorem State.fieldDrop_mem (s : State) (i : Nat) : (s.fieldDrop i).mem = s.mem := by
  unfold State.fieldDrop
  dsimp only
  repeat' split
  all_goals simp

@[simp] theorem fdstatDropBody_mem (f : FmtR) (s : State) (e : Eff) : (fdstatDropBody f s e).Post fun t => t.mem = s.mem :=
  Chk.res_post fun i _ => (fdstatRead_mem ..).mono fun t ht => by simpa using ht

@[simp] theorem transferIssue_mem (f : FmtP) (kind : Line → Word → Nat → Nat → Nat → FieldKind) (s : State) (e : Eff) :
    (transferIssue f kind s e).Post fun t => t.mem = s.mem :=
  fieldIssue_post fun _ _ => Chk.res_post fun _ _ => by simp

@[simp] theorem fdinBody_mem (f : FmtP) (s : State) (e : Eff) : (fdinBody f s e).Post fun t => t.mem = s.mem := by simp [fdinBody]

@[simp] theorem fdoutBody_mem (f : FmtP) (s : State) (e : Eff) : (fdoutBody f s e).Post fun t => t.mem = s.mem := by simp [fdoutBody]

@[simp] theorem rowIssue_mem (sub : Nat) (f : FmtF) (s : State) (e : Eff) : (rowIssue sub f s e).Post fun t => t.mem = s.mem := by
  refine fieldIssue_post fun i x => ?_
  split
  · trivial
  · exact Res.post_ite (fun _ => trivial) fun _ => by simp

@[simp] theorem fdaddBody_mem (f : FmtF) (s : State) (e : Eff) : (fdaddBody f s e).Post fun t => t.mem = s.mem := by simp [fdaddBody]

@[simp] theorem fdsubBody_mem (f : FmtF) (s : State) (e : Eff) : (fdsubBody f s e).Post fun t => t.mem = s.mem := by simp [fdsubBody]

@[simp] theorem fdmulBody_mem (f : FmtF) (s : State) (e : Eff) : (fdmulBody f s e).Post fun t => t.mem = s.mem := by simp [fdmulBody]

@[simp] theorem fdcmpBody_mem (f : FmtF) (s : State) (e : Eff) : (fdcmpBody f s e).Post fun t => t.mem = s.mem := by simp [fdcmpBody]

@[simp] theorem fdselBody_mem (f : FmtF) (s : State) (e : Eff) : (fdselBody f s e).Post fun t => t.mem = s.mem := by simp [fdselBody]

@[simp] theorem fdbitBody_mem (f : FmtF) (s : State) (e : Eff) : (fdbitBody f s e).Post fun t => t.mem = s.mem := by simp [fdbitBody]

@[simp] theorem fdminBody_mem (f : FmtF) (s : State) (e : Eff) : (fdminBody f s e).Post fun t => t.mem = s.mem := by simp [fdminBody]

@[simp] theorem fdmaxBody_mem (f : FmtF) (s : State) (e : Eff) : (fdmaxBody f s e).Post fun t => t.mem = s.mem := by simp [fdmaxBody]

@[simp] theorem fdlmulBody_mem (f : FmtF) (s : State) (e : Eff) : (fdlmulBody f s e).Post fun t => t.mem = s.mem := by simp [fdlmulBody]

@[simp] theorem fdrqBody_mem (f : FmtF) (s : State) (e : Eff) : (fdrqBody f s e).Post fun t => t.mem = s.mem := by simp [fdrqBody]

@[simp] theorem fdpopBody_mem (f : FmtF) (s : State) (e : Eff) : (fdpopBody f s e).Post fun t => t.mem = s.mem := by simp [fdpopBody]

theorem execLineEviction_keeps (ln : Nat) : Keeps (execLineEviction ln) := by
  refine keeps_answer _ fun s h => ?_
  dsimp only
  split <;> simp [h]

theorem execChannelEvictionNotice_keeps (ln : Nat) : Keeps (execChannelEvictionNotice ln) := by
  refine keeps_answer _ fun s h => ?_
  split <;> simp [h]

theorem execChannelFill_keeps (ln : Nat) : Keeps (execChannelFill ln) := by
  refine keeps_answer _ fun s h => ?_
  dsimp only
  repeat' split
  all_goals simp [h]

@[simp] theorem xovlBody_mem (f : FmtR) (s : State) (e : Eff) : (xovlBody f s e).Post fun t => t.mem = s.mem :=
  Chk.res_post fun _ _ => Chk.res_post fun _ _ => by simp

@[simp] theorem State.overlayLines_wf {s : State} (n : Nat) (ls : List Nat) (h : Memory.wf s.mem = true) :
    Memory.wf (s.overlayLines n ls).1.mem = true := by
  induction ls generalizing s n with
  | nil => exact h
  | cons ln ls ih => exact ih _ (State.readMem_wf ln h)

theorem execOverlayLineArrival_keeps (ch w : Nat) : Keeps (execOverlayLineArrival ch w) := by
  refine keeps_answer _ fun s h => ?_
  dsimp only
  repeat' split
  all_goals simp [h]

@[simp] theorem xmigBody_mem (f : FmtR) (s : State) (e : Eff) : (xmigBody f s e).Post fun t => t.mem = s.mem := by
  refine Chk.res_post fun _ _ => ?_
  simp

theorem execContextTake_keeps (c k : Nat) : Keeps (execContextTake c k) := by
  refine keeps_answer _ fun s h => ?_
  dsimp only
  repeat' split
  all_goals simp [h]

@[simp] theorem State.freeCtx_mem (s : State) (ch i : Nat) : (s.freeCtx ch i).mem = s.mem := by
  unfold State.freeCtx
  split <;> simp

theorem execContextFaultBack_keeps (ch i : Nat) : Keeps (execContextFaultBack ch i) := by
  refine keeps_answer _ fun s h => ?_
  repeat' split
  all_goals simp [h]

@[simp] theorem xretBody_mem (f : FmtR) (s : State) (_e : Eff) : (xretBody f s _e).Post fun t => t.mem = s.mem := by
  unfold xretBody
  repeat' split
  all_goals simp

theorem execXretArrival_keeps (ch i : Nat) : Keeps (execXretArrival ch i) := by
  refine keeps_answer _ fun s h => ?_
  dsimp only
  repeat' split
  all_goals simp [h]

@[simp] theorem nearIssue_mem (atMemory : Bool) (f : FmtR) (s : State) (e : Eff) :
    (nearIssue atMemory f s e).Post fun t => t.mem = s.mem := by
  refine Res.post_ite (fun _ => trivial) fun _ => Res.post_ite (fun _ => trivial) fun _ => Chk.res_post fun l _ => ?_
  cases l with
  | scr _ _ => trivial
  | mem pa => simp

@[simp] theorem xupdBody_mem (f : FmtR) (s : State) (e : Eff) : (xupdBody f s e).Post fun t => t.mem = s.mem := by simp [xupdBody]

@[simp] theorem xnrmBody_mem (f : FmtR) (s : State) (e : Eff) : (xnrmBody f s e).Post fun t => t.mem = s.mem := by simp [xnrmBody]

@[simp] theorem State.applyPacket_wf {s : State} (p : Packet) (h : Memory.wf s.mem = true) : Memory.wf (s.applyPacket p).mem = true := by
  have hm : Memory.wf (if p.atMemory then (s.evictLine (p.pa / 64)).setPresent (p.pa / 64) false else s).mem = true :=
    ite_wf (by simp [h]) h
  simp [State.applyPacket, Memory.writeNat_wf, hm]

theorem execNearPacketApply_keeps (i : Nat) : Keeps (execNearPacketApply i) := by
  refine keeps_answer _ fun s h => ?_
  dsimp only
  split
  · exact h
  · refine ite_wf h (ite_wf (ite_wf h h) ?_)
    exact State.applyPacket_wf _ h

@[simp] theorem xrlkBody_mem (f : FmtR) (s : State) (e : Eff) : (xrlkBody f s e).Post fun t => t.mem = s.mem := by
  refine Chk.res_post fun ⟨ch, me, row⟩ _ => ?_
  dsimp only
  split
  · exact Res.post_ite (fun _ => rfl) fun _ => trivial
  · exact Res.post_ite (fun _ => rfl) fun _ => by simp

@[simp] theorem State.freeRow_wf {s : State} (ch row : Nat) (h : Memory.wf s.mem = true) : Memory.wf (s.freeRow ch row).mem = true :=
  foldl_wf (fun _ _ => State.applyPacket_wf _) _ h

@[simp] theorem xrulBody_wf (f : FmtR) {s : State} (e : Eff) (h : Memory.wf s.mem = true) :
    (xrulBody f s e).Post fun t => Memory.wf t.mem = true :=
  Chk.res_post fun ⟨_, _, _⟩ _ => ite_wf (State.freeRow_wf _ _ h) h

@[simp] theorem State.freeLocks_wf {s : State} (ln : Nat) (h : Memory.wf s.mem = true) : Memory.wf (s.freeLocks ln).mem = true :=
  foldl_wf (fun _ _ hs => foldl_wf (fun _ _ => State.freeRow_wf _ _) _ hs) _ h

@[simp] theorem State.freeNear_wf {s : State} (ln : Nat) (h : Memory.wf s.mem = true) : Memory.wf (s.freeNear ln).mem = true := by simp [State.freeNear, h]

end Sys2Proof.Machine
end

section
/-! SUPPORT. What messages, queues, barriers, tables, walks and modules do to memory. -/

namespace Sys2Proof.Machine

@[simp] theorem State.complete_mem (s : State) (d : Nat) (w : Who) (e : Eff) : (s.complete d w e).mem = s.mem := by
  unfold State.complete
  split <;> simp

@[simp] theorem State.answerStatus_mem (s : State) (c : Nat) (x : Option (Who × BitVec 8 × Eff)) (st : Nat) :
    (s.answerStatus c x st).mem = s.mem := by
  unfold State.answerStatus
  split <;> simp

@[simp] theorem State.admitHeld_mem (s : State) (c : Nat) (fs : List MsgFlight) : (s.admitHeld c fs).mem = s.mem := by
  induction fs generalizing s with
  | nil => rfl
  | cons f fs ih =>
    unfold State.admitHeld
    dsimp only
    split
    · rw [ih, State.answerStatus_mem, State.setCore_mem]
    · rfl

@[simp] theorem State.arrive_mem (s : State) (f : MsgFlight) : (s.arrive f).mem = s.mem := by
  unfold State.arrive
  dsimp only
  repeat' split
  all_goals simp

theorem execMessageArrival_keeps (i : Nat) : Keeps (execMessageArrival i) := by
  refine keeps_answer _ fun s h => ?_
  repeat' split
  all_goals simp [h]

@[simp] theorem sendBody_mem (f : FmtR) (s : State) (e : Eff) : (sendBody f s e).Post fun t => t.mem = s.mem :=
  Chk.res_post fun _ _ => Res.post_ite (fun _ => by simp) fun _ => Res.post_ite (fun _ => by simp) fun _ => by simp

@[simp] theorem sendRBody_mem (f : FmtR) (s : State) (e : Eff) : (sendRBody f s e).Post fun t => t.mem = s.mem := by
  refine Chk.res_post fun t _ => Res.post_ite (fun _ => trivial) fun _ => Res.post_ite (fun _ => by simp) fun _ => ?_
  split
  · next h => simp [State.fillReg_mem _ _ _ _ _ _ _ h]
  · simp

theorem execRemoteFillArrival_keeps (i : Nat) : Keeps (execRemoteFillArrival i) := by
  refine keeps_answer _ fun s h => ?_
  split
  · exact h
  · next m _ =>
    refine ite_wf h (ite_wf ?_ ?_)
    · split
      · exact ite_wf (by simpa using h) h
      · exact h
    · split
      · next hf => simpa [State.fillReg_mem _ _ _ _ _ _ _ hf] using h
      · exact h

@[simp] theorem sendFarBody_mem (f : FmtR) (s : State) (e : Eff) : (sendFarBody f s e).Post fun t => t.mem = s.mem :=
  Chk.res_post fun _ _ => Res.post_ite (fun _ => trivial) fun _ => rfl

theorem execGatewayRelay_keeps (i : Nat) : Keeps (execGatewayRelay i) := by
  refine keeps_answer _ fun s h => ?_
  repeat' split
  all_goals simp [h]

@[simp] theorem State.takeMessage_mem (s : State) (c : Nat) (ms : List Msg) (ts : Nat) : (s.takeMessage c ms ts).mem = s.mem := by simp [State.takeMessage]

@[simp] theorem recvForm_mem (nw : Bool) (f : FmtR) (s : State) (e : Eff) : (recvForm nw f s e).Post fun t => t.mem = s.mem := by
  unfold recvForm
  dsimp only
  split
  · exact Chk.res_post fun _ _ => by simp
  · exact Res.post_ite (fun _ => rfl) fun _ => trivial

@[simp] theorem recvBody_mem (f : FmtR) (s : State) (e : Eff) : (recvBody f s e).Post fun t => t.mem = s.mem := by simp [recvBody]

@[simp] theorem recvNwBody_mem (f : FmtR) (s : State) (e : Eff) : (recvNwBody f s e).Post fun t => t.mem = s.mem := by simp [recvNwBody]

@[simp] theorem lbackBody_mem (f : FmtR) (s : State) (e : Eff) : (lbackBody f s e).Post fun t => t.mem = s.mem :=
  Res.post_ite (fun _ => trivial) fun _ => Chk.res_post fun _ _ => by simp

@[simp] theorem istatBody_mem (f : FmtR) (s : State) (e : Eff) : (istatBody f s e).Post fun t => t.mem = s.mem := by
  refine Chk.res_post fun _ _ => ?_
  simp

@[simp] theorem State.dequeStore_mem (s : State) (c pts : Nat) : (s.dequeStore c pts).1.mem = s.mem := by simp [State.dequeStore]

@[simp] theorem State.takeTop_mem (s : State) (c pts : Nat) : (s.takeTop c pts).1.mem = s.mem := by
  unfold State.takeTop
  dsimp only
  split <;> simp

@[simp] theorem State.popBottom_mem (s : State) (c pts : Nat) : (s.popBottom c pts).1.mem = s.mem := by simp [State.popBottom]

@[simp] theorem State.lookDeques_mem (s : State) (pts : Nat) (cs : List Nat) : (s.lookDeques pts cs).1.mem = s.mem := by
  induction cs generalizing s pts with
  | nil => rfl
  | cons c cs ih =>
    unfold State.lookDeques
    dsimp only
    split
    · simp
    · rw [ih, State.takeTop_mem]

@[simp] theorem State.serveTnext_mem (s : State) (c pts : Nat) (d : BitVec 8) : (s.serveTnext c pts d).1.mem = s.mem := by
  unfold State.serveTnext
  dsimp only
  repeat' split
  all_goals simp

@[simp] theorem State.serveSpawn_mem (s : State) (c pts : Nat) (child frame succ : Word) (d : BitVec 8) :
    (s.serveSpawn c pts child frame succ d).1.mem = s.mem := by
  unfold State.serveSpawn
  dsimp only
  split <;> simp

@[simp] theorem State.qTouch_wf {s : State} (a pts : Nat) (h : Memory.wf s.mem = true) : Memory.wf (s.qTouch a pts).1.mem = true :=
  State.homeWrite_wf _ _ _ _ _ h

@[simp] theorem State.serveQpub_wf {s : State} (w : Who) (hdr val : Word) (pri : Nat) (d : BitVec 8) (pts : Nat) (h : Memory.wf s.mem = true) :
    (s.serveQpub w hdr val pri d pts).Post fun r => Memory.wf r.1.mem = true := by
  refine Chk.bind_post fun a _ => ?_
  have ht := State.qTouch_wf a pts h
  generalize s.qCap a = cap
  generalize s.qTail a pri = t
  generalize s.qHead a pri = hd
  dsimp only
  split
  · exact ht
  · split
    · simpa using ht
    · split
      · exact ht
      · exact Chk.bind_post fun en _ => by simp [State.homeWrite_wf, h]

@[simp] theorem State.serveQclm_wf {s : State} (w : Who) (hdr : Word) (nw : Bool) (d : BitVec 8) (pts : Nat) (h : Memory.wf s.mem = true) :
    (s.serveQclm w hdr nw d pts).Post fun r => Memory.wf r.1.mem = true := by
  refine Chk.bind_post fun a _ => ?_
  dsimp only
  split
  · exact State.qTouch_wf a pts h
  · split
    · refine Chk.bind_post fun en _ => ?_
      simpa using State.homeWrite_wf _ _ _ _ _ (by simpa using h)
    · split
      · exact State.qTouch_wf a pts h
      · exact State.qTouch_wf a pts h

@[simp] theorem State.serveQstat_mem (s : State) (w : Who) (hdr : Word) (d : BitVec 8) (pts : Nat) :
    (s.serveQstat w hdr d pts).Post fun r => r.1.mem = s.mem :=
  Chk.bind_post fun _ _ => by simp

@[simp] theorem State.enqueue_mem (s : State) (fi : Nat) (r : QueueReq) : (s.enqueue fi r).mem = s.mem := rfl

/-- The state that a controller's service leaves is as `P` says. -/
def Served.Post (P : State → Prop) : Served → Prop
  | .answer s _ | .waits s | .onward s _ _ _ => P s
  | .again | .noRoom | .fault _ => True

theorem Chk.served_post {α : Type} {P : State → Prop} {Q : α → Prop} {c : Chk α} {f : α → Served} (hc : c.Post Q) (h : ∀ a, Q a → (f a).Post P) :
    (c.served f).Post P := by
  cases c with
  | ok a => exact h a hc
  | bad _ => trivial
  | wait _ => trivial

theorem State.lookOn_mem (s : State) (pts : Nat) (d : BitVec 8) (fold past : List Nat) :
    (s.lookOn pts d fold past).Post fun t => t.mem = s.mem := by
  unfold State.lookOn
  split <;> rfl

theorem State.serveLook_mem (s : State) (c pts : Nat) (d : BitVec 8) (fold past : List Nat) :
    (s.serveLook c pts d fold past).Post fun t => t.mem = s.mem := by
  unfold State.serveLook
  split
  · rfl
  all_goals
    dsimp only
    split
    · simp [Served.Post]
    · simpa using State.lookOn_mem (s.takeTop _ pts).1 ..

theorem State.serveOwn_mem (s : State) (c pts : Nat) (d : BitVec 8) : (s.serveOwn c pts d).Post fun t => t.mem = s.mem := by
  unfold State.serveOwn
  dsimp only
  split
  · simp [Served.Post]
  · simpa using State.lookOn_mem (s.popBottom c pts).1 ..

theorem Served.Post.mono {P Q : State → Prop} {r : Served} (h : r.Post P) (hpq : ∀ s, P s → Q s) : r.Post Q := by
  cases r with
  | answer s _ => exact hpq s h
  | waits s => exact hpq s h
  | onward s _ _ _ => exact hpq s h
  | again => trivial
  | noRoom => trivial
  | fault _ => trivial

/-- Serving a request at its controller keeps memory canonical (R302). -/
theorem State.serveQueue_wf {s : State} (w : Who) (c pts : Nat) (e : Eff) (op : QueueOp) (h : Memory.wf s.mem = true) :
    (s.serveQueue w c pts e op).Post fun t => Memory.wf t.mem = true := by
  have keep : ∀ t : State, t.mem = s.mem → Memory.wf t.mem = true := fun t ht => ht ▸ h
  cases op with
  | spawn child frame succ d => exact keep _ (State.serveSpawn_mem ..)
  | tnext d => exact (State.serveOwn_mem ..).mono keep
  | look d fold past => exact (State.serveLook_mem ..).mono keep
  | steal v d => exact keep _ (State.takeTop_mem ..)
  | qpub hdr val pri d => exact Chk.served_post (State.serveQpub_wf _ _ _ _ _ _ h) fun _ hr => hr
  | qstat hdr d => exact Chk.served_post (State.serveQstat_mem ..) fun _ hr => keep _ hr
  | qclm hdr nw d =>
    refine Chk.served_post (State.serveQclm_wf _ _ _ _ _ h) fun ⟨t, a, l⟩ hr => ?_
    cases a with
    | some a => exact hr
    | none =>
      dsimp only
      split
      · trivial
      · simpa [Served.Post] using hr

@[simp] theorem queueIssue_wf (fi : Nat) (op : QueueOp) {s : State} (e : Eff) (h : Memory.wf s.mem = true) :
    (queueIssue fi op s e).Post fun t => Memory.wf t.mem = true := by
  unfold queueIssue
  refine Res.post_ite (fun _ => by simp [h]) fun _ => Res.post_ite (fun _ => by simp [h]) fun _ => ?_
  have hp := State.serveQueue_wf (s := s.setFrom (fi / 128)) (s.setFrom (fi / 128)).cur (s.setFrom (fi / 128)).myCore
    (s.setFrom (fi / 128)).thread.pts e op (by simpa using h)
  dsimp only
  generalize (s.setFrom (fi / 128)).serveQueue _ _ _ e op = r at hp ⊢
  cases r with
  | answer t a => exact hp
  | waits t => simpa [Served.Post] using hp
  | onward t f op pts => simpa [Served.Post] using hp
  | again => simp [h]
  | noRoom => simp [h]
  | fault _ => trivial

theorem execQueueRequestService_keeps (f : Nat) : Keeps (execQueueRequestService f) := by
  refine keeps_answer _ fun s h => ?_
  dsimp only
  split
  · exact h
  · next r rs _ =>
    refine ite_wf (by simpa using h) ?_
    have hp := State.serveQueue_wf (s := s.setFold f { s.fold f with qctlQ := rs }) r.who
      ((s.setFold f { s.fold f with qctlQ := rs }).as r.who).myCore r.pts r.eff r.op (by simpa using h)
    generalize (s.setFold f { s.fold f with qctlQ := rs }).serveQueue r.who _ r.pts r.eff r.op = q at hp ⊢
    cases q with
    | answer t a => simpa [Served.Post] using hp
    | waits t => exact hp
    | onward t f op pts => simpa [Served.Post] using hp
    | again => simpa using h
    | noRoom => simpa using h
    | fault _ => exact State.fail_wf _ (by simpa using h)

@[simp] theorem spawnBody_wf (f : FmtR) {s : State} (e : Eff) (h : Memory.wf s.mem = true) :
    (spawnBody f s e).Post fun t => Memory.wf t.mem = true := by
  unfold spawnBody
  dsimp only
  repeat' split
  all_goals simp [h]

@[simp] theorem joinBody_wf (f : FmtR) {s : State} (e : Eff) (h : Memory.wf s.mem = true) :
    (joinBody f s e).Post fun t => Memory.wf t.mem = true := by
  refine Chk.res_post fun _ _ => ?_
  simp [h]

@[simp] theorem tnextBody_wf (f : FmtR) {s : State} (e : Eff) (h : Memory.wf s.mem = true) :
    (tnextBody f s e).Post fun t => Memory.wf t.mem = true := by
  unfold tnextBody
  repeat' split
  all_goals simp [h]

@[simp] theorem stealBody_wf (f : FmtR) {s : State} (e : Eff) (h : Memory.wf s.mem = true) :
    (stealBody f s e).Post fun t => Memory.wf t.mem = true := by
  unfold stealBody
  dsimp only
  split <;> simp [h]

@[simp] theorem qpubBody_wf (f : FmtR) {s : State} (e : Eff) (h : Memory.wf s.mem = true) :
    (qpubBody f s e).Post fun t => Memory.wf t.mem = true := by
  refine Chk.res_post fun _ _ => ?_
  simp [h]

@[simp] theorem qclmBody_wf (f : FmtR) {s : State} (e : Eff) (h : Memory.wf s.mem = true) :
    (qclmBody f s e).Post fun t => Memory.wf t.mem = true := by
  refine Chk.res_post fun _ _ => ?_
  simp [h]

@[simp] theorem qstatBody_wf (f : FmtR) {s : State} (e : Eff) (h : Memory.wf s.mem = true) :
    (qstatBody f s e).Post fun t => Memory.wf t.mem = true := by
  refine Chk.res_post fun _ _ => ?_
  simp [h]

@[simp] theorem State.gwStore_mem (s : State) (d pts : Nat) : (s.gwStore d pts).1.mem = s.mem := rfl

@[simp] theorem State.serveGw_mem (s : State) (d ts n : Nat) : (s.serveGw d ts n).mem = s.mem := by
  induction n generalizing s with
  | zero => rfl
  | succ n ih =>
    unfold State.serveGw
    dsimp only
    split
    · rw [ih, State.complete_mem, State.setDie_mem]
    · rfl

@[simp] theorem qpubGwBody_mem (f : FmtR) (s : State) (e : Eff) : (qpubGwBody f s e).Post fun t => t.mem = s.mem :=
  Chk.res_post fun _ _ => Res.post_ite (fun _ => by simp) fun _ => by simp

@[simp] theorem qclmGwBody_mem (f : FmtR) (s : State) (e : Eff) : (qclmGwBody f s e).Post fun t => t.mem = s.mem := by
  unfold qclmGwBody
  dsimp only
  repeat' split
  all_goals simp

@[simp] theorem qstatGwBody_mem (f : FmtR) (s : State) (e : Eff) : (qstatGwBody f s e).Post fun t => t.mem = s.mem := by
  refine Chk.res_post fun _ _ => ?_
  simp

@[simp] theorem State.setTree_mem (s : State) (t : Nat) (x : Tree) : (s.setTree t x).mem = s.mem := rfl

@[simp] theorem nredBody_mem (f : FmtR) (s : State) (e : Eff) : (nredBody f s e).Post fun t => t.mem = s.mem := by
  unfold nredBody
  dsimp only
  repeat' split
  all_goals simp

theorem execReductionCombine_keeps (t n : Nat) : Keeps (execReductionCombine t n) := by
  refine keeps_answer _ fun s h => ?_
  dsimp only
  repeat' split
  all_goals simp [h]

theorem execReductionTotalDelivery_keeps (t : Nat) : Keeps (execReductionTotalDelivery t) := by
  refine keeps_answer _ fun s h => ?_
  split
  · exact h
  · split
    · exact h
    · refine ite_wf (by simpa using h) ?_
      split
      · next hf => simpa [State.fillReg_mem _ _ _ _ _ _ _ hf] using h
      · exact h

@[simp] theorem lnchBody_wf (f : FmtR) {s : State} (e : Eff) (h : Memory.wf s.mem = true) : (lnchBody f s e).Post fun t => Memory.wf t.mem = true := by
  refine Res.post_ite (fun _ => trivial) fun _ => Res.post_ite (fun _ => trivial) fun _ => ?_
  refine Chk.res_post fun lb _ => Chk.res_post fun la _ => Chk.res_post fun ls _ => Res.post_ite (fun _ => ?_) fun _ => ?_
  · exact State.rmwAt_wf _ _ _ _ _ (by simpa using h)
  · exact State.storeAt_wf _ _ _ _ _ (State.rmwAt_wf _ _ _ _ _ (by simpa using h))

@[simp] theorem State.setPlat_mem (s : State) (l n : Nat) (r : Option Line) : (s.setPlat l n r).mem = s.mem := by
  unfold State.setPlat
  dsimp only
  split <;> simp

@[simp] theorem plsetBody_mem (f : FmtR) (s : State) (e : Eff) : (plsetBody f s e).Post fun t => t.mem = s.mem :=
  Chk.res_post fun _ _ => Res.post_ite (fun _ => trivial) fun _ => Chk.res_post fun _ _ =>
    Res.post_ite (fun _ => by simp) fun _ => Chk.res_post fun _ _ => by simp

@[simp] theorem plgetBody_mem (f : FmtR) (s : State) (e : Eff) : (plgetBody f s e).Post fun t => t.mem = s.mem :=
  Chk.res_post fun _ _ => Res.post_ite (fun _ => trivial) fun _ => rfl

@[simp] theorem plinvBody_mem (f : FmtR) (s : State) (e : Eff) : (plinvBody f s e).Post fun t => t.mem = s.mem :=
  Chk.res_post fun _ _ => Chk.res_post fun _ _ => by simp

@[simp] theorem htsetBody_mem (f : FmtR) (s : State) (e : Eff) : (htsetBody f s e).Post fun t => t.mem = s.mem := by
  refine Chk.res_post fun l _ => Res.post_ite (fun _ => rfl) fun _ => ?_
  split
  · rfl
  · exact Chk.res_post fun _ _ => by simp

@[simp] theorem trsetBody_mem (f : FmtR) (s : State) (e : Eff) : (trsetBody f s e).Post fun t => t.mem = s.mem := by
  refine Chk.res_post fun _ _ => Res.post_ite (fun _ => trivial) fun _ => Chk.res_post fun _ _ => ?_
  refine Res.post_ite (fun _ => by simp) fun _ => Chk.res_post fun _ _ => Res.post_ite (fun _ => by simp) fun _ => ?_
  exact Res.post_ite (fun _ => by simp) fun _ => Res.post_ite (fun _ => by simp) fun _ => Chk.res_post fun _ _ => by simp

@[simp] theorem trsetClrBody_mem (f : FmtR) (s : State) (e : Eff) : (trsetClrBody f s e).Post fun t => t.mem = s.mem := by
  refine Chk.res_post fun _ _ => ?_
  dsimp only
  split
  · exact Res.post_ite (fun _ => rfl) fun _ => Res.post_ite (fun _ => rfl) fun _ => Chk.res_post fun _ _ => rfl
  · rfl

@[simp] theorem State.translateFor_mem (s : State) (c sp root va : Nat) : (s.translateFor c sp root va).1.mem = s.mem := by
  unfold State.translateFor
  dsimp only
  repeat' split
  all_goals simp

@[simp] theorem xlatBody_mem (f : FmtR) (s : State) (e : Eff) : (xlatBody f s e).Post fun t => t.mem = s.mem := by
  unfold xlatBody
  dsimp only
  split
  · split
    · rfl
    · refine Res.post_ite (fun _ => rfl) fun _ => ?_
      generalize (if (s.tlbHit (s.tlbCore s.cur) (s.rs f.b).toNat (s.rs f.a).toNat).isSome then (none : Option Wait) else _) = m
      cases m with
      | some x => trivial
      | none => simp
  · exact Res.post_ite (fun _ => Chk.res_post fun _ _ => by simp) fun _ => rfl

@[simp] theorem State.nextWalk_mem (s : State) (p : Nat) : (s.nextWalk p).mem = s.mem := by
  unfold State.nextWalk
  repeat' split
  all_goals simp

@[simp] theorem State.dropTlbs_mem (s : State) (drop : TlbEnt → Bool) : (s.dropTlbs drop).mem = s.mem :=
  foldl_mem _ (fun s _ => State.nextWalk_mem s _) _ _

@[simp] theorem tlbinvDone_mem (f : FmtR) (drop : TlbEnt → Bool) (s : State) (e : Eff) :
    (tlbinvDone f drop s e).Post fun t => t.mem = s.mem := by
  unfold tlbinvDone
  dsimp only
  split <;> simp

@[simp] theorem tlbinvABody_mem (f : FmtR) (s : State) (e : Eff) : (tlbinvABody f s e).Post fun t => t.mem = s.mem := by
  unfold tlbinvABody
  split
  · rfl
  · exact Chk.res_post fun _ _ => tlbinvDone_mem ..

@[simp] theorem tlbinvLBody_mem (f : FmtR) (s : State) (e : Eff) : (tlbinvLBody f s e).Post fun t => t.mem = s.mem := by
  unfold tlbinvLBody
  split
  · rfl
  · exact Chk.res_post fun _ _ => tlbinvDone_mem ..

@[simp] theorem tlbinvGBody_mem (f : FmtR) (s : State) (e : Eff) : (tlbinvGBody f s e).Post fun t => t.mem = s.mem := by
  unfold tlbinvGBody
  split
  · rfl
  · exact Chk.res_post fun _ _ => tlbinvDone_mem ..

@[simp] theorem State.endWalk_mem (s : State) (d : Nat) (m : Miss) (va : Nat) : (s.endWalk d m va).mem = s.mem := by
  unfold State.endWalk
  dsimp only
  rw [State.nextWalk_mem, State.setDie_mem]
  split
  · exact State.touchWalk_mem ..
  · rw [foldl_mem _ fun s c => State.setCore_mem .., foldl_mem _ fun s w => by simp, State.touchWalk_mem]

@[simp] theorem State.aheadWalk_mem (s : State) (c va : Nat) : (s.aheadWalk c va).mem = s.mem := by
  unfold State.aheadWalk
  dsimp only
  repeat' split
  all_goals simp

theorem execTlbWalkCompletion_keeps (c : Nat) (va : Word) : Keeps (execTlbWalkCompletion c va) := by
  refine keeps_answer _ fun s h => ?_
  dsimp only
  repeat' split
  all_goals simp [h]

@[simp] theorem State.setModule_mem (s : State) (m : Nat) (x : Module) : (s.setModule m x).mem = s.mem := rfl

@[simp] theorem State.dropCode_mem (s : State) (base n : Nat) : (s.dropCode base n).mem = s.mem := rfl

@[simp] theorem modldForm_mem (dbg : Bool) (f : FmtR) (s : State) (e : Eff) : (modldForm dbg f s e).Post fun t => t.mem = s.mem := by
  refine Chk.res_post fun ls _ => ?_
  dsimp only
  split
  · simp
  · refine Chk.res_post fun ld _ => ?_
    rw [doneS_post, apply_ite State.mem]
    simp

@[simp] theorem modldBody_mem (f : FmtR) (s : State) (e : Eff) : (modldBody f s e).Post fun t => t.mem = s.mem := by simp [modldBody]

@[simp] theorem modldDbgBody_mem (f : FmtR) (s : State) (e : Eff) : (modldDbgBody f s e).Post fun t => t.mem = s.mem := by simp [modldDbgBody]

@[simp] theorem modulBody_mem (f : FmtR) (s : State) (e : Eff) : (modulBody f s e).Post fun t => t.mem = s.mem := by
  unfold modulBody
  dsimp only
  split <;> simp

@[simp] theorem State.answerModul_mem (s : State) (m : Nat) : (s.answerModul m).mem = s.mem :=
  foldl_mem _ (fun _ _ => by simp) _ s

theorem execModuleFree_keeps (m : Nat) : Keeps (execModuleFree m) := by
  refine keeps_answer _ fun s h => ?_
  dsimp only
  split <;> simp [h]

@[simp] theorem State.setBarrier_mem (s : State) (l b : Nat) (x : Barrier) : (s.setBarrier l b x).mem = s.mem := by
  unfold State.setBarrier
  split <;> simp

@[simp] theorem State.answerBar_mem (s : State) (l : Nat) (w : BarWait) (e : Eff) : (s.answerBar l w e).mem = s.mem := by simp [State.answerBar]

@[simp] theorem State.serveLate_mem (s : State) (l b t0 n : Nat) : (s.serveLate l b t0 n).mem = s.mem := by
  induction n generalizing s with
  | zero => rfl
  | succ n ih =>
    unfold State.serveLate
    dsimp only
    split
    · rfl
    · rw [ih, State.answerBar_mem, State.setBarrier_mem]

@[simp] theorem State.serveBarrier_mem (s : State) (l b t0 : Nat) : (s.serveBarrier l b t0).mem = s.mem := by
  unfold State.serveBarrier
  dsimp only
  rw [foldl_mem _ fun s w => State.answerBar_mem .., State.setBarrier_mem, State.serveLate_mem]

@[simp] theorem baraBody_mem (f : FmtR) (s : State) (e : Eff) : (baraBody f s e).Post fun t => t.mem = s.mem := by
  refine Chk.res_post fun ⟨l, y, b, x⟩ _ => ?_
  dsimp only
  split
  · trivial
  · exact Res.post_ite (fun _ => by simp) fun _ => by simp

@[simp] theorem baraJoinBody_mem (f : FmtR) (s : State) (e : Eff) : (baraJoinBody f s e).Post fun t => t.mem = s.mem := by
  refine Chk.res_post fun ⟨l, y, b, x⟩ _ => ?_
  dsimp only
  split <;> simp

@[simp] theorem baraLeaveBody_mem (f : FmtR) (s : State) (e : Eff) : (baraLeaveBody f s e).Post fun t => t.mem = s.mem := by
  refine Chk.res_post fun ⟨l, y, b, x⟩ _ => ?_
  dsimp only
  split <;> simp

@[simp] theorem barwBody_mem (f : FmtR) (s : State) (e : Eff) : (barwBody f s e).Post fun t => t.mem = s.mem :=
  Chk.res_post fun ⟨_, _, _, _⟩ _ => Res.post_ite (fun _ => by simp) fun _ => by simp

@[simp] theorem barqBody_mem (f : FmtR) (s : State) (e : Eff) : (barqBody f s e).Post fun t => t.mem = s.mem :=
  Chk.res_post fun ⟨_, _, _, _⟩ _ => Chk.res_post fun _ _ => by simp

@[simp] theorem ctrselBody_mem (f : FmtR) (s : State) (e : Eff) : (ctrselBody f s e).Post fun t => t.mem = s.mem := by
  unfold ctrselBody
  dsimp only
  split <;> simp

@[simp] theorem ctrrdBody_mem (f : FmtR) (s : State) (e : Eff) : (ctrrdBody f s e).Post fun t => t.mem = s.mem := rfl

@[simp] theorem timsetBody_mem (f : FmtR) (s : State) (e : Eff) : (timsetBody f s e).Post fun t => t.mem = s.mem :=
  Res.post_ite (fun _ => trivial) fun _ => Res.post_ite (fun _ => trivial) fun _ => Res.post_ite (fun _ => trivial) fun _ =>
    Chk.res_post fun _ _ => by simp

theorem execTimerExpiry_keeps (c : Nat) : Keeps (execTimerExpiry c) := by
  refine keeps_answer _ fun s h => ?_
  split <;> simp [h]

@[simp] theorem tstmpBody_mem (f : FmtR) (s : State) (e : Eff) : (tstmpBody f s e).Post fun t => t.mem = s.mem := rfl

@[simp] theorem clkrdBody_mem (f : FmtR) (s : State) (e : Eff) : (clkrdBody f s e).Post fun t => t.mem = s.mem := rfl

end Sys2Proof.Machine
end

section
/-! SUPPORT. What saved cores, launches, the resident, the host and boot do to memory. -/

namespace Sys2Proof.Machine

@[simp] theorem State.sramFix_mem (s : State) (a : Nat) : (s.sramFix a).mem = s.mem := by
  unfold State.sramFix
  split <;> simp

@[simp] theorem State.takeFix_mem (s : State) : s.takeFix.mem = s.mem := by
  unfold State.takeFix
  split <;> simp

@[simp] theorem State.reportDue_mem (s : State) : s.reportDue.mem = s.mem := rfl

@[simp] theorem State.tick_mem (s : State) : s.tick.mem = s.mem := by simp [State.tick]

@[simp] theorem State.settleStreams_wf {s : State} (c k : Nat) (h : Memory.wf s.mem = true) : Memory.wf (s.settleStreams c k).mem = true := by
  refine foldl_wf (fun t p ht => ?_) _ h
  split
  · exact State.writeAll_wf _ _ _ _ ht
  · dsimp only
    split
    · simpa using ht
    · exact ht
  · exact ht

@[simp] theorem State.spillHeld_mem (s : State) (c : Nat) : (s.spillHeld c).mem = s.mem := by
  unfold State.spillHeld
  dsimp only
  rw [foldl_mem _ fun s f => State.answerStatus_mem .., State.setCore_mem]

@[simp] theorem State.saveCore_wf {s : State} (c : Nat) (h : Memory.wf s.mem = true) : Memory.wf (s.saveCore c).mem = true := by
  have hf : Memory.wf ((List.range 16).foldl (fun s k => (s.settleStreams c k).dropFollowers c k) s).mem = true :=
    foldl_wf (fun t k ht => by simp [ht]) _ h
  unfold State.saveCore
  generalize (List.range 16).foldl (fun s k => (s.settleStreams c k).dropFollowers c k) s = t at hf ⊢
  simp [hf]

@[simp] theorem State.unbreak_mem (s : State) (c : Nat) : (s.unbreak c).mem = s.mem := by
  refine foldl_mem _ (fun t k => ?_) _ s
  split
  · exact State.returnSlot_mem ..
  · rfl

@[simp] theorem State.takeExceptions_mem (s : State) (c : Nat) : (s.takeExceptions c).mem = s.mem := rfl

@[simp] theorem State.resumeCore_mem (s : State) (c : Nat) : (s.resumeCore c).mem = s.mem := by
  unfold State.resumeCore
  dsimp only
  split <;> simp

@[simp] theorem State.rename_mem (s : State) (f g : Nat → Nat) : (s.rename f g).mem = s.mem := rfl

/-- Cores put in place, as a relocated launch's are, leave memory (R381). -/
theorem foldl_setCores_mem (l : List (Nat × Core)) (s : State) : (l.foldl (fun s x => s.setCore x.1 x.2) s).mem = s.mem :=
  foldl_mem _ (fun _ _ => State.setCore_mem ..) l s

@[simp] theorem State.release_mem (s : State) (n : Nat) : (s.release n).mem = s.mem := by
  unfold State.release
  split
  · rfl
  · dsimp only
    rw [State.setLaunch_mem]
    dsimp only
    rw [foldl_mem _ fun s f => by simp, foldl_setCores_mem, State.rename_mem]

@[simp] theorem State.stopCores_mem (s : State) (cs : List Nat) : (s.stopCores cs).mem = s.mem := foldl_mem _ (fun _ _ => State.setCore_mem ..) cs s

@[simp] theorem prmtBody_wf (f : FmtR) {s : State} (e : Eff) (h : Memory.wf s.mem = true) :
    (prmtBody f s e).Post fun t => Memory.wf t.mem = true := by
  unfold prmtBody
  repeat' split
  all_goals simp [h]

@[simp] theorem awaitStatus_mem (s : State) (e : Eff) (d : BitVec 8) (n : Nat) (w : Wait) :
    (awaitStatus s e d n w).Post fun t => t.mem = s.mem := by simp [awaitStatus]

@[simp] theorem prmtLBody_wf (f : FmtR) {s : State} (e : Eff) (h : Memory.wf s.mem = true) :
    (prmtLBody f s e).Post fun t => Memory.wf t.mem = true := by
  have hsave (cs : List Nat) : Memory.wf (cs.foldl State.saveCore s).mem = true := foldl_wf (fun t c => State.saveCore_wf c) cs h
  have hspill (cs : List Nat) : Memory.wf (cs.foldl State.spillHeld s).mem = true := by
    rw [foldl_mem _ State.spillHeld_mem]
    exact h
  have hsaved (cs : List Nat) (t : State) : (cs.foldl (fun s c => s.setCore c { s.core c with saved := true }) t).mem = t.mem :=
    foldl_mem _ (fun _ _ => State.setCore_mem ..) cs t
  unfold prmtLBody
  dsimp only
  split
  · exact h
  · split
    · exact (awaitStatus_mem s ..).mono fun t ht => (congrArg Memory.wf ht).trans h
    · exact h
    · refine Res.post_ite (fun _ => (awaitStatus_mem s ..).mono fun t ht => (congrArg Memory.wf ht).trans h) fun _ => Res.post_ite (fun _ => ?_) fun _ => ?_
      · rw [doneS_post]
        refine ite_wf ?_ ?_
        · rw [State.release_mem, State.setLaunch_mem, hsaved]
          exact hsave _
        · rw [State.setLaunch_mem, hsaved]
          exact hsave _
      · rw [Res.post_sent, State.stopCores_mem]
        exact ite_wf (hspill _) (hsave _)
    · exact h

@[simp] theorem resmBody_mem (f : FmtR) (s : State) (e : Eff) : (resmBody f s e).Post fun t => t.mem = s.mem := by
  unfold resmBody
  dsimp only
  repeat' split
  all_goals simp

@[simp] theorem resmLBody_mem (f : FmtR) (s : State) (e : Eff) : (resmLBody f s e).Post fun t => t.mem = s.mem := by
  unfold resmLBody
  dsimp only
  split
  · rfl
  · refine Res.post_ite (fun _ => rfl) fun _ => Res.post_ite (fun _ => rfl) fun _ => ?_
    split
    · rw [doneS_post, State.setLaunch_mem, foldl_mem _ State.resumeCore_mem]
    · exact (awaitStatus_mem ..).mono fun t ht => ht.trans (State.setLaunch_mem ..)

@[simp] theorem State.enterExceptions_mem (s : State) (c : Nat) (rs : List FaultRec) : (s.enterExceptions c rs).mem = s.mem := by
  induction rs generalizing s with
  | nil => rfl
  | cons r rs ih =>
    unfold State.enterExceptions
    split
    · exact ih _
    · rfl

theorem execShepherdFaultEscalation_keeps (c : Nat) : Keeps (execShepherdFaultEscalation c) := by
  refine keeps_answer _ fun s h => ?_
  dsimp only
  repeat' split
  all_goals simp [h]

theorem State.storeWord_wf {s : State} (n root va v ts : Nat) (h : Memory.wf s.mem = true) :
    ∀ t ∈ s.storeWord n root va v ts, Memory.wf t.mem = true := by
  intro t ht
  unfold State.storeWord at ht
  dsimp only at ht
  split at ht
  · split at ht
    · cases ht
      exact State.homeWrite_wf _ _ _ _ _ h
    · cases ht
  · split at ht
    · cases ht
    · split at ht
      · cases ht
      · cases ht
        exact State.homeWrite_wf _ _ _ _ _ h

@[simp] theorem State.completeLaunch_wf {s : State} (n : Nat) (l : Launch) (st : BitVec 8) (ts : Nat) (h : Memory.wf s.mem = true) :
    Memory.wf (s.completeLaunch n l st ts).mem = true := by
  refine State.homeWrite_wf _ _ _ _ _ (ite_wf h ?_)
  split
  · next hw => exact State.storeWord_wf _ _ _ _ _ h _ hw
  · exact h

@[simp] theorem State.unuse_mem (s : State) (m : Option Nat) : (s.unuse m).mem = s.mem := by
  unfold State.unuse
  split <;> simp

theorem execLaunchRecordTake_keeps (i : Nat) : Keeps (execLaunchRecordTake i) := by
  refine keeps_answer _ fun s h => ?_
  split
  · exact h
  · next r _ =>
    refine ite_wf h (ite_wf h ?_)
    refine ite_wf ?_ ?_
    · rw [State.setLaunch_mem]
      apply State.completeLaunch_wf
      dsimp only
      apply State.homeWrite_wf
      exact State.homeWrite_wf _ _ _ _ _ h
    · split
      · rw [State.setLaunch_mem, State.setModule_mem]
        dsimp only
        apply State.homeWrite_wf
        exact State.homeWrite_wf _ _ _ _ _ h
      · rw [State.setLaunch_mem]
        dsimp only
        apply State.homeWrite_wf
        exact State.homeWrite_wf _ _ _ _ _ h

theorem execLaunchPriorityRaise_keeps (n : Nat) : Keeps (execLaunchPriorityRaise n) := by
  refine keeps_answer _ fun s h => ?_
  repeat' split
  all_goals simp [h]

@[simp] theorem State.placeFold_mem (s : State) (n : Nat) (l : Launch) (f : Nat) : (s.placeFold n l f).mem = s.mem := by simp [State.placeFold]

@[simp] theorem State.placeMap_mem (s : State) (n : Nat) (l : Launch) (tab i : Nat) : (s.placeMap n l tab i).mem = s.mem := by
  unfold State.placeMap
  dsimp only
  repeat' split
  all_goals simp

@[simp] theorem State.placeFresh_wf {s : State} (n : Nat) (l : Launch) (h : Memory.wf s.mem = true) : Memory.wf (s.placeFresh n l).mem = true := by
  unfold State.placeFresh
  dsimp only
  rw [foldl_mem _ fun s i => State.placeMap_mem .., State.startCursors_mem, foldl_mem _ fun s k => State.setCore_mem ..]
  refine State.writeLines_wf _ _ _ _ ?_
  rw [foldl_mem _ fun s f => State.placeFold_mem .., State.setLaunch_mem]
  exact h

@[simp] theorem State.placeAgain_mem (s : State) (n : Nat) (l : Launch) (was : List Nat) : (s.placeAgain n l was).mem = s.mem := by
  unfold State.placeAgain
  dsimp only
  rw [foldl_mem _ State.resumeCore_mem, State.setLaunch_mem, foldl_mem _ State.takeExceptions_mem, foldl_mem _ fun s x => State.setCore_mem ..,
    State.rename_mem]
  dsimp only
  rw [foldl_mem _ fun s f => by simp]

theorem execLaunchPlacement_keeps (n : Nat) : Keeps (execLaunchPlacement n) := by
  refine keeps_answer _ fun s h => ?_
  split
  · exact h
  · next l _ =>
    refine ite_wf h ?_
    have hg (got : List Nat) : Memory.wf (got.foldl (fun s f => s.setFold f { s.fold f with launch := some n }) s).mem = true := by
      rw [foldl_mem _ fun s f => State.setFold_mem ..]
      exact h
    refine ite_wf ?_ ?_
    · rw [State.setLaunch_mem]
      exact hg _
    · dsimp only
      split
      · exact State.placeFresh_wf _ _ (hg _)
      · rw [State.placeAgain_mem]
        exact hg _

@[simp] theorem State.dropFlights_mem (s : State) (cs : List Nat) : (s.dropFlights cs).mem = s.mem := by
  unfold State.dropFlights
  dsimp only
  rw [foldl_mem _ fun s m => by split <;> simp, foldl_mem _ fun s m => by rw [State.setCore_mem]; split <;> simp]

theorem foldl_freed_mem (cs : List Nat) (s : State) : (cs.foldl (fun s c => s.setCore c (s.core c).freed) s).mem = s.mem := foldl_mem _ (fun _ _ => State.setCore_mem ..) cs s

@[simp] theorem State.scrub_wf {s : State} (n : Nat) (l : Launch) (h : Memory.wf s.mem = true) : Memory.wf (s.scrub n l).mem = true := by
  have hn := State.freeNear_wf n h
  unfold State.scrub
  dsimp only
  rw [apply_ite State.mem]
  dsimp only
  rw [ite_self, foldl_freed_mem, foldl_mem _ fun s f => State.setFold_mem .., foldl_mem _ fun s f => by simp]
  dsimp only
  rw [State.dropTlbs_mem, State.reportDue_mem, State.dropFlights_mem]
  exact hn

@[simp] theorem State.finishLaunch_wf {s : State} (n : Nat) (st : BitVec 8) (h : Memory.wf s.mem = true) : Memory.wf (s.finishLaunch n st).mem = true := by
  unfold State.finishLaunch
  split
  · exact h
  · dsimp only
    rw [State.setLaunch_mem, State.unuse_mem]
    exact State.scrub_wf _ _ (State.completeLaunch_wf _ _ _ _ (State.parkAll_wf _ _ h))

theorem execLaunchRetirement_keeps (n : Nat) : Keeps (execLaunchRetirement n) := by
  refine keeps_answer _ fun s h => ?_
  dsimp only
  repeat' split
  all_goals simp [h]

@[simp] theorem State.abandonWork_wf {s : State} (n : Nat) (l : Launch) (h : Memory.wf s.mem = true) : Memory.wf (s.abandonWork n l).mem = true := by
  unfold State.abandonWork
  dsimp only
  rw [foldl_mem _ fun s f => State.setFold_mem ..]
  dsimp only
  rw [State.setLaunch_mem]
  refine State.freeNear_wf n ?_
  rw [foldl_mem _ fun s c => State.setCore_mem ..]
  exact h

@[simp] theorem State.abortLaunch_wf {s : State} (n : Nat) (st : BitVec 8) (h : Memory.wf s.mem = true) :
    Memory.wf (s.abortLaunch n st).mem = true := by
  unfold State.abortLaunch
  dsimp only
  repeat' split
  all_goals simp [h]

theorem execLaunchAbort_keeps (n : Nat) (st : BitVec 8) : Keeps (execLaunchAbort n st) := by
  refine keeps_answer _ fun s h => ?_
  simp [h]

@[simp] theorem trapBody_mem (f : FmtR) (s : State) (_e : Eff) : (trapBody f s _e).Post fun t => t.mem = s.mem := by simp [trapBody]

@[simp] theorem brkpBody_mem (f : FmtR) (s : State) (e : Eff) : (brkpBody f s e).Post fun t => t.mem = s.mem := trivial

@[simp] theorem syscBody_mem (f : FmtR) (s : State) (e : Eff) : (syscBody f s e).Post fun t => t.mem = s.mem := by
  unfold syscBody
  split <;> simp

@[simp] theorem fltrdForm_mem (peek : Bool) (f : FmtR) (s : State) (e : Eff) : (fltrdForm peek f s e).Post fun t => t.mem = s.mem := by
  unfold fltrdForm
  dsimp only
  split
  · generalize (s.core _).frq = q
    refine Res.post_ite (fun _ => trivial) fun _ => Chk.res_post fun _ _ => Res.post_ite (fun _ => by simp) fun _ => ?_
    exact Chk.res_post fun _ _ => by simp
  · rfl

@[simp] theorem fltrdBody_mem (f : FmtR) (s : State) (e : Eff) : (fltrdBody f s e).Post fun t => t.mem = s.mem := by simp [fltrdBody]

@[simp] theorem fltrdPeekBody_mem (f : FmtR) (s : State) (e : Eff) : (fltrdPeekBody f s e).Post fun t => t.mem = s.mem := by simp [fltrdPeekBody]

@[simp] theorem State.dropCopies_mem (s : State) (p : Nat) : (s.dropCopies p).mem = s.mem := rfl

theorem State.takePage_wf {s : State} (ts : Nat) (h : Memory.wf s.mem = true) : ∀ r ∈ s.takePage ts, Memory.wf r.1.mem = true := by
  intro r hr
  unfold State.takePage at hr
  obtain ⟨p, -, rfl⟩ := Option.mem_map.mp hr
  exact State.writeLines_wf _ _ _ _ h

/-- A fold that carries a state and a clock keeps what each of its steps keeps. -/
theorem foldl_fst_keeps {α β : Type} (P : State → Prop) (f : State × β → α → State × β) (hf : ∀ r x, P r.1 → P (f r x).1) (l : List α)
    {r : State × β} (h : P r.1) : P (l.foldl f r).1 := by
  induction l generalizing r with
  | nil => exact h
  | cons x l ih => exact ih (hf r x h)

@[simp] theorem State.readWalk_mem (s : State) (root va ts : Nat) : (s.readWalk root va ts).1.mem = s.mem := by
  refine foldl_fst_keeps (fun t => t.mem = s.mem) _ (fun r a hr => ?_) _ rfl
  exact (State.homeRead_mem ..).trans hr

@[simp] theorem State.readWalks_mem (s : State) (root ts : Nat) (ps : List Nat) : (s.readWalks root ts ps).1.mem = s.mem :=
  foldl_fst_keeps (fun t => t.mem = s.mem) _ (fun r _ hr => (State.readWalk_mem ..).trans hr) _ rfl

@[simp] theorem State.putPte_wf {s : State} (pa v ts : Nat) (h : Memory.wf s.mem = true) : Memory.wf (s.putPte pa v ts).1.mem = true :=
  State.homeWrite_wf _ _ _ _ _ h

theorem State.mapAt_wf {s : State} (va ts level table : Nat) (h : Memory.wf s.mem = true) : ∀ r ∈ s.mapAt va ts level table, Memory.wf r.1.mem = true := by
  induction level generalizing s ts table with
  | zero =>
    intro r hr
    obtain ⟨q, hq, rfl⟩ := Option.mem_map.mp hr
    exact State.putPte_wf _ _ _ (State.takePage_wf ts h q hq)
  | succ l ih =>
    intro r hr
    unfold State.mapAt at hr
    dsimp only at hr
    split at hr
    · exact ih ts _ h r hr
    · split at hr
      · cases hr
      · next q hq => exact ih _ _ (State.putPte_wf _ _ _ (State.takePage_wf ts h q hq)) r hr

theorem State.mapRange_wf {s : State} (root ts : Nat) (ps : List Nat) (h : Memory.wf s.mem = true) :
    ∀ r ∈ s.mapRange root ts ps, Memory.wf r.1.mem = true := by
  induction ps generalizing s ts with
  | nil => rintro _ ⟨⟩; exact h
  | cons p ps ih =>
    intro r hr
    unfold State.mapRange at hr
    split at hr
    · exact ih ts h r hr
    · split at hr
      · next q hq => exact ih _ (State.mapAt_wf _ _ _ _ h q hq) r hr
      · cases hr

@[simp] theorem State.residentMap_wf {s : State} (root a n ts : Nat) (h : Memory.wf s.mem = true) : Memory.wf (s.residentMap root a n ts).1.mem = true := by
  unfold State.residentMap
  split
  · exact h
  · next ps _ =>
    have hq : Memory.wf (s.readWalks root ts ps).1.mem = true := by simpa using h
    dsimp only
    split
    · exact hq
    · split
      · next r hr => exact State.mapRange_wf _ _ _ hq r hr
      · exact hq

@[simp] theorem State.residentUnmap_wf {s : State} (space root a n ts : Nat) (h : Memory.wf s.mem = true) :
    Memory.wf (s.residentUnmap space root a n ts).1.mem = true := by
  unfold State.residentUnmap
  split
  · exact h
  · next ps _ =>
    have hq : Memory.wf (s.readWalks root ts ps).1.mem = true := by simpa using h
    dsimp only
    split
    · exact hq
    · rw [State.dropTlbs_mem]
      refine foldl_fst_keeps (fun t => Memory.wf t.mem = true) _ (fun r x hr => ?_) _ hq
      split
      · exact State.putPte_wf _ _ _ hr
      · exact hr

@[simp] theorem State.residentPlaces_mem (s : State) (c k va n : Nat) (acc : Acc) (lines : Nat) :
    (s.residentPlaces c k va n acc lines).1.mem = s.mem := by
  induction lines generalizing s va n with
  | zero => rfl
  | succ m ih =>
    unfold State.residentPlaces
    split
    · rfl
    · dsimp only
      split <;> simp [ih]

@[simp] theorem State.residentLoads_mem (s : State) (ts : Nat) (ls : List (Nat × Loc)) : (s.residentLoads ts ls).1.mem = s.mem := by
  induction ls generalizing s ts with
  | nil => rfl
  | cons x ls ih => simp [State.residentLoads, ih]

@[simp] theorem State.residentPut_wf {s : State} (ts : Nat) (ls : List (Nat × Loc)) (v : Nat) (h : Memory.wf s.mem = true) :
    Memory.wf (s.residentPut ts ls v).1.mem = true := by
  induction ls generalizing s ts v with
  | nil => exact h
  | cons x ls ih => exact ih _ _ (State.homeWrite_wf _ _ _ _ _ h)

@[simp] theorem State.residentAttest_wf {s : State} (c k a b ts : Nat) (h : Memory.wf s.mem = true) :
    Memory.wf (s.residentAttest c k a b ts).1.mem = true := by
  unfold State.residentAttest
  dsimp only
  repeat' split
  all_goals simp [h]

@[simp] theorem State.residentLog_mem (s : State) (n c k a len ts : Nat) : (s.residentLog n c k a len ts).1.mem = s.mem := by
  unfold State.residentLog
  dsimp only
  repeat' split
  all_goals simp

@[simp] theorem State.residentCall_wf {s : State} (r : SysReq) (ts : Nat) (h : Memory.wf s.mem = true) :
    Memory.wf (s.residentCall r ts).1.mem = true := by
  unfold State.residentCall
  dsimp only
  repeat' split
  all_goals simp [h]

@[simp] theorem State.takeSysc_mem (s : State) (r : SysReq) : (s.takeSysc r).mem = s.mem := rfl

@[simp] theorem State.setResidentPts_mem (s : State) (ts : Nat) : (s.setResidentPts ts).mem = s.mem := rfl

@[simp] theorem State.replySysc_mem (s : State) (r : SysReq) (v : Word) (ts : Nat) (pages : List Nat) :
    (s.replySysc r v ts pages).mem = s.mem := by simp [State.replySysc]

theorem execSyscReply_keeps (i : Nat) : Keeps (execSyscReply i) := by
  refine keeps_answer _ fun s h => ?_
  dsimp only
  repeat' split
  all_goals simp [h]

@[simp] theorem State.logAer_mem (s : State) : s.logAer.mem = s.mem := rfl

@[simp] theorem State.hostStore_wf {s : State} (off n v : Nat) (h : Memory.wf s.mem = true) : Memory.wf (s.hostStore off n v).mem = true := by
  unfold State.hostStore
  split
  · exact h
  · exact State.homeWrite_wf _ _ _ _ _ h

@[simp] theorem State.hostLoad_mem (s : State) (off n : Nat) : (s.hostLoad off n).1.mem = s.mem := by
  cases h : s.hostPa off <;> simp [State.hostLoad, h]

@[simp] theorem State.holdHost_mem (s : State) (a : HostAcc) : (s.holdHost a).mem = s.mem := rfl

theorem execHostWrite_keeps (off : Nat) (bytes : List Byte) : Keeps (execHostWrite off bytes) :=
  keeps_answer _ fun _ h => ite_wf h (foldl_wf (fun _ _ ht => State.hostStore_wf _ _ _ ht) _ h)

theorem execHostRead_keeps (off n : Nat) : Keeps (execHostRead off n) := by
  refine keeps_answer _ fun s h => ite_wf (by simpa using h) ?_
  dsimp only
  refine foldl_fst_keeps (fun t => Memory.wf t.mem = true) _ (fun r p hr => ?_) _ h
  simpa using hr

@[simp] theorem State.setWinbase_mem (s : State) (v : Word) : (s.setWinbase v).mem = s.mem := by
  unfold State.setWinbase
  dsimp only
  split <;> simp

theorem execWinbaseWrite_keeps (v : BitVec 64) : Keeps (execWinbaseWrite v) := by
  refine keeps_answer _ fun s h => ?_
  simp [h]

theorem execRegisterBarWrite_keeps (off : Nat) (v : BitVec 64) : Keeps (execRegisterBarWrite off v) := by
  refine keeps_answer _ fun s h => ?_
  split <;> simp [h]

@[simp] theorem State.hardReset_wf {s : State} (h : Memory.wf s.mem = true) : Memory.wf s.hardReset.mem = true := by simp [State.hardReset, h]

@[simp] theorem State.mapBanks_mem (s : State) : s.mapBanks.mem = s.mem := foldl_mem _ (fun _ _ => State.setCore_mem ..) _ s

@[simp] theorem State.markRings_wf {s : State} (rs : List Ring) (h : Memory.wf s.mem = true) : Memory.wf (s.markRings rs).mem = true :=
  foldl_wf (fun _ _ ht => State.homeWrite_wf _ _ _ _ _ ht) rs h

@[simp] theorem State.bootResident_wf {s : State} (h : Memory.wf s.mem = true) : Memory.wf s.bootResident.mem = true := by
  unfold State.bootResident
  split <;> simp [h]

@[simp] theorem State.boot_wf {s : State} (h : Memory.wf s.mem = true) : Memory.wf s.boot.mem = true := by
  unfold State.boot
  dsimp only
  repeat' split
  all_goals simp [h]

@[simp] theorem State.writeConfs_mem (s : State) : s.writeConfs.mem = s.mem := rfl

theorem execDeviceReset_keeps : Keeps execDeviceReset := by
  refine keeps_answer _ fun s h => ?_
  simp [h]

theorem execLinkBringup_keeps (port : Nat) : Keeps (execLinkBringup port) := by
  refine keeps_answer _ fun s h => ?_
  simp [h]

theorem execLinkLaneFailure_keeps (port lane : Nat) : Keeps (execLinkLaneFailure port lane) := by
  refine keeps_answer _ fun s h => ?_
  split <;> simp [h]

theorem execLinkRequestRetry_keeps (i : Nat) : Keeps (execLinkRequestRetry i) := by
  refine keeps_answer _ fun s h => ?_
  repeat' split
  all_goals simp [h]

theorem execUncorrectableDataError_keeps (ln : Nat) : Keeps (execUncorrectableDataError ln) :=
  keeps_answer _ fun _ h => ite_wf (foldl_wf (fun _ _ ht => State.abortLaunch_wf _ _ ht) _ h) (ite_wf h h)

theorem execHbmRowSpare_keeps (ch row : Nat) : Keeps (execHbmRowSpare ch row) := by
  refine keeps_answer _ fun s h => ?_
  dsimp only
  split <;> simp [h]

theorem execHbmLaneSpare_keeps (ch : Nat) : Keeps (execHbmLaneSpare ch) := by
  refine keeps_answer _ fun s h => ?_
  dsimp only
  split <;> simp [h]

theorem execSramRowSpare_keeps (a : Nat) : Keeps (execSramRowSpare a) := by
  refine keeps_answer _ fun s h => ?_
  simp [h]

theorem execSpareMapping_keeps (c : Nat) : Keeps (execSpareMapping c) := by
  refine keeps_answer _ fun s h => ?_
  dsimp only
  split <;> simp [h]

theorem execLiveFirmwareUpdate_keeps (image : BitVec 512) (keyid : Nat) (sigOk : Bool) :
    Keeps (execLiveFirmwareUpdate image keyid sigOk) := by
  refine keeps_answer _ fun s h => ?_
  dsimp only
  split <;> simp [h]

@[simp] theorem State.abortAll_wf {s : State} (h : Memory.wf s.mem = true) : Memory.wf s.abortAll.mem = true :=
  foldl_wf (fun _ _ ht => State.abortLaunch_wf _ _ ht) _ h

theorem execModuleRemoval_keeps : Keeps execModuleRemoval := by
  refine keeps_answer _ fun s h => ?_
  dsimp only
  split <;> simp [h]

theorem execOverTemperature_keeps : Keeps execOverTemperature := by
  refine keeps_answer _ fun s h => ?_
  dsimp only
  split <;> simp [h]

theorem execReplyArrival_keeps (w : Who) : Keeps (execReplyArrival w) := by
  refine keeps_answer _ fun s h => ?_
  dsimp only
  repeat' split
  all_goals simp [h]

@[simp] theorem State.nextRound_wf {s : State} (h : Memory.wf s.mem = true) : Memory.wf s.nextRound.mem = true := by
  unfold State.nextRound
  split <;> simp [h]

end Sys2Proof.Machine
end

section
/-! SUPPORT. Every step keeps memory canonical. -/

namespace Sys2Proof.Machine

theorem meaning_keeps_of_pair {i : Instr} {body : State → Eff → Res} (w : Option Wait) (h : pairBody i = some body) : Keeps (meaning i w body) :=
  meaning_keeps fun _ e hs => pairBody_wf h e hs

/-- Every row of the opcode table, instruction or event, keeps memory canonical. -/
theorem exec_keeps (i : Instr) : Keeps (exec i) := by
  cases i
  case br f => exact meaning_keeps fun _ _ h => takeLinear_wf _ _ h
  case call f => exact meaning_keeps fun _ _ h => takeLinear_wf _ _ h
  case brc f => exact meaning_keeps fun _ _ h => Res.post_ite (fun _ => takeLinear_wf _ _ h) fun _ => h
  case dbnz f => exact meaning_keeps fun _ _ h => Res.post_ite (fun _ => takeLinear_wf _ _ h) fun _ => h
  case brx f => exact meaning_keeps fun _ _ h => takeLinear_wf _ _ h
  case jmp f => exact meaning_keeps fun _ _ h => takeTo_wf _ _ h
  case nop f | add f | sub f | mul f | mulh f | madd f | div f | rem f | and f | or f | xor f | shl f | shr f | sar f | rol f | min f | max f |
      sel f | cmp f | lea f | addi f | andi f | ori f | xori f | shli f | shri f | sari f | cmpi f | li f | lih f | addpc f | clz f | ctz f |
      popc f | bswap f | bfx f | bfi f | abs f | ext f | vadd f | vsub f | vmul f | vfma f | vmin f | vmax f | vabs f | vand f | vor f |
      vxor f | vshl f | vshr f | vsar f | vsel f | vclamp f | vcmp f | vcvt f | vsplit f | vqnt f | vdqnt f | vlmul f | vlacc f | vdot f |
      baddq f | vsplat f | vins f | vext f | viota f | vperm f | vmov f | vred f | vscan f | plt f | pset f | pand f | por f | pxor f | pnot f |
      pcnt f | pfirst f =>
    exact meaning_keeps_of_pair _ rfl
  case flw f | flx f | watch f | waita f | vwid f | tstart f | tstop f | tstat f | trd f | twr f | tret f | movs f | sets f | setsi f | trap f |
      brkp f | sysc f | fltrd f | fltrdPeek f | capa f | vdiv f | vsqrt f | mma f | mzero f | mrd f | mwr f | mstat f | mstatW f | wbld f |
      wbinv f | mload f | mdrain f | ld f | ldv f | gth f | sbindIn f | sbindOut f | sbindQ f | sunbind f | sstat f | cpy f | mcast f |
      rfill f | eseq f | eseqGo f | eseqDrop f | ewait f | fencex f | cwb f | fdmode f | fdwait f | fdstat f | fdstatGo f | fdstatDrop f |
      fdin f | fdout f | fdadd f | fdsub f | fdmul f | fdcmp f | fdsel f | fdbit f | fdmin f | fdmax f | fdlmul f | fdrq f | fdpop f | kprb f |
      kins f | kups f | kupsPost f | kdel f | kprbv f | kupsv f | kupsvPost f | knew f | kbind f | kstat f | khash f | kiter f | kclr f |
      xmig f | xret f | xupd f | xnrm f | xovl f | xrlk f | send f | sendR f | sendFar f | recv f | recvNw f | lback f | istat f | qpubGw f |
      qclmGw f | qstatGw f | nred f | resm f | resmL f | capnew f | capwait f | capwaitNw f | capnext f | capins f | capdel f | capset f |
      capget f | plset f | plget f | plinv f | trset f | trsetClr f | htset f | xlat f | tlbinvA f | tlbinvL f | tlbinvG f | modld f |
      modldDbg f | modul f | bara f | baraJoin f | baraLeave f | barw f | barq f | ctrsel f | ctrrd f | timset f | tstmp f | clkrd f =>
    exact meaning_keeps_of_mem fun _ _ => by simp
  case ipf f | tend f | treap f | st f | stv f | sct f | amo f | cas f | amov f | cpyc f | xrul f | spawn f | join f | tnext f | steal f |
      qpub f | qclm f | qstat f | lnch f | prmt f | prmtL f | cappark f | capdone f =>
    exact meaning_keeps fun _ _ h => by simp [h]
  case bundleIssue a => exact execBundleIssue_keeps a
  case replyArrival w => exact execReplyArrival_keeps w
  case fetchLineArrival w => exact execFetchLineArrival_keeps w
  case followJoin c k => exact execFollowJoin_keeps c k
  case flwTimeout c k => exact execFlwTimeout_keeps c k
  case remoteFillArrival n => exact execRemoteFillArrival_keeps n
  case streamElementArrival c k r => exact execStreamElementArrival_keeps c k r
  case streamWriteCompletion c k r => exact execStreamWriteCompletion_keeps c k r
  case copyCommandStart c => exact execCopyCommandStart_keeps c
  case copyCommandCompletion c => exact execCopyCommandCompletion_keeps c
  case chainWalkStep c => exact execChainWalkStep_keeps c
  case copyEngineFault c => exact execCopyEngineFault_keeps c
  case matrixOpBegin c => exact execMatrixOpBegin_keeps c
  case matrixOpCompletion c => exact execMatrixOpCompletion_keeps c
  case fieldCommandStart f => exact execFieldCommandStart_keeps f
  case fieldCommandCompletion f => exact execFieldCommandCompletion_keeps f
  case fieldFault f => exact execFieldFault_keeps f
  case mapRequestService f => exact execMapRequestService_keeps f
  case postedUpsertApply n => exact execPostedUpsertApply_keeps n
  case splitRequest n => exact execSplitRequest_keeps n
  case split m => exact execSplit_keeps m
  case splitPublication m => exact execSplitPublication_keeps m
  case mapCopyUpdate f l n => exact execMapCopyUpdate_keeps f l n
  case queueRequestService f => exact execQueueRequestService_keeps f
  case messageArrival n => exact execMessageArrival_keeps n
  case gatewayRelay n => exact execGatewayRelay_keeps n
  case reductionCombine t n => exact execReductionCombine_keeps t n
  case reductionTotalDelivery t => exact execReductionTotalDelivery_keeps t
  case contextTake c k => exact execContextTake_keeps c k
  case contextFaultBack ch n => exact execContextFaultBack_keeps ch n
  case xretArrival ch n => exact execXretArrival_keeps ch n
  case nearPacketApply n => exact execNearPacketApply_keeps n
  case channelFill ln => exact execChannelFill_keeps ln
  case channelEvictionNotice ln => exact execChannelEvictionNotice_keeps ln
  case lineEviction ln => exact execLineEviction_keeps ln
  case overlayLineArrival ch w => exact execOverlayLineArrival_keeps ch w
  case capsuleDelivery n => exact execCapsuleDelivery_keeps n
  case timerExpiry c => exact execTimerExpiry_keeps c
  case shepherdFaultEscalation c => exact execShepherdFaultEscalation_keeps c
  case syscReply n => exact execSyscReply_keeps n
  case pageRefill c p => exact execPageRefill_keeps c p
  case tlbWalkCompletion c va => exact execTlbWalkCompletion_keeps c va
  case launchRecordTake n => exact execLaunchRecordTake_keeps n
  case launchPriorityRaise l => exact execLaunchPriorityRaise_keeps l
  case launchPlacement l => exact execLaunchPlacement_keeps l
  case launchRetirement l => exact execLaunchRetirement_keeps l
  case launchAbort l st => exact execLaunchAbort_keeps l st
  case moduleFree m => exact execModuleFree_keeps m
  case hostWrite off bytes => exact execHostWrite_keeps off bytes
  case hostRead off n => exact execHostRead_keeps off n
  case winbaseWrite v => exact execWinbaseWrite_keeps v
  case registerBarWrite off v => exact execRegisterBarWrite_keeps off v
  case deviceReset => exact execDeviceReset_keeps
  case linkBringup port => exact execLinkBringup_keeps port
  case linkLaneFailure port lane => exact execLinkLaneFailure_keeps port lane
  case linkRequestRetry n => exact execLinkRequestRetry_keeps n
  case uncorrectableDataError ln => exact execUncorrectableDataError_keeps ln
  case hbmRowSpare ch row => exact execHbmRowSpare_keeps ch row
  case spareMapping c => exact execSpareMapping_keeps c
  case liveFirmwareUpdate image keyid sigOk => exact execLiveFirmwareUpdate_keeps image keyid sigOk
  case moduleRemoval => exact execModuleRemoval_keeps
  case overTemperature => exact execOverTemperature_keeps
  case hbmLaneSpare ch => exact execHbmLaneSpare_keeps ch
  case sramRowSpare a => exact execSramRowSpare_keeps a

theorem Event.run_keeps (e : Event) : Keeps e.run := by
  cases e with
  | bundleIssue a => exact exec_keeps (.bundleIssue a)
  | replyArrival w => exact exec_keeps (.replyArrival w)
  | fetchLineArrival w => exact exec_keeps (.fetchLineArrival w)
  | followJoin c k => exact exec_keeps (.followJoin c k)
  | flwTimeout c k => exact exec_keeps (.flwTimeout c k)
  | remoteFillArrival n => exact exec_keeps (.remoteFillArrival n)
  | streamElementArrival c k r => exact exec_keeps (.streamElementArrival c k r)
  | streamWriteCompletion c k r => exact exec_keeps (.streamWriteCompletion c k r)
  | copyCommandStart c => exact exec_keeps (.copyCommandStart c)
  | copyCommandCompletion c => exact exec_keeps (.copyCommandCompletion c)
  | chainWalkStep c => exact exec_keeps (.chainWalkStep c)
  | copyEngineFault c => exact exec_keeps (.copyEngineFault c)
  | matrixOpBegin c => exact exec_keeps (.matrixOpBegin c)
  | matrixOpCompletion c => exact exec_keeps (.matrixOpCompletion c)
  | fieldCommandStart f => exact exec_keeps (.fieldCommandStart f)
  | fieldCommandCompletion f => exact exec_keeps (.fieldCommandCompletion f)
  | fieldFault f => exact exec_keeps (.fieldFault f)
  | mapRequestService f => exact exec_keeps (.mapRequestService f)
  | postedUpsertApply n => exact exec_keeps (.postedUpsertApply n)
  | splitRequest n => exact exec_keeps (.splitRequest n)
  | split m => exact exec_keeps (.split m)
  | splitPublication m => exact exec_keeps (.splitPublication m)
  | mapCopyUpdate f l n => exact exec_keeps (.mapCopyUpdate f l n)
  | queueRequestService f => exact exec_keeps (.queueRequestService f)
  | messageArrival n => exact exec_keeps (.messageArrival n)
  | gatewayRelay n => exact exec_keeps (.gatewayRelay n)
  | reductionCombine t n => exact exec_keeps (.reductionCombine t n)
  | reductionTotalDelivery t => exact exec_keeps (.reductionTotalDelivery t)
  | contextTake c k => exact exec_keeps (.contextTake c k)
  | contextFaultBack ch n => exact exec_keeps (.contextFaultBack ch n)
  | xretArrival ch n => exact exec_keeps (.xretArrival ch n)
  | nearPacketApply n => exact exec_keeps (.nearPacketApply n)
  | channelFill ln => exact exec_keeps (.channelFill ln)
  | channelEvictionNotice ln => exact exec_keeps (.channelEvictionNotice ln)
  | lineEviction ln => exact exec_keeps (.lineEviction ln)
  | overlayLineArrival ch w => exact exec_keeps (.overlayLineArrival ch w)
  | capsuleDelivery n => exact exec_keeps (.capsuleDelivery n)
  | timerExpiry c => exact exec_keeps (.timerExpiry c)
  | shepherdFaultEscalation c => exact exec_keeps (.shepherdFaultEscalation c)
  | syscReply n => exact exec_keeps (.syscReply n)
  | pageRefill c p => exact exec_keeps (.pageRefill c p)
  | tlbWalkCompletion c va => exact exec_keeps (.tlbWalkCompletion c va)
  | launchRecordTake n => exact exec_keeps (.launchRecordTake n)
  | launchPriorityRaise l => exact exec_keeps (.launchPriorityRaise l)
  | launchPlacement l => exact exec_keeps (.launchPlacement l)
  | launchRetirement l => exact exec_keeps (.launchRetirement l)
  | launchAbort l st => exact exec_keeps (.launchAbort l st)
  | moduleFree m => exact exec_keeps (.moduleFree m)
  | hostWrite off bytes => exact exec_keeps (.hostWrite off bytes)
  | hostRead off n => exact exec_keeps (.hostRead off n)
  | winbaseWrite v => exact exec_keeps (.winbaseWrite v)
  | registerBarWrite off v => exact exec_keeps (.registerBarWrite off v)
  | deviceReset => exact exec_keeps (.deviceReset)
  | linkBringup port => exact exec_keeps (.linkBringup port)
  | linkLaneFailure port lane => exact exec_keeps (.linkLaneFailure port lane)
  | linkRequestRetry n => exact exec_keeps (.linkRequestRetry n)
  | uncorrectableDataError ln => exact exec_keeps (.uncorrectableDataError ln)
  | hbmRowSpare ch row => exact exec_keeps (.hbmRowSpare ch row)
  | spareMapping c => exact exec_keeps (.spareMapping c)
  | liveFirmwareUpdate image keyid sigOk => exact exec_keeps (.liveFirmwareUpdate image keyid sigOk)
  | moduleRemoval => exact exec_keeps (.moduleRemoval)
  | overTemperature => exact exec_keeps (.overTemperature)
  | hbmLaneSpare ch => exact exec_keeps (.hbmLaneSpare ch)
  | sramRowSpare a => exact exec_keeps (.sramRowSpare a)

theorem State.runIssued_keeps : Keeps State.runIssued := by
  intro s t hs ht
  unfold State.runIssued at ht
  split at ht
  · cases ht
    exact hs
  · next b _ =>
    dsimp only at ht
    split at ht
    · next j _ =>
      cases ht
      exact (congrArg Memory.wf (State.afterIssue_mem ..)).trans (State.runPair_wf (s := { s with issue := none }) b.first j hs)
    · split at ht
      · cases ht
        exact (congrArg Memory.wf (State.afterIssue_mem ..)).trans (State.runBadPair_wf (s := { s with issue := none }) b.first hs)
      · obtain ⟨u, hu⟩ := exec_next b.first { s with issue := none }
        rw [hu] at ht
        cases ht
        exact (congrArg Memory.wf (State.afterIssue_mem ..)).trans (exec_keeps b.first { s with issue := none } u hs hu)

theorem State.runEvent_keeps (e : Event) : Keeps fun s => State.runEvent s e := by
  intro s t hs ht
  obtain ⟨u, hu⟩ := e.run_next s
  have hr : u.runIssued = .next t := by simpa [State.runEvent, hu] using ht
  exact State.runIssued_keeps u t (e.run_keeps s u hs hu) hr

/-- Settles O59: a step runs an event and the bundle it issues, each of which keeps memory canonical, or puts the next round on the agenda. -/
theorem everyStepKeepsMemoryCanonical : Obligations.EveryStepKeepsMemoryCanonical := by
  intro s t hs ht
  cases ha : s.agenda with
  | cons e es =>
    rw [step_cons ha] at ht
    exact State.runEvent_keeps e { s with agenda := es } t hs ht
  | nil =>
    rw [step_nil ha] at ht
    split at ht
    · cases ht
    · cases ht
      exact State.nextRound_wf hs

end Sys2Proof.Machine
end

section
/-! SUPPORT. What the completion of an instruction changes of its thread, and what it leaves of every other part (R6, R75, R119). -/

namespace Sys2Proof.Machine

/-! ## Registers of a slot -/

theorem Slot.gr_setReg_ne (t : Slot) {r n : Nat} (x : VReg) (h : n ≠ r) : (t.setReg r x).gr n = t.gr n := by
  unfold Slot.setReg Slot.gr
  split
  · dsimp only
    rw [Vector.getElem?_setIfInBounds_ne h.symm]
  · rfl

theorem Slot.vr_setReg_ne (t : Slot) {r n : Nat} (x : VReg) (h : 64 + n ≠ r) : (t.setReg r x).vr n = t.vr n := by
  unfold Slot.setReg Slot.vr
  split
  · rfl
  · dsimp only
    rw [Vector.getElem?_setIfInBounds_ne (by omega)]

/-- A register set leaves every other as it was. -/
theorem Slot.reg_setReg_ne (t : Slot) {r n : Nat} (x : VReg) (h : n ≠ r) : (t.setReg r x).reg n = t.reg n := by
  unfold Slot.reg
  split
  · next => rw [Slot.gr_setReg_ne t x h]
  · next hn => rw [Slot.vr_setReg_ne t x (by omega)]

theorem getLsbD_setBit96_ne (x : BitVec 96) {n r : Nat} (b : Bool) (h : r ≠ n) : (setBit96 x n b).getLsbD r = x.getLsbD r := by
  unfold setBit96
  split
  · simp [BitVec.getLsbD_twoPow, h.symm]
  · simpa [BitVec.getLsbD_twoPow, h.symm] using fun hx => BitVec.lt_of_getLsbD hx

@[simp] theorem Slot.setReg_outgoing (t : Slot) (r : Nat) (x : VReg) : (t.setReg r x).outgoing = t.outgoing := by
  unfold Slot.setReg
  split <;> rfl

/-- Bits at and above FOLLOW set, or kept, leave the eleven below (R117). -/
theorem low11_or (x m : Word) (h : m.extractLsb' 0 11 = 0#11) : (x ||| m).extractLsb' 0 11 = x.extractLsb' 0 11 := by
  rw [BitVec.extractLsb'_or, h, BitVec.or_zero]

theorem low11_and (x m : Word) (h : m.extractLsb' 0 11 = BitVec.allOnes 11) : (x &&& m).extractLsb' 0 11 = x.extractLsb' 0 11 := by
  rw [BitVec.extractLsb'_and, h, BitVec.and_allOnes]

/-! ## Slots that are the same but for some registers -/

/-- A slot keeps every register, with its full/empty bit, but those of `R`, every predicate but those of `P`, FLAGS but for FOLLOW,
EFMT, PTS, its outgoing capsule and how it stands. -/
structure Slot.SameBut (R P : Nat → Prop) (x y : Slot) : Prop where
  reg : ∀ r, r < 96 → ¬R r → y.reg r = x.reg r ∧ y.fe.getLsbD r = x.fe.getLsbD r
  pr : ∀ n, ¬P n → y.pr n = x.pr n
  flags : y.flags.extractLsb' 0 11 = x.flags.extractLsb' 0 11
  efmt : y.efmt = x.efmt
  pts : y.pts = x.pts
  outgoing : y.outgoing = x.outgoing

namespace Slot.SameBut

variable {R P : Nat → Prop} {x y z : Slot}

theorem refl (R P : Nat → Prop) (x : Slot) : SameBut R P x x := ⟨fun _ _ _ => ⟨rfl, rfl⟩, fun _ _ => rfl, rfl, rfl, rfl, rfl⟩

theorem trans (h1 : SameBut R P x y) (h2 : SameBut R P y z) : SameBut R P x z where
  reg r hr hn := ⟨(h2.reg r hr hn).1.trans (h1.reg r hr hn).1, (h2.reg r hr hn).2.trans (h1.reg r hr hn).2⟩
  pr n hn := (h2.pr n hn).trans (h1.pr n hn)
  flags := h2.flags.trans h1.flags
  efmt := h2.efmt.trans h1.efmt
  pts := h2.pts.trans h1.pts
  outgoing := h2.outgoing.trans h1.outgoing

theorem mono {R' P' : Nat → Prop} (h : SameBut R P x y) (hR : ∀ r, R r → R' r) (hP : ∀ n, P n → P' n) : SameBut R' P' x y where
  reg r hr hn := h.reg r hr fun hh => hn (hR r hh)
  pr n hn := h.pr n fun hh => hn (hP n hh)
  flags := h.flags
  efmt := h.efmt
  pts := h.pts
  outgoing := h.outgoing

end Slot.SameBut

theorem Slot.sameBut_fill (R P : Nat → Prop) (t : Slot) {r : Nat} (x : VReg) (h : R r) : SameBut R P t (t.fill r x) where
  reg n _ hn := by
    have hne : n ≠ r := fun e => hn (e ▸ h)
    exact ⟨Slot.reg_setReg_ne t x hne, by simp [Slot.fill, getLsbD_setBit96_ne _ _ hne]⟩
  pr _ _ := by simp [Slot.fill, Slot.pr]
  flags := by simp [Slot.fill]
  efmt := by simp [Slot.fill]
  pts := by simp [Slot.fill]
  outgoing := by simp [Slot.fill]

theorem Slot.sameBut_empty (R P : Nat → Prop) (t : Slot) {r : Nat} (h : R r) : SameBut R P t (t.empty r) where
  reg n _ hn := by
    have hne : n ≠ r := fun e => hn (e ▸ h)
    unfold Slot.empty
    split
    · exact ⟨Slot.reg_setReg_ne t _ hne, by simp [getLsbD_setBit96_ne _ _ hne]⟩
    · exact ⟨rfl, getLsbD_setBit96_ne _ _ hne⟩
  pr _ _ := by simp [Slot.pr]
  flags := by simp
  efmt := by simp
  pts := by simp
  outgoing := by
    unfold Slot.empty
    split <;> simp

theorem Slot.sameBut_forgetTs (R P : Nat → Prop) (t : Slot) (ts : Nat) (rs : List Nat) : SameBut R P t (t.forgetTs ts rs) := by
  induction rs generalizing t with
  | nil => exact .refl R P t
  | cons r rs ih =>
    refine .trans ?_ (ih _)
    split
    · exact ⟨fun _ _ _ => ⟨rfl, rfl⟩, fun _ _ => rfl, rfl, rfl, rfl, rfl⟩
    · exact .refl R P t

theorem Slot.sameBut_emptyAll (R P : Nat → Prop) (t : Slot) (written : List Nat) {rs : List Nat} (h : ∀ r ∈ rs, R r) :
    SameBut R P t (t.emptyAll written rs) := by
  induction rs generalizing t with
  | nil => exact .refl R P t
  | cons r rs ih =>
    obtain ⟨hr, hrs⟩ := List.forall_mem_cons.mp h
    refine .trans ?_ (ih _ hrs)
    split
    · exact .refl R P t
    · exact Slot.sameBut_empty R P t hr

theorem State.sameBut_popAll (R P : Nat → Prop) (s : State) (t : Slot) (rs : List Nat) : Slot.SameBut R P t (s.popAll t rs) := by
  induction rs generalizing t with
  | nil => exact .refl R P t
  | cons r rs ih =>
    refine .trans ?_ (ih _)
    unfold State.popPort
    split
    · exact ⟨fun _ _ _ => ⟨rfl, rfl⟩, fun _ _ => rfl, rfl, rfl, rfl, rfl⟩
    · exact .refl R P t

/-- Only FOLLOW and what belongs to following may differ, and nothing of registers. -/
theorem Slot.sameBut_setFollow (R P : Nat → Prop) (t : Slot) (b : Bool) : SameBut R P t (t.setFollow b) where
  reg _ _ _ := ⟨rfl, rfl⟩
  pr _ _ := rfl
  flags := by
    cases b
    · exact low11_and t.flags _ (by decide)
    · exact low11_or t.flags _ (by decide)
  efmt := rfl
  pts := rfl
  outgoing := rfl

/-! ## Threads and slots replaced -/

theorem Core.slot_setSlot_cases (c : Core) (j k : Nat) (t : Slot) : (c.setSlot k t).slot j = c.slot j ∨ (j = k ∧ (c.setSlot k t).slot j = t) := by
  by_cases h : j = k
  · subst h
    by_cases hk : j < 16
    · exact .inr ⟨rfl, Core.slot_setSlot_self c t hk⟩
    · refine .inl ?_
      simp [Core.slot, Core.setSlot, hk]
  · exact .inl (Core.slot_setSlot_ne c t h)

theorem State.slot_setSlot_cases (s : State) (d j c k : Nat) (t : Slot) :
    (s.setSlot c k t).slot d j = s.slot d j ∨ ((d = c ∧ j = k) ∧ (s.setSlot c k t).slot d j = t) := by
  by_cases h : d = c
  · subst h
    have := Core.slot_setSlot_cases (s.core d) j k t
    simpa [State.slot, State.setSlot] using this
  · exact .inl (State.slot_setSlot_ne s t (.inl h))

/-- A replaced slot is the current thread's, or the thread stands as it did. -/
theorem State.thread_setSlot_cases (s : State) (c k : Nat) (t : Slot) :
    (s.setSlot c k t).thread = s.thread ∨ (s.thread = s.slot c k ∧ (s.setSlot c k t).thread = t) := by
  cases hc : s.cur with
  | slot d j =>
    have h1 : (s.setSlot c k t).thread = (s.setSlot c k t).slot d j := State.thread_slot hc
    rw [h1, State.thread_slot hc]
    obtain h | ⟨⟨rfl, rfl⟩, h⟩ := State.slot_setSlot_cases s d j c k t
    · exact .inl h
    · exact .inr ⟨rfl, h⟩
  | ctx ch i => exact .inl (by simp [State.thread, State.setSlot, State.setCore, State.chan, hc])
  | sys n => exact .inl (by simp [State.thread, State.setSlot, State.setCore, hc])

@[simp] theorem State.chan_setChan_self (s : State) (ch : Nat) (x : Channel) : (s.setChan ch x).chan ch = x := by
  simp [State.chan, State.setChan]

/-- A replaced thread stands, or there is no such thread to replace. -/
theorem State.thread_setThread_cases (s : State) (t : Slot) : (s.setThread t).thread = t ∨ (s.setThread t).thread = s.thread := by
  cases hc : s.cur with
  | slot c k =>
    rw [State.setThread_slot t hc]
    obtain h | ⟨-, h⟩ := State.thread_setSlot_cases s c k t
    · exact .inr h
    · exact .inl h
  | ctx ch i =>
    cases hx : aget (s.chan ch).ctxs i with
    | none => exact .inr (by simp [State.setThread, hc, hx])
    | some x =>
      have hs : s.setThread t = s.setChan ch { s.chan ch with ctxs := aset (s.chan ch).ctxs i { x with thread := t } } := by
        simp [State.setThread, hc, hx]
      exact .inl (by simp [hs, State.thread, hc])
  | sys n =>
    by_cases hn : n < 8
    · exact .inl (by simp [State.setThread, State.thread, hc, hn])
    · exact .inr (by simp [State.setThread, State.thread, hc, hn])

theorem State.sameBut_setThread {R P : Nat → Prop} {s : State} {x t : Slot} (hx : Slot.SameBut R P x s.thread) (h : Slot.SameBut R P x t) :
    Slot.SameBut R P x (s.setThread t).thread := by
  obtain ht | ht := s.thread_setThread_cases t
  · rwa [ht]
  · rwa [ht]

theorem State.sameBut_setSlot {R P : Nat → Prop} {s : State} {c k : Nat} {t : Slot} (h : Slot.SameBut R P (s.slot c k) t) :
    Slot.SameBut R P s.thread (s.setSlot c k t).thread := by
  obtain ht | ⟨hs, ht⟩ := s.thread_setSlot_cases c k t
  · rw [ht]; exact .refl R P _
  · rwa [ht, hs]

/-! ## Parts that are left as they were -/

theorem KeepsSlot.refl (t : Slot) : KeepsSlot t t := ⟨rfl, rfl, rfl, rfl, rfl, rfl, rfl, rfl, rfl⟩

theorem KeepsSlot.trans {t u w : Slot} (h1 : KeepsSlot t u) (h2 : KeepsSlot u w) : KeepsSlot t w := by
  obtain ⟨g1, v1, p1, fe1, o1, e1, c1, s1, f1⟩ := h1
  obtain ⟨g2, v2, p2, fe2, o2, e2, c2, s2, f2⟩ := h2
  exact ⟨g2.trans g1, v2.trans v1, p2.trans p1, fe2.trans fe1, o2.trans o1, e2.trans e1, c2.trans c1, s2.trans s1, f2.trans f1⟩

theorem SlotsOnly.refl (c k : Nat) (s : State) : SlotsOnly c k s s :=
  ⟨rfl, rfl, rfl, rfl, rfl, rfl, rfl, fun _ => rfl, fun _ _ _ => .refl _⟩

theorem Core.withSlots_trans {x y z : Core} (h1 : { y with slots := x.slots } = x) (h2 : { z with slots := y.slots } = y) :
    { z with slots := x.slots } = x := by
  rw [← h1, ← h2]

theorem SlotsOnly.trans {c k : Nat} {s t u : State} (h1 : SlotsOnly c k s t) (h2 : SlotsOnly c k t u) : SlotsOnly c k s u := by
  obtain ⟨p1, m1, f1, d1, ch1, v1, k1, c1, o1⟩ := h1
  obtain ⟨p2, m2, f2, d2, ch2, v2, k2, c2, o2⟩ := h2
  exact ⟨p2.trans p1, m2.trans m1, f2.trans f1, d2.trans d1, ch2.trans ch1, v2.trans v1, k2.trans k1,
    fun d => Core.withSlots_trans (c1 d) (c2 d), fun d j h => (o1 d j h).trans (o2 d j h)⟩

/-- A slot replaced changes nothing but slots, and of others than `k` of core `c` what `KeepsSlot` leaves open. -/
theorem SlotsOnly.setSlot {c k d j : Nat} {s : State} {t : Slot} (h : d ≠ c ∨ j ≠ k → KeepsSlot (s.slot d j) t) :
    SlotsOnly c k s (s.setSlot d j t) := by
  refine ⟨rfl, rfl, rfl, rfl, rfl, rfl, rfl, fun e => ?_, fun e i hne => ?_⟩
  · by_cases he : e = d
    · subst he
      rw [State.setSlot, State.core_setCore_self]
      rfl
    · rw [State.setSlot, State.core_setCore_ne _ _ he]
  · obtain hs | ⟨⟨rfl, rfl⟩, hs⟩ := State.slot_setSlot_cases s e i d j t
    · rw [hs]; exact .refl _
    · rw [hs]; exact h hne

/-! ## States that differ in the current thread alone -/

/-- Of the current thread nothing has changed but the registers `R` and the predicates `P`, its ports, PC and state, and, for a slot, of
the rest of the machine nothing but what `SlotsOnly` leaves open. -/
structure State.Touches (R P : Nat → Prop) (s t : State) : Prop where
  cur : t.cur = s.cur
  thread : Slot.SameBut R P s.thread t.thread
  slots : ∀ c k, s.cur = .slot c k → SlotsOnly c k s t

namespace State.Touches

variable {R P : Nat → Prop} {s t u : State}

theorem refl (R P : Nat → Prop) (s : State) : Touches R P s s := ⟨rfl, .refl R P _, fun c k _ => .refl c k s⟩

theorem trans (h1 : Touches R P s t) (h2 : Touches R P t u) : Touches R P s u where
  cur := h2.cur.trans h1.cur
  thread := h1.thread.trans h2.thread
  slots c k h := (h1.slots c k h).trans (h2.slots c k (h1.cur.trans h))

theorem mono {R' P' : Nat → Prop} (h : Touches R P s t) (hR : ∀ r, R r → R' r) (hP : ∀ n, P n → P' n) : Touches R' P' s t :=
  ⟨h.cur, h.thread.mono hR hP, h.slots⟩

theorem setThread {x : Slot} (h : Slot.SameBut R P s.thread x) : Touches R P s (s.setThread x) where
  cur := State.setThread_cur s x
  thread := State.sameBut_setThread (.refl R P _) h
  slots c k hc := by
    rw [State.setThread_slot x hc]
    exact .setSlot fun hne => (hne.elim (· rfl) (· rfl)).elim

theorem setSlot {c k : Nat} {x : Slot} (h : Slot.SameBut R P (s.slot c k) x) (hk : KeepsSlot (s.slot c k) x) :
    Touches R P s (s.setSlot c k x) :=
  ⟨rfl, State.sameBut_setSlot h, fun _ _ _ => .setSlot fun _ => hk⟩

end State.Touches

theorem State.append_touches (R P : Nat → Prop) (s : State) (r : Nat) (x : VReg) : Touches R P s (s.append r x) := by
  unfold State.append
  dsimp only
  split
  · split
    · split
      · exact .setSlot ⟨fun _ _ _ => ⟨rfl, rfl⟩, fun _ _ => rfl, rfl, rfl, rfl, rfl⟩ ⟨rfl, rfl, rfl, rfl, rfl, rfl, rfl, rfl, rfl⟩
      · exact .refl R P s
    · exact .setThread ⟨fun _ _ _ => ⟨rfl, rfl⟩, fun _ _ => rfl, rfl, rfl, rfl, rfl⟩
  · exact .refl R P s

theorem State.applyWr_touches {R P : Nat → Prop} (s : State) {w : Wr} (hR : ∀ r, w.reg? = some r → R r) (hP : ∀ n x, w = .p n x → P n) :
    Touches R P s (s.applyWr w) := by
  cases w with
  | p n x =>
    refine .setThread ⟨fun _ _ _ => ⟨rfl, rfl⟩, fun m hm => ?_, rfl, rfl, rfl, rfl⟩
    have hne : n ≠ m := fun h => hm (h ▸ hP n x rfl)
    simp [Slot.pr, Vector.getElem?_setIfInBounds_ne hne]
  | g n x =>
    unfold State.applyWr
    dsimp only
    split
    · exact .refl R P s
    · split
      · exact State.append_touches R P s n _
      · exact .setThread (Slot.sameBut_fill R P _ _ (hR n rfl))
  | v n x =>
    unfold State.applyWr
    dsimp only
    split
    · exact State.append_touches R P s _ _
    · exact .setThread (Slot.sameBut_fill R P _ _ (hR (64 + n) rfl))

theorem State.applyWrs_touches {R P : Nat → Prop} (s : State) {ws : List Wr} (hR : ∀ w ∈ ws, ∀ r, w.reg? = some r → R r)
    (hP : ∀ n x, Wr.p n x ∈ ws → P n) : Touches R P s (s.applyWrs ws) := by
  induction ws generalizing s with
  | nil => exact .refl R P s
  | cons w ws ih =>
    obtain ⟨hw, hws⟩ := List.forall_mem_cons.mp hR
    exact (s.applyWr_touches hw fun n x h => hP n x (h ▸ List.mem_cons_self)).trans
      (ih _ hws fun n x h => hP n x (List.mem_cons_of_mem _ h))

theorem foldl_touches {α : Type} {R P : Nat → Prop} {f : State → α → State} (h : ∀ s x, State.Touches R P s (f s x)) (l : List α) (s : State) :
    State.Touches R P s (l.foldl f s) := by
  induction l generalizing s with
  | nil => exact .refl R P s
  | cons x l ih => exact (h s x).trans (ih _)

theorem State.dropFollowers_touches (R P : Nat → Prop) (s : State) (c k : Nat) : Touches R P s (s.dropFollowers c k) := by
  refine foldl_touches (fun s x => ?_) _ s
  have hf : (((s.slot x k).setFollow false).flags).extractLsb' 0 11 = (s.slot x k).flags.extractLsb' 0 11 :=
    (Slot.sameBut_setFollow R P _ false).flags
  dsimp only
  split
  · exact .setSlot ⟨fun _ _ _ => ⟨rfl, rfl⟩, fun _ _ => rfl, hf, rfl, rfl, rfl⟩ ⟨rfl, rfl, rfl, rfl, rfl, rfl, rfl, rfl, hf⟩
  · split
    · exact .setSlot ⟨fun _ _ _ => ⟨rfl, rfl⟩, fun _ _ => rfl, rfl, rfl, rfl, rfl⟩ ⟨rfl, rfl, rfl, rfl, rfl, rfl, rfl, rfl, rfl⟩
    · exact .refl R P s

/-! ## Completion (R6, R75) -/

/-- The registers that a completion empties or writes. -/
def Eff.regs (e : Eff) (r : Nat) : Prop := r ∈ e.takes ∨ r ∈ e.late ∨ ∃ w ∈ e.writes, w.reg? = some r

/-- The predicates that a completion writes. -/
def Eff.preds (e : Eff) (n : Nat) : Prop := ∃ x, Wr.p n x ∈ e.writes

/-- The slot with its reads consumed: fill timestamps, takes and pops. -/
def State.consumed (s : State) (e : Eff) : Slot :=
  s.popAll ((s.thread.forgetTs e.pts e.seen).emptyAll ((e.writes.filterMap Wr.reg?).filter fun r => !e.early.contains r) e.takes.eraseDups) e.pops

/-- FLAGS as a completion leaves them. -/
def Eff.flagsOf (e : Eff) (old : Word) : Word :=
  let fl := old ||| e.sticky
  let fl := match e.ms with
    | some m => flagsMs fl m
    | none => fl
  match e.setFlags with
  | some x => flagsWritten fl x
  | none => fl

/-- The slot as a completion leaves it before its writes. -/
def State.commitSlot (s : State) (e : Eff) : Slot :=
  let t := s.consumed e
  { t with flags := e.flagsOf t.flags, efmt := e.setEfmt.getD t.efmt, pts := max t.pts e.pts, pc := e.pc.getD (succPc t.pc 1), wait := none,
           reply := none, stopReq := false, again := none, vec := none, subst := none, wakeAt := s.ac + 1, told := false, taken := e.taken,
           st := if e.ended then .ended else if t.stopReq then .stopped else .runnable }

theorem State.consumed_sameBut (s : State) (e : Eff) : Slot.SameBut e.regs e.preds s.thread (s.consumed e) :=
  ((Slot.sameBut_forgetTs _ _ _ _ _).trans (Slot.sameBut_emptyAll _ _ _ _ fun _ h => .inl (List.mem_eraseDups.mp h))).trans
    (s.sameBut_popAll _ _ _ _)

/-- The state with the slot updated and everything written. -/
def State.written (s : State) (e : Eff) : State :=
  let t := (s.setThread (s.commitSlot e)).applyWrs e.writes
  if e.late.isEmpty then t else t.setThread (t.thread.emptyAll [] e.late.eraseDups)

theorem State.commit_cases (s : State) (e : Eff) : s.commit e = s.written e ∨ ∃ c k, s.commit e = (s.written e).dropFollowers c k := by
  unfold State.commit
  dsimp only
  split
  · exact (ite_eq_or_eq _ _ _).imp id fun h => ⟨_, _, h⟩
  · exact .inl rfl

/-- What comes after the slot's own update: writes, the late emptyings of a pair, and the followers of a slot that no longer runs. -/
theorem State.commit_touches (s : State) (e : Eff) : Touches e.regs e.preds (s.setThread (s.commitSlot e)) (s.commit e) := by
  have hw : Touches e.regs e.preds (s.setThread (s.commitSlot e)) ((s.setThread (s.commitSlot e)).applyWrs e.writes) :=
    State.applyWrs_touches _ (fun w hw r hr => .inr (.inr ⟨w, hw, hr⟩)) fun n x h => ⟨x, h⟩
  have h : Touches e.regs e.preds (s.setThread (s.commitSlot e)) (s.written e) := by
    refine hw.trans ?_
    unfold State.written
    dsimp only
    split
    · exact .refl _ _ _
    · exact .setThread (Slot.sameBut_emptyAll _ _ _ _ fun _ h => .inr (.inl (List.mem_eraseDups.mp h)))
  obtain hc | ⟨c, k, hc⟩ := s.commit_cases e
  · rwa [hc]
  · rw [hc]
    exact h.trans (State.dropFollowers_touches _ _ _ _ _)

theorem State.commit_slotsOnly {s : State} {c k : Nat} (e : Eff) (h : s.cur = .slot c k) : SlotsOnly c k s (s.commit e) := by
  have ha := (s.commit_touches e).slots c k ((State.setThread_cur ..).trans h)
  rw [State.setThread_slot _ h] at ha
  exact (SlotsOnly.setSlot fun hne => (hne.elim (· rfl) (· rfl)).elim).trans ha

theorem State.commit_cur (s : State) (e : Eff) : (s.commit e).cur = s.cur :=
  (s.commit_touches e).cur.trans (State.setThread_cur ..)

/-- A completion leaves the outgoing capsule where it was. -/
theorem State.commit_outgoing (s : State) (e : Eff) : (s.commit e).thread.outgoing = s.thread.outgoing := by
  refine (s.commit_touches e).thread.outgoing.trans ?_
  obtain h | h := s.thread_setThread_cases (s.commitSlot e)
  · rw [h]; exact (s.consumed_sameBut e).outgoing
  · rw [h]

/-- A completion's slot: every register and predicate that it neither empties nor writes as before, and FLAGS, EFMT and PTS as it leaves
them. -/
structure Committed (e : Eff) (x y : Slot) : Prop where
  reg : ∀ r, r < 96 → ¬e.regs r → y.reg r = x.reg r ∧ y.fe.getLsbD r = x.fe.getLsbD r
  pr : ∀ n, ¬e.preds n → y.pr n = x.pr n
  flags : y.flags.extractLsb' 0 11 = (e.flagsOf x.flags).extractLsb' 0 11
  efmt : y.efmt = e.setEfmt.getD x.efmt
  pts : y.pts = max x.pts e.pts

theorem Eff.flagsOf_low {e : Eff} {a b : Word} (h : a.extractLsb' 0 11 = b.extractLsb' 0 11) :
    (e.flagsOf a).extractLsb' 0 11 = (e.flagsOf b).extractLsb' 0 11 := by
  have hm (m : Option Nat) {a b : Word} (h : a.extractLsb' 0 11 = b.extractLsb' 0 11) : (match m with
      | some m => flagsMs a m
      | none => a).extractLsb' 0 11 = (match m with
      | some m => flagsMs b m
      | none => b).extractLsb' 0 11 := by
    cases m with
    | none => exact h
    | some m => simp only [flagsMs, BitVec.extractLsb'_or, BitVec.extractLsb'_and, h]
  have ho : (a ||| e.sticky).extractLsb' 0 11 = (b ||| e.sticky).extractLsb' 0 11 := by simp only [BitVec.extractLsb'_or, h]
  unfold Eff.flagsOf
  dsimp only
  split
  · simp only [flagsWritten, BitVec.extractLsb'_or, BitVec.extractLsb'_and, hm e.ms ho]
  · exact hm e.ms ho

theorem State.commit_committed {s : State} {c k : Nat} (e : Eff) (h : s.cur = .slot c k) (hk : k < 16) :
    Committed e (s.slot c k) ((s.commit e).slot c k) := by
  have hs := s.consumed_sameBut e
  have ht := (s.commit_touches e).thread
  rw [State.thread_slot ((s.commit_cur e).trans h), State.setThread_slot _ h, State.thread_slot (show (s.setSlot c k _).cur = .slot c k from h),
    State.slot_setSlot_self _ _ _ hk] at ht
  rw [State.thread_slot h] at hs
  exact {
    reg := fun r hr hn => ⟨(ht.reg r hr hn).1.trans (hs.reg r hr hn).1, (ht.reg r hr hn).2.trans (hs.reg r hr hn).2⟩
    pr := fun n hn => (ht.pr n hn).trans (hs.pr n hn)
    flags := ht.flags.trans (Eff.flagsOf_low hs.flags)
    efmt := ht.efmt.trans (congrArg e.setEfmt.getD hs.efmt)
    pts := ht.pts.trans (congrArg (max · e.pts) hs.pts) }

end Sys2Proof.Machine
end

section
/-! SUPPORT. The events of replies, lines, followers, fills, streams, pages and translation walks (O35). -/

namespace Sys2Proof.Machine

/-- Where no capsule is going out, the end of a reply's completion is the completion. -/
theorem State.sendOff_none {s : State} (h : s.thread.outgoing = none) : s.sendOff = s := by simp [State.sendOff, h]

theorem State.replyEff_reply (s : State) (e : Eff) : s.replyEff .reply e = e := rfl

theorem State.land_commit {s : State} {e : Eff} (h : s.thread.blocked e = []) : s.land e = s.commit e := by simp [State.land, h]

theorem State.land_full {s : State} {e : Eff} {r : Nat} {rs : List Nat} (h : s.thread.blocked e = r :: rs) :
    s.land e = s.setThread { s.thread with st := .parked, wait := some (.full (r :: rs)), reply := some e } := by simp [State.land, h]

/-- A reply that is due ends what the thread waits for (R6, R26, R211). -/
theorem replyArrival_due {s : State} {w : Who} (h : (s.as w).replyReady w (s.as w).thread = true) :
    (∀ v, (s.as w).thread.vec = some v → exec (.replyArrival w) s = .next ((s.as w).vecStep v))
    ∧ (∀ e x, (s.as w).thread.vec = none → (s.as w).thread.reply = some e → (s.as w).thread.wait = some x →
        let s2 := (s.as w).land ((s.as w).replyEff x e)
        exec (.replyArrival w) s = .next (if s2.thread.reply.isSome then s2 else s2.sendOff))
    ∧ ((s.as w).thread.vec = none → (s.as w).thread.reply = none →
        exec (.replyArrival w) s = .next { (s.as w).setThread { (s.as w).thread with st := .runnable, wait := none } with issue := (s.as w).thread.again }) := by
  refine ⟨fun v hv => ?_, fun e x hv hr hx => ?_, fun hv hr => ?_⟩
  · simp only [exec, execReplyArrival, answer, h, hv, Bool.not_true, Bool.false_eq_true, if_false]
  · simp only [exec, execReplyArrival, answer, h, hv, hr, hx, Bool.not_true, Bool.false_eq_true, if_false]
  · simp only [exec, execReplyArrival, answer, h, hv, hr, Bool.not_true, Bool.false_eq_true, if_false]

theorem replyArrival_early {s : State} {w : Who} (h : (s.as w).replyReady w (s.as w).thread = false) :
    exec (.replyArrival w) s = .next (s.as w) := by
  simp only [exec, execReplyArrival, answer, h, Bool.not_false, if_true]

/-- Whether a reply that travels has a route from the device it comes from. -/
def State.replyRouted (s : State) (w : Who) : Prop := ∀ d, (s.as w).thread.peer = some d → (s.as w).routed d ((s.as w).standsOn w) = true

theorem replyReady_reply {s : State} {w : Who} {e : Eff} (hst : (s.as w).thread.st = .parked) (hv : (s.as w).thread.vec = none)
    (hr : (s.as w).thread.reply = some e) (hw : (s.as w).thread.wait = some .reply) :
    (s.as w).replyReady w (s.as w).thread = true ↔ s.replyRouted w := by
  simp [State.replyReady, State.replyRouted, hst, hv, hr, hw, Wait.replied, Wait.conditional, Option.all_eq_true]

theorem replyReady_full {s : State} {w : Who} {e : Eff} {rs : List Nat} (hst : (s.as w).thread.st = .parked) (hv : (s.as w).thread.vec = none)
    (hr : (s.as w).thread.reply = some e) (hw : (s.as w).thread.wait = some (.full rs)) :
    (s.as w).replyReady w (s.as w).thread = ((s.as w).thread.blocked e).isEmpty := by
  simp [State.replyReady, hst, hv, hr, hw]

/-- A reply that completes an instruction which sent no capsule (R26, R75): once its W destinations are empty, and where a route leads
from the device it comes from (R367). -/
theorem replyArrival_completion {s : State} {w : Who} {e : Eff} (hst : (s.as w).thread.st = .parked) (hv : (s.as w).thread.vec = none)
    (hr : (s.as w).thread.reply = some e) (ho : (s.as w).thread.outgoing = none) :
    ((s.as w).thread.wait = some .reply → s.replyRouted w → (s.as w).thread.blocked e = [] → exec (.replyArrival w) s = .next ((s.as w).commit e))
    ∧ ((s.as w).thread.wait = some .reply → ¬s.replyRouted w → exec (.replyArrival w) s = .next (s.as w))
    ∧ (∀ r rs, (s.as w).thread.wait = some .reply → s.replyRouted w → (s.as w).thread.blocked e = r :: rs →
        exec (.replyArrival w) s = .next ((s.as w).setThread { (s.as w).thread with wait := some (.full (r :: rs)) }))
    ∧ (∀ rs, (s.as w).thread.wait = some (.full rs) → (s.as w).thread.blocked e ≠ [] → exec (.replyArrival w) s = .next (s.as w)) := by
  refine ⟨fun hw hroute hb => ?_, fun hw hroute => ?_, fun r rs hw hroute hb => ?_, fun rs hw hb => ?_⟩
  · have hland : (s.as w).land ((s.as w).replyEff .reply e) = (s.as w).commit e := State.land_commit hb
    have hdue := (replyArrival_due ((replyReady_reply hst hv hr hw).mpr hroute)).2.1 e _ hv hr hw
    rw [hland] at hdue
    dsimp only at hdue
    rw [State.sendOff_none ((State.commit_outgoing ..).trans ho), ite_self] at hdue
    exact hdue
  · exact replyArrival_early (Bool.eq_false_iff.mpr fun h => hroute ((replyReady_reply hst hv hr hw).mp h))
  · have hland : (s.as w).land ((s.as w).replyEff .reply e) = (s.as w).setThread { (s.as w).thread with wait := some (.full (r :: rs)) } := by
      rw [State.replyEff_reply, State.land_full hb, ← hst, ← hr]
    have hreply : ((s.as w).setThread { (s.as w).thread with wait := some (.full (r :: rs)) }).thread.reply = some e := by
      obtain h | h := State.thread_setThread_cases (s.as w) { (s.as w).thread with wait := some (.full (r :: rs)) }
      · rw [h]; exact hr
      · rw [h]; exact hr
    have hdue := (replyArrival_due ((replyReady_reply hst hv hr hw).mpr hroute)).2.1 e _ hv hr hw
    simp only [hland, hreply, Option.isSome_some, if_true] at hdue
    exact hdue
  · refine replyArrival_early ((replyReady_full hst hv hr hw).trans ?_)
    simpa using hb

/-! ## Lines, followers and fills -/

theorem fetchLineArrival_comes {s : State} {c k ln : Nat} (hw : (s.slot c k).fetchWait = some ln)
    (h : (s.as (.slot c k)).lineComes (.slot c k) (s.slot c k) ln = true) :
    let s2 := (s.as (.slot c k)).setCore c ((s.as (.slot c k)).countSlot c (s.core c) (s.slot c k))
    exec (.fetchLineArrival (.slot c k)) s = .next
      { ((s2.setThread { s2.thread with fetchWait := none, wakeAt := s2.ac + 1 }).readCode c ln).1 with issue := (s.slot c k).again } := by
  have ht : (s.as (.slot c k)).thread = s.slot c k := rfl
  simp only [exec, execFetchLineArrival, answer, ht, hw, h, Bool.not_true, Bool.false_eq_true, if_false]
  rfl

theorem fetchLineArrival_ahead {s : State} {c k : Nat} (hw : (s.slot c k).fetchWait = none) :
    exec (.fetchLineArrival (.slot c k)) s = .next ((s.as (.slot c k)).runAhead c k) := by
  have ht : (s.as (.slot c k)).thread = s.slot c k := rfl
  simp only [exec, execFetchLineArrival, answer, ht, hw]

/-- FOLLOW_JOIN and FLW_TIMEOUT of a waiting FLW (R125, R126). -/
theorem followJoin_or_timeout {s : State} {c k : Nat} {e : Eff} (hr : (s.slot c k).reply = some e) (hw : (s.slot c k).wait = some .follow)
    (hb : (s.slot c k).blocked e = []) :
    ((s.slot c k).followBuf ≠ [] → let s2 := (s.as (.slot c k)).commit (flwEff e 1)
      exec (.followJoin c k) s = .next (if (s.slot c k).bell = none then s2.setThread { s2.thread with followBuf := [] }
        else (s2.setThread (s2.thread.setFollow true)).dropFollowers c k))
    ∧ ((s.slot c k).followBuf = [] → (s.slot c k).flwSince + 256 ≤ s.ac →
      exec (.flwTimeout c k) s = .next (((s.as (.slot c k)).setThread { s.slot c k with bell := none }).commit (flwEff e 0))) := by
  have ht : (s.as (.slot c k)).thread = s.slot c k := rfl
  refine ⟨fun hf => ?_, fun hf hac => ?_⟩
  · simp [exec, execFollowJoin, answer, ht, hr, hw, hb, hf]
  · simp only [exec, execFlwTimeout, answer, ht, hr]
    rw [if_pos ⟨hw, by rw [hf]; rfl, hac, hb⟩]

theorem remoteFillArrival_applied {s s2 : State} {i : Nat} {m : FillMsg} (hm : s.fills[i]? = some m) (hway : s.wayOpen m.sender m.core = true)
    (hp : (s.slot m.core m.slot).port m.reg = none)
    (hf : State.fillReg { s with fills := dropAt s.fills i } m.core m.slot m.reg m.val m.ts = some s2) :
    exec (.remoteFillArrival i) s = .next (s2.answerStatus m.core m.sender (if (s.slot m.core m.slot).st = .idle then 2 else 0)) := by
  simp [exec, execRemoteFillArrival, answer, hm, hway, hp, hf]

/-! ## Pages and walks -/

theorem pageRefill_pins {s : State} {c p : Nat} (hu : (s.core c).unpinned p = true) (hp : p < (s.core c).scrPages ∨ (1016 ≤ p ∧ p < 1024)) :
    exec (.pageRefill c p) s = .next (s.setCore c ((s.core c).pin p)) := by
  simp [exec, execPageRefill, answer, hu, hp]

theorem any_poisoned_false {s : State} {va root : Nat} (h : ∀ a ∈ s.walkPath va 3 root, s.dev.poisoned.contains (a / 64) = false) :
    ((s.walkPath va 3 root).any fun a => s.dev.poisoned.contains (a / 64)) = false :=
  List.any_eq_false.mpr fun a ha => by simpa using h a ha

/-- A walk that a die's access waits for ends; one ahead of any access enters its leaf (R343). -/
theorem tlbWalk_ends (s : State) (c : Nat) (va : Word) :
    let pending := (s.die (dieOf c)).misses.find? fun m => m.space == s.space (.slot c 0) && m.page == va.toNat % 2 ^ 57 / 65536
    let clean := fun (root : Nat) => ∀ a ∈ s.walkPath va.toNat 3 root, s.dev.poisoned.contains (a / 64) = false
    (∀ m, pending = some m → m.walking = true → clean m.root → exec (.tlbWalkCompletion c va) s = .next (s.endWalk (dieOf c) m va.toNat))
    ∧ (pending = none → (s.core c).launch.isSome = true → canonical va.toNat = true → clean (s.rootOf (.slot c 0)) →
      exec (.tlbWalkCompletion c va) s = .next (s.aheadWalk c va.toNat)) := by
  refine ⟨fun m hm hw hc => ?_, fun hm hl hva hc => ?_⟩
  · simp only [exec, execTlbWalkCompletion, answer, hm, hw, any_poisoned_false hc, Bool.not_true, Bool.or_self, Bool.false_eq_true, if_false]
  · simp only [exec, execTlbWalkCompletion, answer, hm, hl, hva, any_poisoned_false hc, Bool.not_false, Bool.and_self, if_true]

/-! ## Streams -/

/-- An input stream with room, elements left, a tracker and its fences done reads its next element, or holds its fault (R216). -/
theorem streamElement_read {s : State} {c k r : Nat} {p : Port} (hp : (s.slot c k).port r = some p) (hk : p.kind = .input)
    (hs : (s.core c).saved = false) (hf : p.fault = none) (hb : p.buf.length < 8) :
    let n := s.perPop r p
    let i := p.done + n * p.buf.length
    let cs := p.held (p.buf.length + 1)
    let asks := p.ask (128 - (s.core c).asked) n
    i < p.count → s.condsDone cs = true → asks ≠ 0 →
      (∀ s2 vs w, s.streamRead c k p (s.afterConds p.pts cs) (p.span i n) = .ok (s2, vs, w) →
        exec (.streamElementArrival c k r) s = .next (s2.setSlot c k ((s2.slot c k).setPort r
          { p with buf := p.buf ++ [⟨portValue r p.ty vs, w⟩], asked := asks - 1 })))
      ∧ (∀ f, s.streamRead c k p (s.afterConds p.pts cs) (p.span i n) = .bad f →
        exec (.streamElementArrival c k r) s = .next ((s.noteFault (.slot c k) f).setSlot c k ((s.slot c k).setPort r { p with asked := 0, fault := some f }))) := by
  intro n i cs asks hi hc ha
  have hgo : (p.kind != .input || p.fault.isSome || (s.core c).saved || decide (8 ≤ p.buf.length) || decide (p.count ≤ i) || !s.condsDone cs
      || decide (asks = 0)) = false := by
    simp [hk, hf, hs, hc, ha, hb, hi]
  refine ⟨fun s2 vs w h => ?_, fun f h => ?_⟩
  · simp only [exec, execStreamElementArrival, answer, hp]
    rw [if_neg (by simpa using hgo), h]
  · simp only [exec, execStreamElementArrival, answer, hp]
    rw [if_neg (by simpa using hgo), h]

/-- An output stream with appends requested, a tracker each, and its fences done writes append `j`, the one in place `i`, or holds its
fault (R206, R216). -/
theorem State.writeAppend_requested {t : State} {c k r i j : Nat} {p : Port} (hp : (t.slot c k).port r = some p) (hk : p.kind = .output)
    (hf : p.fault = none) :
    let asks := p.askWrites (128 - (t.core c).asked)
    let n := t.perPop r p
    let x := (p.buf[j]?).getD ⟨0, 0⟩
    let cs := p.held (p.ahead + j + 1)
    (p.unwritten.take asks)[i % max 1 asks]? = some j → t.condsDone cs = true →
    (∀ s2 w, t.streamWrite c k p (t.afterConds p.pts cs) (p.appendElems r ((p.ahead + j) * n) n x.val) = .ok (s2, w) →
      let y := (s2.core c).noteFence (fun z => match z with
        | .stream c' k' r' b n => c' == c && k' == k && r' == r && b == p.num && decide (p.ahead + j < n)
        | _ => false) w
      t.writeAppend c k r i = s2.setCore c (Core.setSlot { y with smark := max y.smark w } k ((y.slot k).setPort r { p.written j w with asked := asks - 1 })))
    ∧ (∀ f, t.streamWrite c k p (t.afterConds p.pts cs) (p.appendElems r ((p.ahead + j) * n) n x.val) = .bad f →
      t.writeAppend c k r i = (t.noteFault (.slot c k) f).setSlot c k ((t.slot c k).setPort r { p with asked := 0, fault := some f })) := by
  intro asks n x cs hj hc
  have hgo : (p.kind != .output || p.fault.isSome || !(false || t.condsDone (p.held (p.ahead + j + 1)))) = false := by
    simpa [hk, hf] using hc
  refine ⟨fun s2 w h => ?_, fun f h => ?_⟩
  · simp only [State.writeAppend, hp]
    rw [hj]
    simp only [hgo, Bool.false_eq_true, if_false]
    rw [h] <;> rfl
  · simp only [State.writeAppend, hp]
    rw [hj]
    simp only [hgo, Bool.false_eq_true, if_false]
    rw [h]

/-- Settles O35, each event by the case of its meaning that its conditions select. -/
theorem repliesFillsAndWalksArrive : Obligations.RepliesFillsAndWalksArrive := by
  refine ⟨⟨fun s w h => replyArrival_due h, fun s w e hst hv hr ho => replyArrival_completion hst hv hr ho,
      fun s c k ln hw h => fetchLineArrival_comes hw h, fun s c k h => fetchLineArrival_ahead h,
      fun s c k e hr hw hb => followJoin_or_timeout hr hw hb, fun s s2 i m hm hway hp hf => remoteFillArrival_applied hm hway hp hf⟩,
    fun s c k r p hp hk hs hf hb => streamElement_read hp hk hs hf hb, fun s c k r p j hp hk hf => ?_,
    fun s c p hu hp => pageRefill_pins hu hp, fun s c va => tlbWalk_ends s c va⟩
  intro asks hj t n x cs hc
  obtain ⟨hok, hbad⟩ := State.writeAppend_requested (t := s.popPick) (i := s.env.pick.headD 0) hp hk hf hj hc
  exact ⟨fun s2 w h => congrArg Host.Outcome.next (hok s2 w h), fun f h => congrArg Host.Outcome.next (hbad f h)⟩

end Sys2Proof.Machine
end

section
/-! SUPPORT. Which sticky flags the operations on numbers gather (R42, R44): IV, DZ, OF, UF, NX and SAT, and of scalar instructions SAT
and DZ alone. -/

namespace Sys2Proof.Machine

/-- A flag word sets bits of `m` alone. -/
def Within (m fl : Word) : Prop := fl &&& ~~~m = 0#64

/-- IV, DZ, OF, UF, NX and SAT. -/
def arithFlags : Word := 0x3F

/-- DZ and SAT. -/
def scalarFlags : Word := 0x22

@[simp] theorem within_zero (m : Word) : Within m 0#64 := BitVec.zero_and

@[simp] theorem within_or {m a b : Word} (ha : Within m a) (hb : Within m b) : Within m (a ||| b) := by
  unfold Within at *
  rw [BitVec.and_comm, BitVec.and_or_distrib_left, BitVec.and_comm, ha, BitVec.and_comm, hb, BitVec.or_zero]

@[simp] theorem within_and {m a b : Word} (ha : Within m a) : Within m (a &&& b) := by
  unfold Within at *
  rw [BitVec.and_assoc, BitVec.and_comm b, ← BitVec.and_assoc, ha, BitVec.zero_and]

@[simp] theorem within_flagIf {m f : Word} (c : Bool) (h : Within m f) : Within m (flagIf c f) := by
  unfold flagIf
  split
  · exact h
  · exact within_zero m

theorem Within.arith {fl : Word} (h : Within scalarFlags fl) : Within arithFlags fl := by
  have hm : ~~~arithFlags = ~~~scalarFlags &&& ~~~arithFlags := by decide
  unfold Within at *
  rw [hm, ← BitVec.and_assoc, h, BitVec.zero_and]

@[simp] theorem within_IV : Within arithFlags flagIV := rfl
@[simp] theorem within_DZ : Within arithFlags flagDZ := rfl
@[simp] theorem within_OF : Within arithFlags flagOF := rfl
@[simp] theorem within_UF : Within arithFlags flagUF := rfl
@[simp] theorem within_NX : Within arithFlags flagNX := rfl
@[simp] theorem within_SAT : Within arithFlags flagSAT := rfl
@[simp] theorem scalar_DZ : Within scalarFlags flagDZ := rfl
@[simp] theorem scalar_SAT : Within scalarFlags flagSAT := rfl

theorem ite_within {m : Word} {c : Prop} [Decidable c] {a b : Nat × Word} (ha : Within m a.2) (hb : Within m b.2) :
    Within m (if c then a else b).2 := by
  split
  · exact ha
  · exact hb

/-! ## Integers (R37, R38, R139, R144) -/

@[simp] theorem sati_scalar (t : Nat) (v : Int) : Within scalarFlags (sati t v).2 := by
  unfold sati
  split
  · simp
  · split <;> simp

@[simp] theorem narrow_scalar (t : Nat) (sat : Bool) (v : Int) : Within scalarFlags (narrow t sat v).2 := by
  unfold narrow
  split <;> simp

@[simp] theorem divInt_scalar (t : Nat) (a b : Int) : Within scalarFlags (divInt t a b).2 := by
  unfold divInt
  split
  · simp
  · split <;> simp

@[simp] theorem remInt_scalar (t : Nat) (a b : Int) : Within scalarFlags (remInt t a b).2 := by
  unfold remInt
  split
  · simp
  · split <;> simp

@[simp] theorem shlInt_scalar (t : Nat) (sat : Bool) (a : Int) (s : Nat) : Within scalarFlags (shlInt t sat a s).2 := by
  unfold shlInt
  dsimp only
  split
  · simp
  · split <;> simp

@[simp] theorem sati_arith (t : Nat) (v : Int) : Within arithFlags (sati t v).2 := (sati_scalar t v).arith
@[simp] theorem narrow_arith (t : Nat) (sat : Bool) (v : Int) : Within arithFlags (narrow t sat v).2 := (narrow_scalar t sat v).arith
@[simp] theorem shlInt_arith (t : Nat) (sat : Bool) (a : Int) (s : Nat) : Within arithFlags (shlInt t sat a s).2 := (shlInt_scalar t sat a s).arith

/-! ## Floating values (R42-R46) -/

@[simp] theorem sigFlag_arith (xs : List FVal) : Within arithFlags (sigFlag xs) := by simp [sigFlag]

@[simp] theorem roundF_arith (t : Nat) (r : Rnd) (neg : Bool) (m : Nat) (e : Int) (sticky : Bool) : Within arithFlags (roundF t r neg m e sticky).2 := by
  exact ite_within (within_zero _) (ite_within (ite_within (by simp) (by simp)) (by simp))

@[simp] theorem roundInt_arith (t : Nat) (r : Rnd) (v e : Int) (z : Bool) : Within arithFlags (roundInt t r v e z).2 := by
  unfold roundInt
  split <;> simp

@[simp] theorem faddV_arith (t : Nat) (r : Rnd) (a b : FVal) : Within arithFlags (faddV t r a b).2 := by
  unfold faddV
  split
  · simp
  · simp
  · split <;> simp
  · simp
  · simp
  · simp

@[simp] theorem fmulV_arith (a b : FVal) : Within arithFlags (fmulV a b).2 := by
  unfold fmulV
  split
  · simp
  · simp
  · simp
  · split <;> simp
  · split <;> simp
  · simp

@[simp] theorem froundV_arith (t : Nat) (r : Rnd) (x : FVal) : Within arithFlags (froundV t r x).2 := by
  cases x <;> simp [froundV]

@[simp] theorem fmul_arith (t : Nat) (r : Rnd) (a b : FVal) : Within arithFlags (fmul t r a b).2 := by simp [fmul]

@[simp] theorem ffma_arith (t : Nat) (r : Rnd) (a b c : FVal) : Within arithFlags (ffma t r a b c).2 := by simp [ffma]

@[simp] theorem fminmax_arith (t : Nat) (isMax : Bool) (x y : Nat) : Within arithFlags (fminmax t isMax x y).2 := by
  unfold fminmax
  dsimp only
  repeat' split
  all_goals simp

@[simp] theorem cvtFF_arith (t : Nat) (r : Rnd) (x : FVal) : Within arithFlags (cvtFF t r x).2 := by
  cases x with
  | nan s => simp [cvtFF]
  | inf n =>
    unfold cvtFF
    dsimp only
    split
    · simp
    · split <;> simp
  | fin n m e => simp [cvtFF]

@[simp] theorem cvtFI_arith (t : Nat) (r : Rnd) (x : FVal) : Within arithFlags (cvtFI t r x).2 := by
  cases x with
  | nan s => simp [cvtFI]
  | inf n => simp [cvtFI]
  | fin n m e =>
    unfold cvtFI
    dsimp only
    split
    · simp
    · split <;> simp

@[simp] theorem cvtIF_arith (t : Nat) (r : Rnd) (v : Int) : Within arithFlags (cvtIF t r v).2 := by simp [cvtIF]

/-! ## l6 and the chunk rule (R50, R51, R56, R57) -/

@[simp] theorem l6Mul_arith (a b : Nat) : Within arithFlags (l6Mul a b).2 := by
  unfold l6Mul
  split
  · simp
  · simp
  · simp
  · simp
  · dsimp only
    split
    · simp
    · split <;> simp

@[simp] theorem toL6_arith (x : FVal) : Within arithFlags (toL6 x).2 := by
  unfold toL6
  split
  · simp
  · simp
  · split
    · simp
    · dsimp only
      split
      · simp
      · split <;> simp

@[simp] theorem faddExact_arith (a b : FVal) : Within arithFlags (faddExact a b).2 := by
  unfold faddExact
  split
  · simp
  · simp
  · split <;> simp
  · simp
  · simp
  · simp

@[simp] theorem mulV_arith (ta a tb b : Nat) : Within arithFlags (mulV ta a tb b).2 := by
  unfold mulV
  split
  · split <;> simp
  · simp

theorem chunkFold_arith (ps : List (FVal × Word)) (s : FVal × Word) (hp : ∀ p ∈ ps, Within arithFlags p.2) (hs : Within arithFlags s.2) :
    Within arithFlags (chunkFold ps s).2 := by
  induction ps generalizing s with
  | nil => exact hs
  | cons p ps ih =>
    obtain ⟨h1, h2⟩ := List.forall_mem_cons.mp hp
    exact ih _ h2 (by simp [hs, h1])

theorem chunkSum_arith (ps : List (FVal × Word)) (s : FVal × Word) (hp : ∀ p ∈ ps, Within arithFlags p.2) (hs : Within arithFlags s.2) :
    Within arithFlags (chunkSum ps s).2 := by
  have h := chunkFold_arith ps s hp hs
  unfold chunkSum
  dsimp only
  split
  · simp [h]
  · exact h

theorem chunkAcc_arith (acc : Nat) (s : FVal × Word) (k : Int) (hs : Within arithFlags s.2) : Within arithFlags (chunkAcc acc s k).2 := by
  unfold chunkAcc
  dsimp only
  split <;> simp [hs]

@[simp] theorem chunkInt_arith (sat : Bool) (acc : Nat) (s : Int) : Within arithFlags (chunkInt sat acc s).2 := by simp [chunkInt]

theorem orFlags_within {m : Word} (xs : List Word) (h : ∀ x ∈ xs, Within m x) : Within m (orFlags xs) := by
  induction xs with
  | nil => exact within_zero m
  | cons x xs ih =>
    obtain ⟨hx, hxs⟩ := List.forall_mem_cons.mp h
    exact within_or hx (ih hxs)

theorem orFlags_map_within {α : Type} {m : Word} (xs : List α) (f : α → Word) (h : ∀ x, Within m (f x)) : Within m (orFlags (xs.map f)) :=
  orFlags_within _ fun _ hy => by
    obtain ⟨x, -, rfl⟩ := List.mem_map.mp hy
    exact h x

/-! ## Elements (R157, R162) -/

@[simp] theorem elAdd_arith (sat : Bool) (r : Rnd) (t x y : Nat) : Within arithFlags (elAdd sat r t x y).2 := ite_within (by simp) (by simp)
@[simp] theorem elSub_arith (sat : Bool) (r : Rnd) (t x y : Nat) : Within arithFlags (elSub sat r t x y).2 := ite_within (by simp) (by simp)
@[simp] theorem elMul_arith (sat : Bool) (r : Rnd) (t x y : Nat) : Within arithFlags (elMul sat r t x y).2 := ite_within (by simp) (by simp)
@[simp] theorem elFma_arith (sat : Bool) (r : Rnd) (t x y z : Nat) : Within arithFlags (elFma sat r t x y z).2 := ite_within (by simp) (by simp)
@[simp] theorem elMin_arith (t x y : Nat) : Within arithFlags (elMin t x y).2 := ite_within (by simp) (by simp)
@[simp] theorem elMax_arith (t x y : Nat) : Within arithFlags (elMax t x y).2 := ite_within (by simp) (by simp)
@[simp] theorem elAbs_arith (sat : Bool) (t x : Nat) : Within arithFlags (elAbs sat t x).2 := ite_within (by simp) (by simp)
@[simp] theorem elClamp_arith (t x lo hi : Nat) : Within arithFlags (elClamp t x lo hi).2 := by simp [elClamp]

theorem State.writeElems_arith (s : State) (f : FmtR) (t lo m : Nat) (g : Nat → Nat × Word) (hg : ∀ i, Within arithFlags (g i).2) :
    Within arithFlags (s.writeElems f t lo m g).2 := by
  unfold State.writeElems
  dsimp only
  rw [List.map_map]
  refine orFlags_map_within _ _ fun i => ?_
  exact ite_within (ite_within (hg i) (within_zero _)) (within_zero _)

@[simp] theorem redOp_arith (op : Nat) (sat : Bool) (r : Rnd) (t x y : Nat) : Within arithFlags (redOp op sat r t x y).2 := by
  unfold redOp
  split <;> simp

theorem redLevel_arith {f : Nat → Nat → Nat × Word} (hf : ∀ x y, Within arithFlags (f x y).2) (xs : List Nat) :
    Within arithFlags (redLevel f xs).2 := by
  induction xs using redLevel.induct (f := f) with
  | case1 x y xs ih => exact within_or (hf x y) ih
  | case2 xs h => simp [redLevel]

theorem redTree_arith {f : Nat → Nat → Nat × Word} (hf : ∀ x y, Within arithFlags (f x y).2) (k : Nat) (xs : List Nat) :
    Within arithFlags (redTree f k xs).2 := by
  induction k generalizing xs with
  | zero => exact within_zero _
  | succ k ih => exact within_or (redLevel_arith hf xs) (ih _)

theorem scanFrom_arith {f : Nat → Nat → Nat × Word} (hf : ∀ x y, Within arithFlags (f x y).2) (acc : Nat) (xs : List Nat) :
    ∀ z ∈ scanFrom f acc xs, Within arithFlags z.2 := by
  induction xs generalizing acc with
  | nil => simp [scanFrom]
  | cons x xs ih => exact List.forall_mem_cons.mpr ⟨hf acc x, ih _⟩

@[simp] theorem cvtElem_arith (sat : Bool) (r : Rnd) (ts td x : Nat) : Within arithFlags (cvtElem sat r ts td x).2 := by
  unfold cvtElem
  repeat' split
  all_goals simp

@[simp] theorem split3_arith (x : Nat) : Within arithFlags (split3 x).2 := by
  unfold split3
  split <;> simp

@[simp] theorem quantElem_arith (t : Nat) (r : Rnd) (c : Nat) (x : FVal) : Within arithFlags (quantElem t r c x).2 := by
  unfold quantElem
  split
  · simp
  · split
    · split <;> simp
    · simp

theorem baddqBlock_arith (t : Nat) (xa xb : List Nat) (sa sb : Nat) : Within arithFlags (baddqBlock t xa xb sa sb).2.2 := by
  unfold baddqBlock
  dsimp only
  refine within_or ?_ ?_
  · rw [List.map_map]
    refine orFlags_map_within _ _ fun p => ?_
    dsimp only [Function.comp]
    split <;> simp
  · rw [List.map_map, List.map_map]
    refine orFlags_map_within _ _ fun p => ?_
    dsimp only [Function.comp]
    split <;> simp

end Sys2Proof.Machine
end

section
/-! SUPPORT. Why the statement on memory instructions fails where the current thread is a slot that no core has (O51). -/

namespace Sys2Proof.Machine

/-- The device at reset, whose current thread is slot 16 of core 0: a core has slots 0 to 15 only, and the statement does not say so where
it speaks of memory and scratchpads. -/
def slot16 : State := { State.reset with cur := .slot 0 16 }

/-- A load of eight bytes at address 1, which is misaligned: D = g1, A and B = zr, displacement 1. -/
def misalignedLoad : FmtR := { ty := 8, d := 1, a := 112, b := 112, imm := 1 }

theorem slot16_ready : readyNow (.ld misalignedLoad) slot16 = true := by decide +kernel

/-- The state that the load's fault leaves. -/
def slot16Next : State := slot16.run (.ld misalignedLoad) (some .reply) (ldBody misalignedLoad)

theorem slot16_exec : exec (.ld misalignedLoad) slot16 = .next slot16Next := rfl

theorem slot16_notFaulted : slot16Next.thread.st ≠ .faulted := by decide +kernel

/-- The fault record has entered the fault queue in the scratchpad of core 0: its TAIL, at offset 0x3FF000, was 0 and is 1 (R373). -/
theorem slot16_record : Memory.get (slot16.core 0).scr 4190208 = 0#8 ∧ Memory.get (slot16Next.core 0).scr 4190208 = 1#8 := by decide +kernel

theorem ready_of_readyNow {i : Instr} {s : State} (h : readyNow i s = true) : ∃ s1 e, Ready i s s1 e := by
  unfold readyNow at h
  obtain ⟨hc, hp⟩ := (Bool.and_eq_true ..).mp h
  cases hr : s.prepare (usesOf i s.thread.ety s.part.vw s.isSys) with
  | ok r => exact ⟨r.1, r.2, Option.isNone_iff_eq_none.mp hc, hr⟩
  | bad f => rw [hr] at hp; cases hp
  | wait w => rw [hr] at hp; cases hp

/-- Refutes O51: a load that faults in a slot numbered 16, which no core has, enters its fault record in the scratchpad of the core while
no thread becomes FAULTED. -/
theorem not_memoryInstructionsChangeOnlyTheirBytes : ¬ Obligations.MemoryInstructionsChangeOnlyTheirBytes := by
  intro h
  obtain ⟨s1, e, hready⟩ := ready_of_readyNow slot16_ready
  obtain ⟨-, hscr⟩ := ((h misalignedLoad slot16 s1 e).1 (.ld misalignedLoad) (by simp) hready _ slot16_exec slot16_notFaulted).1
  obtain ⟨hbefore, hafter⟩ := slot16_record
  have hsame := hscr 0 4190208 (by simp)
  rw [hafter, hbefore] at hsame
  exact absurd hsame (by decide)

end Sys2Proof.Machine
end

section
/-! SUPPORT. A fetch and a translation change no slot (R64, R68, R343). -/

namespace Sys2Proof.Machine

/-- Every slot of every core is as it was, and the same thread is current. -/
structure State.SameSlots (s t : State) : Prop where
  cur : t.cur = s.cur
  slots : ∀ d, (t.core d).slots = (s.core d).slots

namespace State.SameSlots

variable {s t u : State}

theorem refl (s : State) : SameSlots s s := ⟨rfl, fun _ => rfl⟩

theorem trans (h1 : SameSlots s t) (h2 : SameSlots t u) : SameSlots s u :=
  ⟨h2.cur.trans h1.cur, fun d => (h2.slots d).trans (h1.slots d)⟩

/-- What leaves the cores, and the current thread, as they are. -/
theorem of_cores (hc : t.cur = s.cur) (h : t.cores = s.cores) : SameSlots s t :=
  ⟨hc, fun d => by simp [State.core, h]⟩

theorem setEnv {e : Env} (h : SameSlots s t) : SameSlots s { t with env := e } := h.trans (of_cores rfl rfl)

theorem setCore {c : Nat} {x : Core} (h : x.slots = (s.core c).slots) : SameSlots s (s.setCore c x) := by
  refine ⟨rfl, fun d => ?_⟩
  by_cases hd : d = c
  · subst hd; rw [State.core_setCore_self, h]
  · rw [State.core_setCore_ne _ _ hd]

theorem slot (h : SameSlots s t) (c k : Nat) : t.slot c k = s.slot c k := by
  unfold State.slot Core.slot
  rw [h.slots c]

end State.SameSlots

theorem foldl_sameSlots {α : Type} {f : State → α → State} (h : ∀ s x, State.SameSlots s (f s x)) (l : List α) (s : State) :
    State.SameSlots s (l.foldl f s) := by
  induction l generalizing s with
  | nil => exact .refl s
  | cons x l ih => exact (h s x).trans (ih _)

theorem ite_sameSlots {c : Prop} [Decidable c] {s a b : State} (ha : State.SameSlots s a) (hb : State.SameSlots s b) :
    State.SameSlots s (if c then a else b) := by
  split
  · exact ha
  · exact hb

/-! ## Counters -/

theorem Core.addFixed_slots (c : Core) (i n : Nat) : (c.addFixed i n).slots = c.slots := by
  unfold Core.addFixed
  split <;> rfl

/-- A fold of steps that each keep a value keeps it. -/
theorem foldl_keeps {α β γ : Type} (p : β → γ) {f : β → α → β} (h : ∀ b a, p (f b a) = p b) (l : List α) (b : β) : p (l.foldl f b) = p b := by
  induction l generalizing b with
  | nil => rfl
  | cons x l ih => rw [List.foldl_cons, ih, h]

theorem Core.count_slots (c : Core) (ev k : Nat) : (c.count ev k).slots = c.slots := by
  unfold Core.count
  split
  · rfl
  · refine foldl_keeps Core.slots (fun b i => ?_) _ c
    split <;> rfl

theorem State.reportSkew_sameSlots (s : State) : SameSlots s s.reportSkew := .of_cores rfl rfl

theorem State.countFor_sameSlots (s : State) (w : Who) (ev : Nat) : SameSlots s (s.countFor w ev) := by
  unfold State.countFor
  split
  · exact .setCore (Core.count_slots ..)
  · exact .refl s

theorem State.setFold_sameSlots (s : State) (f : Nat) (x : Fold) : SameSlots s (s.setFold f x) := .of_cores rfl rfl

theorem State.countSkew_sameSlots (s : State) (l : Loc) (ts : Nat) : SameSlots s (s.countSkew l ts) := by
  refine ite_sameSlots (.refl s) ?_
  split
  · exact (SameSlots.setCore (Core.addFixed_slots ..)).trans (State.reportSkew_sameSlots _)
  · unfold State.skewFold
    refine .trans ?_ (State.reportSkew_sameSlots _)
    exact .trans (State.setFold_sameSlots ..) (foldl_sameSlots (fun _ _ => .setCore (Core.addFixed_slots ..)) ..)

/-! ## Reads at homes and translations -/

theorem State.setPresent_cores (s : State) (ln : Nat) (b : Bool) : (s.setPresent ln b).cores = s.cores ∧ (s.setPresent ln b).cur = s.cur := by
  unfold State.setPresent
  split <;> exact ⟨rfl, rfl⟩

theorem State.holdLine_sameSlots (s : State) (pa wts rts : Nat) (alloc dirty : Bool) : SameSlots s (s.holdLine pa wts rts alloc dirty) := by
  unfold State.holdLine
  dsimp only
  split
  · exact .of_cores rfl rfl
  · refine ite_sameSlots ?_ (.of_cores rfl rfl)
    exact .of_cores (State.setPresent_cores ..).2 (State.setPresent_cores ..).1

theorem State.homeRead_sameSlots (s : State) (l : Loc) (ts lam : Nat) (alloc : Bool) : SameSlots s (s.homeRead l ts lam alloc).1 := by
  unfold State.homeRead
  cases l with
  | scr k off => exact (s.countSkew_sameSlots ..).trans (.setCore rfl)
  | mem pa => exact (s.countSkew_sameSlots ..).trans (State.holdLine_sameSlots ..)

theorem State.touchWalk_sameSlots (s : State) (path : List Nat) : SameSlots s (s.touchWalk path) :=
  foldl_sameSlots (fun _ _ => State.homeRead_sameSlots ..) path s

theorem State.enterLeaf_sameSlots (s : State) (c sp va : Nat) (l : Leaf) : SameSlots s (s.enterLeaf c sp va l) := by
  have hf : ∀ (s : State) (p : Prop) [Decidable p] (f : Nat) (x : Fold), SameSlots s (if p then s.setFold f x else s) := fun s p _ f x =>
    ite_sameSlots (.of_cores rfl rfl) (.refl s)
  unfold State.enterLeaf
  dsimp only
  refine (SameSlots.setCore (c := c) ?_).trans ((hf _ _ _ _).trans (ite_sameSlots (.of_cores rfl rfl) (ite_sameSlots (.of_cores rfl rfl) (.refl _))))
  rfl

theorem State.tlbEnter_sameSlots (s : State) (w : Who) (va : Nat) : SameSlots s (s.tlbEnter w va) := by
  refine ite_sameSlots (.refl s) ?_
  refine (s.countFor_sameSlots w 13).trans ?_
  split
  · exact State.enterLeaf_sameSlots ..
  · dsimp only
    split
    · exact .trans (.setEnv (.trans (State.countFor_sameSlots ..) (State.touchWalk_sameSlots ..))) (State.enterLeaf_sameSlots ..)
    · exact .setEnv (.trans (State.countFor_sameSlots ..) (State.touchWalk_sameSlots ..))

theorem State.noteFault_sameSlots (s : State) (w : Who) (f : FaultInfo) : SameSlots s (s.noteFault w f) := by
  unfold State.noteFault
  split
  · exact .refl s
  · exact ite_sameSlots (State.tlbEnter_sameSlots ..) (.refl s)

/-! ## Code lines -/

theorem aget_map_slots {f : Nat × Core → Nat × Core} (hf : ∀ y, (f y).1 = y.1 ∧ (f y).2.slots = y.2.slots) (l : List (Nat × Core)) (d : Nat) :
    (((aget (l.map f) d).getD Core.initial).slots) = ((aget l d).getD Core.initial).slots := by
  induction l with
  | nil => rfl
  | cons y l ih =>
    obtain ⟨h1, h2⟩ := hf y
    rw [List.map_cons, show f y = ((f y).1, (f y).2) from rfl, show y = (y.1, y.2) from rfl]
    simp only [aget, h1]
    split
    · exact h2
    · exact ih

theorem State.dieFill_sameSlots (s : State) (c ln : Nat) (x : Line) : SameSlots s (s.dieFill c ln x) := by
  unfold State.dieFill
  split
  · exact .refl s
  · refine ⟨rfl, fun d => aget_map_slots (fun y => ?_) s.cores d⟩
    split <;> exact ⟨rfl, rfl⟩

theorem State.codeInstall_sameSlots (s : State) (c ln k : Nat) (x : Line) : SameSlots s (s.codeInstall c ln k x) := by
  unfold State.codeInstall
  dsimp only
  have h1 := ite_sameSlots (c := 1 ≤ k) (SameSlots.setCore (s := s) (c := c) (x := { s.core c with l1i := cachePut 512 (s.core c).l1i ln x }) rfl) (.refl s)
  have hf : ∀ (t : State) (p : Prop) [Decidable p] (f : Nat) (y : Fold), SameSlots t (if p then t.setFold f y else t) := fun t p _ f y =>
    ite_sameSlots (.of_cores rfl rfl) (.refl t)
  have hd : ∀ (t : State) (p : Prop) [Decidable p] (f : Nat) (y : Die), SameSlots t (if p then t.setDie f y else t) := fun t p _ f y =>
    ite_sameSlots (.of_cores rfl rfl) (.refl t)
  exact ((h1.trans (hf _ _ _ _)).trans (hd _ _ _ _)).trans (ite_sameSlots (State.dieFill_sameSlots ..) (.refl _))

theorem State.fixMem_sameSlots (s : State) (ln : Nat) (x : Line) : SameSlots s (s.fixMem ln x) := .of_cores rfl rfl

theorem State.readCode_sameSlots (s : State) (c ln : Nat) : SameSlots s (s.readCode c ln).1 := by
  have hdone : ∀ (k : Nat) (r : Line × Bool), SameSlots s
      (let t := if k = 1 ∧ !r.2 then s else s.codeInstall c ln (if r.2 then k else k - 1) r.1
       if !r.2 then t else if k = 4 then t.fixMem ln r.1 else t.setCore c ((t.core c).addFixed 11 1)) := by
    intro k r
    refine (ite_sameSlots (.refl s) (State.codeInstall_sameSlots ..)).trans (ite_sameSlots (.refl _) (ite_sameSlots ?_ ?_))
    · exact State.fixMem_sameSlots ..
    · exact .setCore (Core.addFixed_slots ..)
  unfold State.readCode
  dsimp only
  split
  · exact .refl s
  · split
    · exact hdone ..
    · split
      · exact .refl s
      · split
        · exact hdone ..
        · exact .refl s

/-- The fetch that checks a branch's target changes no slot (R68). -/
theorem State.targetFetch_sameSlots {s : State} {c k : Nat} (pc : Word) (h : s.cur = .slot c k) : SameSlots s (s.targetFetch pc) := by
  unfold State.targetFetch State.fetch
  rw [h]
  dsimp only
  split
  · dsimp only
    exact State.noteFault_sameSlots ..
  · exact (State.tlbEnter_sameSlots ..).trans (State.readCode_sameSlots ..)

end Sys2Proof.Machine
end

section
/-! SUPPORT. What the effect of an instruction of a pair's classes adds to the completion that its reads begin (R77, R127, R140, R155,
R157): writes to its destinations, sticky flags and, of a branch, the target. -/

namespace Sys2Proof.Machine

/-! ## Destinations -/

/-- The register or registers that D names are written by `usesOf`. -/
def WritesReg (i : Instr) (d : BitVec 8) : Prop :=
  opName d < 96 → ∀ efmt vw sys, ∃ p ∈ (usesOf i efmt vw sys).writes, p.1 = opName d

/-- A write to a register that the instruction names as a destination, or to the predicate in its D. -/
def MayWrite (i : Instr) (w : Wr) : Prop :=
  (∀ r, w.reg? = some r → ∀ efmt vw sys, ∃ p ∈ (usesOf i efmt vw sys).writes, p.1 = r) ∧ ∀ n x, w = .p n x → ∃ d, dKind i = some d ∧ opName d = 96 + n

/-- D, where its kind is that of a register destination. -/
def regDest (i : Instr) : Option (BitVec 8) :=
  i.view.bind fun v => match v.spec.d with
    | .dst | .srcDst | .vdst => some v.body.d
    | _ => none

theorem mem_regsFrom {b : BitVec 8} {n j : Nat} (h : opName b < 96) (hj : j < n) : (opName b + j, opFlag b) ∈ regsFrom b n := by
  rw [regsFrom, if_pos h]
  exact List.mem_map.mpr ⟨j, List.mem_range.mpr hj, rfl⟩

theorem writesReg_of_regDest {i : Instr} {d : BitVec 8} (h : regDest i = some d) : WritesReg i d := by
  intro hd efmt vw sys
  unfold regDest at h
  cases hv : i.view with
  | none => simp [hv] at h
  | some v =>
    have hm : (opName d, opFlag d) ∈ regsFrom d 1 := mem_regsFrom hd Nat.one_pos
    refine ⟨(opName d, opFlag d), ?_, rfl⟩
    simp only [hv, Option.bind_some] at h
    split at h
    case h_4 => cases h
    all_goals
      next hk =>
        cases h
        simp [usesOf, hv, hk, usesOfKind, Uses.join, Uses.name, hm]

theorem wrS_mayWrite {i : Instr} {d : BitVec 8} (h : WritesReg i d) (x : Word) : ∀ w ∈ wrS d x, MayWrite i w := by
  intro w hw
  unfold wrS at hw
  split at hw
  · next hd =>
    cases List.mem_singleton.mp hw
    refine ⟨fun r hr => ?_, fun n x hn => nomatch hn⟩
    cases hr
    exact h (by omega)
  · cases hw

theorem wrV_mayWrite {i : Instr} {d : BitVec 8} (h : 64 ≤ opName d → WritesReg i d) (x : VReg) : ∀ w ∈ wrV d x, MayWrite i w := by
  intro w hw
  unfold wrV at hw
  split at hw
  · next hd =>
    cases List.mem_singleton.mp hw
    refine ⟨fun r hr => ?_, fun n x hn => nomatch hn⟩
    have hreg : r = opName d := by
      cases hr
      omega
    exact hreg ▸ h hd.1 hd.2
  · cases hw

theorem wrP_mayWrite {i : Instr} {d : BitVec 8} (h : dKind i = some d) (x : PReg) : ∀ w ∈ wrP d x, MayWrite i w := by
  intro w hw
  unfold wrP at hw
  split at hw
  · next hd =>
    cases List.mem_singleton.mp hw
    refine ⟨fun r hr => ?_, fun n x hn => ⟨d, h, ?_⟩⟩
    · cases hr
    · cases hn
      omega
  · cases hw

/-- A register that an instruction's own rule has it write. -/
theorem writesReg_extra {i : Instr} {v : View} {d : BitVec 8} (hv : i.view = some v)
    (h : opName d < 96 → ∀ t vw, ∃ p ∈ (extraUses v.spec.x v.body t vw).writes, p.1 = opName d) : WritesReg i d := by
  intro hd efmt vw sys
  obtain ⟨p, hp, hr⟩ := h hd (resolveTy efmt v.body.ty) vw
  refine ⟨p, ?_, hr⟩
  simp [usesOf, hv, Uses.join, hp]

/-- VSPLIT writes D and the two vector registers after it (R167). -/
theorem vsplit_writesReg (f : FmtR) {j : Nat} (hj : j < 3) (h : 64 ≤ opName (f.d + BitVec.ofNat 8 j)) : WritesReg (.vsplit f) (f.d + BitVec.ofNat 8 j) := by
  intro hd
  refine writesReg_extra (v := _) rfl (fun hd t vw => ?_) hd
  have hn : opName (f.d + BitVec.ofNat 8 j) = opName f.d + j := by
    simp only [opName, BitVec.extractLsb'_toNat, BitVec.toNat_add, BitVec.toNat_ofNat, Nat.shiftRight_zero] at *
    omega
  refine ⟨(opName f.d + j, opFlag f.d), ?_, hn.symm⟩
  simpa [extraUses, Uses.name, Body.d] using mem_regsFrom (by omega) hj

/-- VQNT writes C under .auto (R168). -/
theorem vqnt_writesReg {f : FmtR} (h : f.mod.getLsbD 4 = true) : WritesReg (.vqnt f) f.c := by
  refine writesReg_extra (v := _) rfl fun hd t vw => ?_
  refine ⟨(opName f.c, opFlag f.c), ?_, rfl⟩
  simpa [extraUses, Uses.name, Body.mod, Body.c, h] using mem_regsFrom hd Nat.one_pos

/-! ## What an effect adds -/

/-- The sticky flags that an instruction may set: DZ and SAT of the scalar operations, and the arithmetic ones of others. -/
def stickyMask (i : Instr) : Word :=
  match i.view with
  | some v => if 0x10 ≤ v.op ∧ v.op ≤ 0x12 then scalarFlags else arithFlags
  | none => arithFlags

/-- A completion that adds writes to destinations, sticky flags and a target to another. -/
structure Eff.Adds (i : Instr) (e e2 : Eff) : Prop where
  takes : e2.takes = e.takes
  late : e2.late = e.late
  pts : e2.pts = e.pts
  ms : e2.ms = e.ms
  setFlags : e2.setFlags = e.setFlags
  setEfmt : e2.setEfmt = e.setEfmt
  writes : ∀ w ∈ e2.writes, w ∈ e.writes ∨ MayWrite i w
  sticky : ∃ fl, Within (stickyMask i) fl ∧ e2.sticky = e.sticky ||| fl

namespace Eff.Adds

variable {i : Instr} {e e2 : Eff}

theorem refl (i : Instr) (e : Eff) : Adds i e e :=
  ⟨rfl, rfl, rfl, rfl, rfl, rfl, fun _ => .inl, 0#64, within_zero _, BitVec.or_zero.symm⟩

/-- The next PC, and whether a branch is taken, are no part of what is claimed. -/
theorem goes (h : Adds i e e2) (pc : Option Word) (b : Bool) : Adds i e { e2 with pc := pc, taken := b } :=
  ⟨h.takes, h.late, h.pts, h.ms, h.setFlags, h.setEfmt, h.writes, h.sticky⟩

theorem write (h : Adds i e e2) {ws : List Wr} (hw : ∀ w ∈ ws, MayWrite i w) : Adds i e { e2 with writes := e2.writes ++ ws } :=
  ⟨h.takes, h.late, h.pts, h.ms, h.setFlags, h.setEfmt,
    fun w hm => (List.mem_append.mp hm).elim (h.writes w) fun hm => .inr (hw w hm), h.sticky⟩

theorem flag (h : Adds i e e2) {fl : Word} (hf : Within (stickyMask i) fl) : Adds i e { e2 with sticky := e2.sticky ||| fl } := by
  obtain ⟨fl', hf', hs⟩ := h.sticky
  exact ⟨h.takes, h.late, h.pts, h.ms, h.setFlags, h.setEfmt, h.writes, fl' ||| fl, within_or hf' hf, by rw [hs, BitVec.or_assoc]⟩

end Eff.Adds

/-- How the effect of an instruction of a pair's classes ends: in a fault, at a target's line that is not at hand, or in a completion that
adds to its reads, from the state after them or from the one that the fetch of a target left. -/
def Res.EndsAs (i : Instr) (s : State) (e : Eff) : Res → Prop
  | .fault _ => True
  | .park w => ∃ ln, w = .line ln
  | .done t e2 => (t = s ∨ ∃ pc, branchTarget i s = some pc ∧ t = s.targetFetch pc) ∧ e.Adds i e2
  | .sent _ _ => False

section
variable {i : Instr} {s : State} {e e2 : Eff}

theorem endsAs_ite {c : Prop} [Decidable c] {r r' : Res} (h : r.EndsAs i s e) (h' : r'.EndsAs i s e) : (if c then r else r').EndsAs i s e := by
  split
  · exact h
  · exact h'

theorem takeTo_endsAs {pc : Word} (h : branchTarget i s = some pc) (he : e.Adds i e2) : (takeTo s e2 pc).EndsAs i s e := by
  unfold takeTo
  split
  · exact ⟨_, rfl⟩
  · split
    · trivial
    · exact ⟨.inr ⟨pc, h, rfl⟩, he.goes _ _⟩

theorem takeLinear_endsAs {n : Int} (h : branchTarget i s = pcOfInt n) (he : e.Adds i e2) : (takeLinear s e2 n).EndsAs i s e := by
  unfold takeLinear
  split
  · next hp => exact takeTo_endsAs (h.trans hp) he
  · trivial

theorem withLink_adds {d : BitVec 8} (h : regDest i = some d) (n : Nat) : e.Adds i (withLink s e d n) :=
  (Eff.Adds.refl i e).write (wrS_mayWrite (writesReg_of_regDest h) _)

theorem doneS_endsAs {d : BitVec 8} {x fl : Word} (h : regDest i = some d) (hf : Within (stickyMask i) fl) : (doneS s e d x fl).EndsAs i s e :=
  ⟨.inl rfl, ((Eff.Adds.refl i e).write (wrS_mayWrite (writesReg_of_regDest h) x)).flag hf⟩

theorem doneV_endsAs {d : BitVec 8} {x : VReg} {fl : Word} (h : regDest i = some d) (hf : Within (stickyMask i) fl) :
    (doneV s e d x fl).EndsAs i s e :=
  ⟨.inl rfl, ((Eff.Adds.refl i e).write (wrV_mayWrite (fun _ => writesReg_of_regDest h) x)).flag hf⟩

theorem doneP_endsAs {d : BitVec 8} {x : PReg} {fl : Word} (h : dKind i = some d) (hf : Within (stickyMask i) fl) :
    (doneP s e d x fl).EndsAs i s e :=
  ⟨.inl rfl, ((Eff.Adds.refl i e).write (wrP_mayWrite h x)).flag hf⟩

/-- One that writes a scalar D and sets no flag. -/
theorem doneS_plain {d : BitVec 8} {x : Word} (h : regDest i = some d) : (doneS s e d x).EndsAs i s e := doneS_endsAs h (within_zero _)

/-- The masks of the scalar operations, and of the others (R140, R155). -/
theorem doneNarrow_endsAs {f : FmtR} {v : Int} (h : regDest i = some f.d) (hm : stickyMask i = scalarFlags) : (doneNarrow s e f v).EndsAs i s e :=
  doneS_endsAs h (hm ▸ narrow_scalar ..)

theorem doneElems_endsAs {f : FmtR} {t : Nat} {g : Nat → Nat × Word} (h : regDest i = some f.d) (hm : stickyMask i = arithFlags)
    (hg : ∀ j, Within arithFlags (g j).2) : (doneElems s e f t g).EndsAs i s e :=
  doneV_endsAs h (hm ▸ s.writeElems_arith _ _ _ _ _ hg)

theorem vec1_endsAs {f : FmtR} {op : Nat → Nat → Nat × Word} (h : regDest i = some f.d) (hm : stickyMask i = arithFlags)
    (hg : ∀ t x, Within arithFlags (op t x).2) : (vec1 s e f op).EndsAs i s e := doneElems_endsAs h hm fun _ => hg ..

theorem vec2_endsAs {f : FmtR} {op : Nat → Nat → Nat → Nat × Word} (h : regDest i = some f.d) (hm : stickyMask i = arithFlags)
    (hg : ∀ t x y, Within arithFlags (op t x y).2) : (vec2 s e f op).EndsAs i s e := doneElems_endsAs h hm fun _ => hg ..

theorem vec3_endsAs {f : FmtR} {op : Nat → Nat → Nat → Nat → Nat × Word} (h : regDest i = some f.d) (hm : stickyMask i = arithFlags)
    (hg : ∀ t x y z, Within arithFlags (op t x y z).2) : (vec3 s e f op).EndsAs i s e := doneElems_endsAs h hm fun _ => hg ..

end

end Sys2Proof.Machine
end

section
/-! SUPPORT. How each instruction of a pair's classes ends (R77, R127, R140, R155). -/

namespace Sys2Proof.Machine

section
variable (s : State) (e : Eff)

/-! ## Branches and scalars whose effect is more than one write -/

theorem brcBody_endsAs (f : FmtB) (n : Nat) : (brcBody f n s e).EndsAs (.brc f) s e := by
  unfold brcBody
  exact endsAs_ite (takeLinear_endsAs rfl (.refl ..)) ⟨.inl rfl, (Eff.Adds.refl ..).goes _ e.taken⟩

theorem dbnzBody_endsAs (f : FmtB) (n : Nat) : (dbnzBody f n s e).EndsAs (.dbnz f) s e := by
  have he : e.Adds (.dbnz f) { e with writes := e.writes ++ wrS f.d (s.rs f.d - 1) } :=
    (Eff.Adds.refl ..).write (wrS_mayWrite (writesReg_of_regDest rfl) _)
  unfold dbnzBody
  exact endsAs_ite (takeLinear_endsAs rfl he) ⟨.inl rfl, he.goes _ e.taken⟩

theorem extBody_endsAs (f : FmtR) : (extBody f s e).EndsAs (.ext f) s e := by
  unfold extBody
  exact endsAs_ite (doneS_endsAs rfl (sati_scalar ..)) (doneS_plain rfl)

/-! ## Vectors whose flags are gathered in their own way -/

theorem vcmpBody_endsAs (f : FmtR) : (vcmpBody f s e).EndsAs (.vcmp f) s e := by
  refine doneP_endsAs rfl ?_
  split
  · exact within_zero _
  · exact orFlags_map_within _ _ fun _ => within_flagIf _ within_IV

theorem vsplitBody_endsAs (f : FmtR) : (vsplitBody f s e).EndsAs (.vsplit f) s e := by
  have hw : ∀ j < 3, ∀ x, ∀ w ∈ wrV (f.d + BitVec.ofNat 8 j) x, MayWrite (.vsplit f) w := fun j hj x => wrV_mayWrite (vsplit_writesReg f hj) x
  have hf : Within arithFlags (orFlags ((List.range (lanes s.part.vw 0x12)).map fun i =>
      if s.active f.pg 0x12 i then (split3 (elem 0x12 (s.rv 0x12 f.a) i)).2 else 0)) := by
    refine orFlags_map_within _ _ fun i => ?_
    split
    · exact split3_arith _
    · exact within_zero _
  have h0 := hw 0 (by decide) (s.splitReg f (·.1) 0)
  rw [show BitVec.ofNat 8 0 = 0#8 from rfl, BitVec.add_zero] at h0
  exact ⟨.inl rfl, ((((Eff.Adds.refl _ e).write h0).write (hw 1 (by decide) _)).write (hw 2 (by decide) _)).flag hf⟩

theorem vqntBody_endsAs (f : FmtR) : (vqntBody f s e).EndsAs (.vqnt f) s e := by
  refine ⟨.inl rfl, (((Eff.Adds.refl _ e).write (wrV_mayWrite (fun _ => writesReg_of_regDest rfl) _)).write ?_).flag
    (State.writeElems_arith _ _ _ _ _ _ fun _ => quantElem_arith ..)⟩
  split
  · next h => exact wrV_mayWrite (fun _ => vqnt_writesReg h) _
  · simp

theorem vdqntBody_endsAs (f : FmtR) : (vdqntBody f s e).EndsAs (.vdqnt f) s e :=
  doneElems_endsAs rfl rfl fun _ => ite_within within_IV (froundV_arith ..)

theorem vlaccBody_endsAs (f : FmtR) : (vlaccBody f s e).EndsAs (.vlacc f) s e := by
  refine doneV_endsAs rfl ?_
  rw [List.map_map]
  refine orFlags_map_within _ _ fun i => ite_within (chunkAcc_arith _ _ _ (chunkSum_arith _ _ (fun p hp => ?_) (within_zero _))) (within_zero _)
  obtain ⟨k, -, rfl⟩ := List.mem_map.mp hp
  exact mulV_arith ..

theorem vdotBody_endsAs (f : FmtR) : (vdotBody f s e).EndsAs (.vdot f) s e := by
  refine doneV_endsAs rfl ?_
  rw [List.map_map]
  refine orFlags_map_within _ _ fun i => ite_within (within_zero _) (ite_within (chunkInt_arith ..)
    (chunkAcc_arith _ _ _ (chunkSum_arith _ _ (fun p hp => ?_) (within_zero _))))
  obtain ⟨k, -, rfl⟩ := List.mem_map.mp hp
  exact mulV_arith ..

theorem baddqBody_endsAs (f : FmtR) : (baddqBody f s e).EndsAs (.baddq f) s e := by
  refine doneV_endsAs rfl ?_
  rw [List.map_map]
  refine orFlags_map_within _ _ fun j => ?_
  dsimp only [Function.comp]
  split
  · exact baddqBlock_arith ..
  · split <;> exact within_zero _

theorem vredBody_endsAs (f : FmtR) : (vredBody f s e).EndsAs (.vred f) s e :=
  doneS_endsAs rfl (redTree_arith (fun _ _ => redOp_arith ..) _ _)

theorem vscanBody_endsAs (f : FmtR) : (vscanBody f s e).EndsAs (.vscan f) s e := by
  refine doneV_endsAs rfl (orFlags_within _ fun x hx => ?_)
  obtain ⟨z, hz, rfl⟩ := List.mem_map.mp hx
  split
  · have hm := List.fst_mem_of_mem_zipIdx hz
    split at hm
    · cases hm
    · next y ys _ =>
      obtain hm | hm := List.mem_cons.mp hm
      · rw [hm]; exact within_zero _
      · exact scanFrom_arith (fun _ _ => redOp_arith ..) y ys _ hm
  · exact within_zero _

end

/-- An instruction of a pair's classes, issued alone, is executed with an effect that ends so. -/
theorem exec_endsAs {i : Instr} (h : (pairBody i).isSome = true) :
    ∃ body, (∀ s, exec i s = meaning i none body s) ∧ ∀ s e, (body s e).EndsAs i s e := by
  cases i
  case nop f => exact ⟨_, fun _ => rfl, fun s e => ⟨.inl rfl, .refl ..⟩⟩
  case br f => exact ⟨_, fun _ => rfl, fun s e => takeLinear_endsAs rfl (.refl ..)⟩
  case call f | brx f => exact ⟨_, fun _ => rfl, fun s e => takeLinear_endsAs rfl (withLink_adds rfl _)⟩
  case jmp f => exact ⟨_, fun _ => rfl, fun s e => takeTo_endsAs rfl (withLink_adds rfl _)⟩
  case brc f => exact ⟨_, fun _ => rfl, fun s e => brcBody_endsAs s e f 1⟩
  case dbnz f => exact ⟨_, fun _ => rfl, fun s e => dbnzBody_endsAs s e f 1⟩
  case add f | sub f | mul f | madd f | abs f => exact ⟨_, fun _ => rfl, fun s e => doneNarrow_endsAs rfl rfl⟩
  case addi f => exact ⟨_, fun _ => rfl, fun s e => doneS_endsAs rfl (narrow_scalar ..)⟩
  case div f => exact ⟨_, fun _ => rfl, fun s e => doneS_endsAs rfl (divInt_scalar ..)⟩
  case rem f => exact ⟨_, fun _ => rfl, fun s e => doneS_endsAs rfl (remInt_scalar ..)⟩
  case shl f | shli f => exact ⟨_, fun _ => rfl, fun s e => doneS_endsAs rfl (shlInt_scalar ..)⟩
  case ext f => exact ⟨_, fun _ => rfl, fun s e => extBody_endsAs s e f⟩
  case mulh f | and f | or f | xor f | shr f | sar f | rol f | min f | max f | sel f | cmp f | lea f | andi f | ori f | xori f | shri f
      | sari f | cmpi f | li f | lih f | addpc f | clz f | ctz f | popc f | bswap f | bfx f | bfi f | vext f | pcnt f | pfirst f =>
    exact ⟨_, fun _ => rfl, fun s e => doneS_plain rfl⟩
  case vadd f => exact ⟨_, fun _ => rfl, fun s e => vec2_endsAs rfl rfl fun _ _ _ => elAdd_arith ..⟩
  case vsub f => exact ⟨_, fun _ => rfl, fun s e => vec2_endsAs rfl rfl fun _ _ _ => elSub_arith ..⟩
  case vmul f => exact ⟨_, fun _ => rfl, fun s e => vec2_endsAs rfl rfl fun _ _ _ => elMul_arith ..⟩
  case vfma f => exact ⟨_, fun _ => rfl, fun s e => vec3_endsAs rfl rfl fun _ _ _ _ => elFma_arith ..⟩
  case vmin f => exact ⟨_, fun _ => rfl, fun s e => vec2_endsAs rfl rfl fun _ _ _ => elMin_arith ..⟩
  case vmax f => exact ⟨_, fun _ => rfl, fun s e => vec2_endsAs rfl rfl fun _ _ _ => elMax_arith ..⟩
  case vabs f => exact ⟨_, fun _ => rfl, fun s e => vec1_endsAs rfl rfl fun _ _ => elAbs_arith ..⟩
  case vclamp f => exact ⟨_, fun _ => rfl, fun s e => vec3_endsAs rfl rfl fun _ _ _ _ => elClamp_arith ..⟩
  case vshl f => exact ⟨_, fun _ => rfl, fun s e => vec2_endsAs rfl rfl fun _ _ _ => shlInt_arith ..⟩
  case vlmul f => exact ⟨_, fun _ => rfl, fun s e => vec2_endsAs rfl rfl fun _ _ _ => l6Mul_arith ..⟩
  case vand f | vor f | vxor f | vshr f | vsar f => exact ⟨_, fun _ => rfl, fun s e => vec2_endsAs rfl rfl fun _ _ _ => within_zero _⟩
  case vmov f => exact ⟨_, fun _ => rfl, fun s e => vec1_endsAs rfl rfl fun _ _ => within_zero _⟩
  case vsel f | vsplat f | vperm f => exact ⟨_, fun _ => rfl, fun s e => doneElems_endsAs rfl rfl fun _ => within_zero _⟩
  case viota f => exact ⟨_, fun _ => rfl, fun s e => doneElems_endsAs rfl rfl fun _ => narrow_arith ..⟩
  case vins f => exact ⟨_, fun _ => rfl, fun s e => doneV_endsAs rfl (within_zero _)⟩
  case vcmp f => exact ⟨_, fun _ => rfl, fun s e => vcmpBody_endsAs s e f⟩
  case vcvt f => exact ⟨_, fun _ => rfl, fun s e => doneV_endsAs rfl (State.writeElems_arith _ _ _ _ _ _ fun _ => cvtElem_arith ..)⟩
  case vsplit f => exact ⟨_, fun _ => rfl, fun s e => vsplitBody_endsAs s e f⟩
  case vqnt f => exact ⟨_, fun _ => rfl, fun s e => vqntBody_endsAs s e f⟩
  case vdqnt f => exact ⟨_, fun _ => rfl, fun s e => vdqntBody_endsAs s e f⟩
  case vlacc f => exact ⟨_, fun _ => rfl, fun s e => vlaccBody_endsAs s e f⟩
  case vdot f => exact ⟨_, fun _ => rfl, fun s e => vdotBody_endsAs s e f⟩
  case baddq f => exact ⟨_, fun _ => rfl, fun s e => baddqBody_endsAs s e f⟩
  case vred f => exact ⟨_, fun _ => rfl, fun s e => vredBody_endsAs s e f⟩
  case vscan f => exact ⟨_, fun _ => rfl, fun s e => vscanBody_endsAs s e f⟩
  case plt f | pset f | pand f | por f | pxor f | pnot f => exact ⟨_, fun _ => rfl, fun s e => doneP_endsAs rfl (within_zero _)⟩
  all_goals cases h

end Sys2Proof.Machine
end

section
/-! SUPPORT. A fault of a slot leaves it FAULTED (R368). -/

namespace Sys2Proof.Machine

/-- Every slot of a core stands in the state it stood in. -/
structure Core.SameSt (c x : Core) : Prop where
  st : ∀ j, (x.slot j).st = (c.slot j).st

namespace Core.SameSt

variable {c x y : Core}

theorem trans (h1 : SameSt c x) (h2 : SameSt x y) : SameSt c y := ⟨fun j => (h2.st j).trans (h1.st j)⟩

theorem of_slots (h : x.slots = c.slots) : SameSt c x := ⟨fun j => by rw [Core.slot, h, Core.slot]⟩

theorem setSlot {k : Nat} {t : Slot} (h : t.st = (c.slot k).st) : SameSt c (c.setSlot k t) := by
  refine ⟨fun j => ?_⟩
  obtain hs | ⟨rfl, hs⟩ := c.slot_setSlot_cases j k t
  · rw [hs]
  · rw [hs, h]

end Core.SameSt

theorem Core.foldl_sameSt {α : Type} {f : Core → α → Core} (h : ∀ c x, Core.SameSt c (f c x)) (l : List α) (c : Core) : c.SameSt (l.foldl f c) := by
  induction l generalizing c with
  | nil => exact .of_slots rfl
  | cons x l ih => exact (h c x).trans (ih _)

theorem Core.watchHit_sameSt (c : Core) (off n ts : Nat) : c.SameSt (c.watchHit off n ts) := by
  refine Core.foldl_sameSt (fun x w => ?_) _ c
  dsimp only
  split
  · exact .setSlot rfl
  · exact .of_slots rfl

theorem Core.scrStore_sameSt (c : Core) (off n v ts : Nat) : c.SameSt (c.scrStore off n v ts).1 := by
  unfold Core.scrStore
  dsimp only
  refine .trans (.of_slots ?_) (Core.watchHit_sameSt ..)
  dsimp only
  split
  · rfl
  · exact Core.addFixed_slots c 13 1

theorem Core.enterRecord_sameSt (c : Core) (r : FaultRec) (ts : Nat) : c.SameSt (c.enterRecord r ts) := by
  unfold Core.enterRecord
  split
  · refine .trans (.of_slots ?_) ((Core.scrStore_sameSt ..).trans (.setSlot rfl))
    rfl
  · exact (Core.scrStore_sameSt ..).trans (.of_slots rfl)

theorem Core.markBay_sameSt (c : Core) (k : Nat) (r : FaultRec) : c.SameSt (c.markBay k r) := by
  unfold Core.markBay
  split <;> exact .of_slots rfl

/-- Every slot stands in the state it stood in. -/
structure State.SameSt (s t : State) : Prop where
  st : ∀ c k, (t.slot c k).st = (s.slot c k).st

namespace State.SameSt

variable {s t u : State}

theorem refl (s : State) : SameSt s s := ⟨fun _ _ => rfl⟩

theorem trans (h1 : SameSt s t) (h2 : SameSt t u) : SameSt s u := ⟨fun c k => (h2.st c k).trans (h1.st c k)⟩

theorem setCore {c : Nat} {x : Core} (h : (s.core c).SameSt x) : SameSt s (s.setCore c x) := by
  refine ⟨fun d k => ?_⟩
  by_cases hd : d = c
  · subst hd
    rw [State.slot, State.core_setCore_self, h.st, State.slot]
  · rw [State.slot, State.core_setCore_ne _ _ hd, State.slot]

end State.SameSt

theorem State.enterRecord_sameSt (s : State) (c : Nat) (r : FaultRec) (ts : Nat) : s.SameSt (s.enterRecord c r ts) := by
  refine .setCore ?_
  split
  · exact .of_slots rfl
  · split
    · exact (Core.scrStore_sameSt ..).trans (.of_slots rfl)
    · exact Core.enterRecord_sameSt ..

theorem State.dropFollowers_sameSt (s : State) (c k : Nat) : s.SameSt (s.dropFollowers c k) := by
  unfold State.dropFollowers
  generalize coresOf (foldOf c) = l
  induction l generalizing s with
  | nil => exact .refl _
  | cons x l ih =>
    refine .trans ?_ (ih _)
    dsimp only
    split
    · exact .setCore (.setSlot rfl)
    · split
      · exact .setCore (.setSlot rfl)
      · exact .refl _

theorem State.faultSlot_faulted (s : State) (c : Nat) {k : Nat} (hk : k < 16) (f : FaultInfo) (kind : Nat) (info : Word) :
    ((s.faultSlot c k f kind info).slot c k).st = .faulted := by
  unfold State.faultSlot
  extract_lets t debug caps kd r x s1 s2 y s3
  have h1 : (s1.slot c k).st = .faulted := by rw [State.slot_setSlot_self _ _ _ hk]
  have h2 : s1.SameSt s2 := .setCore (Core.markBay_sameSt ..)
  have h3 : s2.SameSt s3 := by
    simp only [s3]
    split
    · exact .setCore (.of_slots rfl)
    · exact State.enterRecord_sameSt ..
  exact ((h2.trans (h3.trans (State.dropFollowers_sameSt ..))).st c k).trans h1

theorem State.raise_faulted {s : State} {c k : Nat} (h : s.cur = .slot c k) (hk : k < 16) (f : FaultInfo) : ((s.raise f).slot c k).st = .faulted := by
  unfold State.raise
  rw [h]
  exact State.faultSlot_faulted s c hk f 1 f.info

/-- However the fault is noted, the slot ends FAULTED. -/
theorem State.fail_faulted {s : State} {c k : Nat} (h : s.cur = .slot c k) (hk : k < 16) (f : FaultInfo) : ((s.fail f).slot c k).st = .faulted := by
  unfold State.fail
  extract_lets s1
  have h1 : s.SameSlots s1 := by
    simp only [s1]
    split
    · exact State.targetFetch_sameSlots _ h
    · exact .refl s
  have h2 := ite_sameSlots (c := (f.code == .badTarget && isSlotAddr f.addr) = true)
    (State.targetFetch_sameSlots f.addr (h1.cur.trans h)) (State.noteFault_sameSlots s1 s1.cur f)
  exact State.raise_faulted ((h1.trans h2).cur.trans h) hk f

end Sys2Proof.Machine
end

section
/-! SUPPORT. The instructions of a pair's classes change nothing but their destinations, takes, sticky flags and PC (R6, R77, R140, R155). -/

namespace Sys2Proof.Machine

/-! ## What the reads begin -/

/-- What the reads make the completion empty, and the state registers it leaves (R75). -/
theorem prepare_takes {s s1 : State} {u : Uses} {p : List Nat} {e : Eff} (h : s.prepare u p = .ok (s1, e)) :
    (∀ r ∈ e.takes, (r, true) ∈ u.reads) ∧ e.ms = none ∧ e.setFlags = none ∧ e.setEfmt = none := by
  unfold State.prepare at h
  dsimp only at h
  repeat' (split at h)
  all_goals cases h
  refine ⟨fun r hr => ?_, rfl, rfl, rfl⟩
  obtain ⟨⟨n, b⟩, hm, rfl⟩ := List.mem_map.mp (List.mem_eraseDups.mp hr)
  obtain ⟨hm, hb⟩ := List.mem_filter.mp hm
  cases b
  · simp at hb
  · exact hm

/-- With no fill to be read first and no port bound no register brings a timestamp (R119). -/
theorem Slot.readTs_none {t : Slot} (hf : t.fillTs = []) (hp : t.ports = []) (rs : List Nat) : t.readTs rs = 0 := by
  induction rs with
  | nil => rfl
  | cons r rs ih => simp [Slot.readTs, ih, Slot.port, hp, hf, aget]

/-! ## FLAGS -/

theorem Within.getLsbD {m fl : Word} (h : Within m fl) {j : Nat} (hj : j < 64) (hm : m.getLsbD j = false) : fl.getLsbD j = false := by
  have hj' := congrArg (BitVec.getLsbD · j) h
  simpa only [BitVec.getLsbD_and, BitVec.getLsbD_not, hj, hm, decide_true, Bool.not_false, Bool.and_true, BitVec.getLsbD_zero] using hj'

theorem getLsbD_of_low11 {a b : Word} (h : a.extractLsb' 0 11 = b.extractLsb' 0 11) {j : Nat} (hj : j < 11) : a.getLsbD j = b.getLsbD j := by
  simpa [hj] using congrArg (BitVec.getLsbD · j) h

/-- Sticky flags leave RM and MS, bits 6 to 10. -/
theorem flags_rm_ms_kept {a b fl : Word} (h : b.extractLsb' 0 11 = (a ||| fl).extractLsb' 0 11) (hf : Within arithFlags fl) :
    b.extractLsb' 6 5 = a.extractLsb' 6 5 := by
  have hm : ∀ j < 5, arithFlags.getLsbD (6 + j) = false := by decide
  ext j hj
  simp [getLsbD_of_low11 h (show 6 + j < 11 by omega), hf.getLsbD (by omega) (hm j hj)]

/-- DZ and SAT are the only flags below FOLLOW that may be set. -/
theorem flags_scalar_kept {a b fl : Word} (h : b.extractLsb' 0 11 = (a ||| fl).extractLsb' 0 11) (hf : Within scalarFlags fl) :
    (b ^^^ a) &&& 0x7DD = 0 := by
  have hm : ∀ j < 64, (0x7DD : Word).getLsbD j = true → j < 11 ∧ scalarFlags.getLsbD j = false := by decide
  refine BitVec.eq_of_getLsbD_eq fun j hj => ?_
  rw [BitVec.getLsbD_and, BitVec.getLsbD_xor]
  cases hd : (0x7DD : Word).getLsbD j
  · simp
  · obtain ⟨h11, hs⟩ := hm j hj hd
    rw [getLsbD_of_low11 h h11, BitVec.getLsbD_or, hf.getLsbD hj hs]
    simp

/-! ## The slot after the completion -/

/-- A slot `y` that differs from `x` as an instruction of a pair's classes may make it differ (R6, R140, R155). -/
structure ChangesDestinations (i : Instr) (u : Uses) (x y : Slot) : Prop where
  reg : KeepsOthers u x y
  pr : ∀ n < 8, (∀ d, dKind i = some d → opName d ≠ 96 + n) → y.pr n = x.pr n
  flags : ∃ fl, Within (stickyMask i) fl ∧ y.flags.extractLsb' 0 11 = (x.flags ||| fl).extractLsb' 0 11
  efmt : y.efmt = x.efmt
  pts : x.fillTs = [] → x.ports = [] → x.again = none → y.pts = x.pts

theorem stickyMask_arith {i : Instr} {fl : Word} (h : Within (stickyMask i) fl) : Within arithFlags fl := by
  unfold stickyMask at h
  split at h
  · split at h
    · exact h.arith
    · exact h
  · exact h

theorem stickyMask_scalar {i : Instr} {v : View} (hv : i.view = some v) (h1 : 0x10 ≤ v.op) (h2 : v.op ≤ 0x12) : stickyMask i = scalarFlags := by
  simp [stickyMask, hv, h1, h2]

/-- A stall at a target's line leaves registers, FLAGS and PTS (R68). -/
theorem parkOn_line_changes {s : State} {c k : Nat} (h : s.cur = .slot c k) (hk : k < 16) (i : Instr) (u : Uses) (ln : Nat) :
    SlotsOnly c k s (s.parkOn (.line ln)) ∧ ChangesDestinations i u (s.slot c k) ((s.parkOn (.line ln)).slot c k) := by
  have hs : (s.setThread { s.thread with fetchWait := some ln, st := .runnable, wait := none })
      = s.setSlot c k { s.slot c k with fetchWait := some ln, st := .runnable, wait := none } := by
    rw [State.setThread_slot _ h, State.thread_slot h]
  have hslots : SlotsOnly c k s (s.setSlot c k { s.slot c k with fetchWait := some ln, st := .runnable, wait := none }) :=
    .setSlot fun hne => (hne.elim (· rfl) (· rfl)).elim
  have hy : (s.parkOn (.line ln)).slot c k = { s.slot c k with fetchWait := some ln, st := .runnable, wait := none } := by
    unfold State.parkOn
    dsimp only
    rw [hs]
    exact State.slot_setSlot_self s c _ hk
  refine ⟨?_, ?_⟩
  · unfold State.parkOn
    dsimp only
    rw [hs]
    exact hslots
  · rw [hy]
    exact ⟨fun _ _ _ _ => ⟨rfl, rfl⟩, fun _ _ _ => rfl, ⟨0#64, within_zero _, by rw [BitVec.or_zero]⟩, rfl, fun _ _ _ => rfl⟩

/-- A completion that adds to its reads what `Eff.Adds` allows changes its destinations alone. -/
theorem committed_changes {i : Instr} {s s1 : State} {c k : Nat} {e e2 : Eff} {y : Slot} (h : s.cur = .slot c k) (hk : k < 16)
    (hr : Ready i s s1 e) (ha : e.Adds i e2) (hy : Committed e2 (s1.slot c k) y) :
    ChangesDestinations i (usesOf i (s.slot c k).ety s.part.vw false) (s.slot c k) y := by
  obtain ⟨-, hp⟩ := hr
  have hsys : s.isSys = false := by simp [State.isSys, h]
  rw [hsys, State.thread_slot h] at hp
  obtain ⟨htakes, hms, hset, hefmt⟩ := prepare_takes hp
  obtain ⟨hs1, hpts, hws, hst, -, hlate, -⟩ := prepare_ok hp
  have hslot : s1.slot c k = { s.slot c k with pts := e.pts } := by
    rw [hs1, State.setThread_slot _ h, State.slot_setSlot_self _ _ _ hk, State.thread_slot h, hpts, State.thread_slot h]
  rw [hslot] at hy
  have hmay : ∀ w ∈ e2.writes, MayWrite i w := fun w hw => (ha.writes w hw).resolve_left (by simp [hws])
  obtain ⟨fl, hfl, hsticky⟩ := ha.sticky
  refine ⟨fun r hr96 hread hwrite => hy.reg r hr96 ?_, fun n _ hd => hy.pr n ?_, ⟨fl, hfl, ?_⟩, ?_, fun hf hports hagain => ?_⟩
  · intro hregs
    obtain hm | hm | ⟨w, hw, hreg⟩ := hregs
    · exact hread (htakes r (ha.takes ▸ hm))
    · rw [ha.late, hlate] at hm
      cases hm
    · obtain ⟨p, hp, hpr⟩ := (hmay w hw).1 r hreg _ _ _
      exact hwrite p hp hpr
  · rintro ⟨x, hx⟩
    obtain ⟨d, hdk, hop⟩ := (hmay _ hx).2 n x rfl
    exact hd d hdk hop
  · have := hy.flags
    simpa [Eff.flagsOf, ha.ms, hms, ha.setFlags, hset, hsticky, hst] using this
  · simpa [ha.setEfmt, hefmt] using hy.efmt
  · rw [hy.pts, ha.pts]
    simp [hpts, State.thread_slot h, Slot.readTs_none hf hports, hagain]

/-- Settles O50: an effect of a pair's classes ends in a fault, in a stall at a target's line, or in a completion that adds to its reads
writes to its destinations and sticky flags. -/
theorem registerInstructionsChangeOnlyTheirDestinations : Obligations.RegisterInstructionsChangeOnlyTheirDestinations := by
  intro i s c k s1 e t hcur hk hi hr hx hst
  suffices h : (SlotsOnly c k s t ∨ ∃ pc, branchTarget i s1 = some pc ∧ SlotsOnly c k (s1.targetFetch pc) t)
      ∧ ChangesDestinations i (usesOf i (s.slot c k).ety s.part.vw false) (s.slot c k) (t.slot c k) by
    obtain ⟨hs, ⟨hreg, hpr, ⟨fl, hfl, hflags⟩, hefmt, hpts⟩⟩ := h
    exact ⟨hs, hreg, hpr, flags_rm_ms_kept hflags (stickyMask_arith hfl), hefmt, hpts,
      fun v hv h1 h2 => flags_scalar_kept hflags (stickyMask_scalar hv h1 h2 ▸ hfl)⟩
  obtain ⟨body, hexec, hends⟩ := exec_endsAs hi
  have hend := hends s1 e
  rw [hexec] at hx
  cases hb : body s1 e with
  | fault f =>
    rw [meaning_fault hr hb] at hx
    cases hx
    exact absurd (State.fail_faulted hcur hk f) hst
  | park w =>
    rw [meaning_park hr hb] at hx
    rw [hb] at hend
    obtain ⟨ln, rfl⟩ := hend
    cases hx
    exact (parkOn_line_changes hcur hk i _ ln).imp_left .inl
  | sent s2 w =>
    rw [hb] at hend
    exact hend.elim
  | done s2 e2 =>
    rw [meaning_done hr hb, finish_none] at hx
    rw [hb] at hend
    obtain ⟨hs2, ha⟩ := hend
    cases hx
    have hs1 : s1.cur = .slot c k ∧ SlotsOnly c k s s1 := by
      obtain ⟨rfl, -⟩ := prepare_ok hr.2
      rw [State.setThread_slot _ hcur]
      exact ⟨hcur, .setSlot fun hne => (hne.elim (· rfl) (· rfl)).elim⟩
    obtain rfl | ⟨pc, hpc, rfl⟩ := hs2
    · exact ⟨.inl (hs1.2.trans (State.commit_slotsOnly e2 hs1.1)), committed_changes hcur hk hr ha (State.commit_committed e2 hs1.1 hk)⟩
    · have hf := State.targetFetch_sameSlots pc hs1.1
      have hcur2 := hf.cur.trans hs1.1
      exact ⟨.inr ⟨pc, hpc, State.commit_slotsOnly e2 hcur2⟩,
        committed_changes hcur hk hr ha (hf.slot c k ▸ State.commit_committed e2 hcur2 hk)⟩

end Sys2Proof.Machine
end

section
/-! SUPPORT. The rotation of a wheel, and what BUNDLE_ISSUE does in each of its cases (R24, R122, R273, R361, R406). -/

namespace Sys2Proof.Machine

/-! ## Rotation (R24) -/

/-- Rotation looks for the first distance past `last` at which a number qualifies. -/
theorem rotate_eq_find? (n last : Nat) (ok : Nat → Bool) :
    rotate n last ok = ((List.range n).find? fun i => ok ((last + 1 + i) % n)).map fun i => (last + 1 + i) % n := by
  unfold rotate
  induction List.range n with
  | nil => rfl
  | cons i l ih =>
    simp only [List.findSome?_cons, List.find?_cons]
    cases h : ok ((last + 1 + i) % n)
    · simpa using ih
    · simp

/-- The number that rotation answers is the first in order that qualifies. -/
theorem rotate_eq_some {n last k : Nat} {ok : Nat → Bool} (h : rotate n last ok = some k) :
    ok k = true ∧ ∃ i < n, k = (last + 1 + i) % n ∧ ∀ j < i, ok ((last + 1 + j) % n) = false := by
  rw [rotate_eq_find?] at h
  obtain ⟨i, hi, rfl⟩ := Option.map_eq_some_iff.mp h
  obtain ⟨hok, hmem, hfirst⟩ := List.find?_range_eq_some.mp hi
  exact ⟨hok, i, List.mem_range.mp hmem, rfl, fun j hj => by simpa using hfirst j hj⟩

/-- Every number below `n` stands somewhere in the rotation. -/
theorem exists_rotation {n k : Nat} (last : Nat) (hk : k < n) : ∃ i < n, (last + 1 + i) % n = k := by
  have hr : (last + 1) % n < n := Nat.mod_lt _ (by omega)
  refine ⟨(k + (n - (last + 1) % n)) % n, Nat.mod_lt _ (by omega), ?_⟩
  calc (last + 1 + (k + (n - (last + 1) % n)) % n) % n
      = ((last + 1) % n + (k + (n - (last + 1) % n))) % n := by rw [Nat.add_mod_mod, ← Nat.mod_add_mod]
    _ = (k + n) % n := by rw [show (last + 1) % n + (k + (n - (last + 1) % n)) = k + n by omega]
    _ = k := by rw [Nat.add_mod_right, Nat.mod_eq_of_lt hk]

/-- Rotation answers none where no number qualifies, and passes over none that does. -/
theorem rotate_eq_none {n last : Nat} {ok : Nat → Bool} : rotate n last ok = none ↔ ∀ k < n, ok k = false := by
  simp only [rotate_eq_find?, Option.map_eq_none_iff, List.find?_eq_none, List.mem_range, Bool.not_eq_true]
  refine ⟨fun h k hk => ?_, fun h i hi => h _ (Nat.mod_lt _ (by omega))⟩
  obtain ⟨i, hi, rfl⟩ := exists_rotation last hk
  exact h i hi

/-! ## BUNDLE_ISSUE -/

/-- A core that issues is placed or a gateway core (R24). -/
theorem State.coreLive_placed {s : State} {c : Nat} (h : s.coreLive c = true) : (s.core c).launch.isSome = true ∨ s.isGateway c = true := by
  simp only [State.coreLive, Bool.and_eq_true, Bool.or_eq_true] at h
  obtain ⟨⟨⟨hplaced, -⟩, -⟩, -⟩ := h
  exact hplaced

/-- The wheel of a core that is placed or a gateway core is not idle. -/
theorem wheel_not_idle {s : State} {c : Nat} (h : (s.core c).launch.isSome = true ∨ s.isGateway c = true) :
    ((s.core c).launch.isNone && !s.isGateway c) = false := by
  rcases h with h | h
  · simp [Option.isNone_eq_false_iff.mpr h]
  · simp [h]

/-- The slot first in rotation of those that may issue does (R24). -/
theorem bundleIssue_issues {s : State} {c k : Nat} (hlive : s.coreLive c = true) (hgate : s.env.gate.headD 0 ≠ 1)
    (hk : rotate 16 ((s.turn c).core c).lastSlot (fun k => decide (k < ((s.turn c).core c).nslots) && (s.turn c).mayIssue c k) = some k) :
    exec (.bundleIssue (.core c)) s = .next (((s.turn c).setCore c { (s.turn c).core c with lastSlot := k }).as (.slot c k)).issueThread := by
  simp only [exec, execBundleIssue, answer, wheel_not_idle (State.coreLive_placed hlive), hlive, hgate, hk, Bool.not_true,
    Bool.false_eq_true, if_false]

/-- Where no slot of the launch may issue, the ac is a bubble (R361). -/
theorem bundleIssue_bubble {s : State} {c : Nat} (hlive : s.coreLive c = true) (hgate : s.env.gate.headD 0 ≠ 1)
    (h : ∀ k < 16, k < ((s.turn c).core c).nslots → (s.turn c).mayIssue c k = false) :
    exec (.bundleIssue (.core c)) s = .next ((s.turn c).setCore c (((s.turn c).core c).addFixed 3 1)) := by
  have hnone : rotate 16 ((s.turn c).core c).lastSlot (fun k => decide (k < ((s.turn c).core c).nslots) && (s.turn c).mayIssue c k) = none :=
    rotate_eq_none.mpr fun k hk => by simpa using h k hk
  simp only [exec, execBundleIssue, answer, wheel_not_idle (State.coreLive_placed hlive), hlive, hgate, hnone, Bool.not_true,
    Bool.false_eq_true, if_false]

/-- The power cap, or a stop, holds a core back for an ac, which is a bubble (R361, R406). -/
theorem bundleIssue_held {s : State} {c : Nat} (h : (s.core c).launch.isSome = true ∨ s.isGateway c = true) :
    (s.env.gate.headD 0 = 1 → exec (.bundleIssue (.core c)) s = .next
        { s.setCore c ((s.core c).addFixed 3 1) with env := { s.env with gate := s.env.gate.tail } })
    ∧ (s.env.gate.headD 0 ≠ 1 → s.coreLive c = false → exec (.bundleIssue (.core c)) s = .next (s.setCore c ((s.core c).addFixed 3 1))) := by
  refine ⟨fun hgate => ?_, fun hgate hdead => ?_⟩
  · simp only [exec, execBundleIssue, answer, wheel_not_idle h, hgate, Bool.false_eq_true, if_false, if_true]
  · simp only [exec, execBundleIssue, answer, wheel_not_idle h, hgate, hdead, Bool.not_false, Bool.false_eq_true, if_false, if_true]

/-- Settles O34, from the two ways in which rotation ends and the cases of BUNDLE_ISSUE. -/
theorem theWheelIssuesTheNextSlotThatMay : Obligations.TheWheelIssuesTheNextSlotThatMay := by
  refine ⟨fun n last ok k h hn => ?_, fun n last ok h => rotate_eq_none.mp h,
    fun s c hlive hgate => ⟨fun k hk => bundleIssue_issues hlive hgate hk, fun h => bundleIssue_bubble hlive hgate h⟩,
    fun s c h => bundleIssue_held h, fun s ch i h => ?_, fun s n h => ?_⟩
  · obtain ⟨hok, i, hi, rfl, hfirst⟩ := rotate_eq_some h
    exact ⟨Nat.mod_lt _ hn, hok, i, hi, rfl, hfirst⟩
  · simp only [exec, execBundleIssue, answer, h]
  · simp only [exec, execBundleIssue, answer, h, if_true]

end Sys2Proof.Machine
end

section
/-! SUPPORT. The bundle at a PC, the issue that leaves it to run, and the step that runs it (R24, R61, R62, R77, R78, R82, R122). -/

namespace Sys2Proof.Machine

/-! ## The bundle at a PC -/

/-- The slot of a well-formed line whose PMASK bit is clear holds one instruction (R62, R77). -/
theorem bundleAt_single {l : Line} {pc : Word} {i : Instr} (hl : lineWordBad l = none) (hi : decodeSlot (slotBits l (pc.toNat % 8)) = some i)
    (hp : (pmask l).testBit (pc.toNat % 8) = false) : bundleAt l pc = .ok { pc := pc, first := i } := by
  simp only [bundleAt, hl, hi, hp, Bool.false_eq_true, if_false]

/-- One whose bit is set, and which R77 allows, holds a pair with the next. -/
theorem bundleAt_pair {l : Line} {pc : Word} {i j : Instr} (hl : lineWordBad l = none) (hi : decodeSlot (slotBits l (pc.toNat % 8)) = some i)
    (hp : (pmask l).testBit (pc.toNat % 8) = true) (hj : decodeSlot (slotBits l (pc.toNat % 8 + 1)) = some j)
    (hok : pairBad ((slotBits l (pc.toNat % 8)).extractLsb' 88 8).toNat ((slotBits l (pc.toNat % 8 + 1)).extractLsb' 88 8).toNat (some i) (some j) = false) :
    bundleAt l pc = .ok { pc := pc, first := i, second := some j } := by
  simp only [bundleAt, hl, hi, hj, hp, hok, Bool.false_eq_true, if_false, if_true]

/-- A thread that is no follower has the bundle of the line that it fetches, unless its entry PC is no target (R68, R122). -/
theorem State.bundle_fetched {s s2 : State} {l : Line} (hsub : s.thread.subst = none) (hf : s.thread.follow = false)
    (hpc : isSlotAddr s.thread.pc = true) (hl : s.fetch s.cur s.thread.pc = (s2, .line l))
    (he : s.thread.entry = false ∨ (tmask l).testBit (s.thread.pc.toNat % 8) = true) : s.bundle = (s2, bundleAt l s.thread.pc) := by
  have hentry : (s.thread.entry && !(tmask l).testBit (s.thread.pc.toNat % 8)) = false := by
    rcases he with he | he <;> simp [he]
  simp only [State.bundle, hsub, hf, hpc, hl, hentry, Bool.not_true, Bool.false_eq_true, if_false]

/-! ## The issue -/

/-- What an issue of slot `k` of core `c` does before its fetch: it is noted and counted (R122, R361). -/
def State.issueNoted (s : State) (c k : Nat) : State :=
  let s := s.setThread { s.thread with lastIssue := some s.ac, wait := none, again := none, peer := none }
  let s := s.setCore c (((s.core c).addFixed 1 1).count 1 k)
  if s.env.stall.head? = some 0 then { s with env := { s.env with stall := s.env.stall.tail } } else s

/-- What it does once it has its bundle: an entry PC's fault is kept for step 10, and a pair counted (R77, R361). -/
def State.issueFetched (s : State) (c : Nat) (b : Bundle) : State :=
  let s := s.setThread { s.thread with entry := b.entryBad }
  if b.second.isSome || b.bad2 then s.setCore c ((s.core c).addFixed 2 1) else s

/-- A slot that has a bundle issues it. -/
theorem State.issueThread_ok {s s3 : State} {c k : Nat} {b : Bundle} (hcur : s.cur = .slot c k)
    (hb : (s.issueNoted c k).bundle = (s3, .ok b)) (h3 : s3.cur = .slot c k) :
    s.issueThread = { s3.issueFetched c b with issue := some b } := by
  have hcur' : ∀ t, (s.setThread t).cur = .slot c k := fun t => (State.setThread_cur s t).trans hcur
  have h3' : ∀ t, (s3.setThread t).cur = .slot c k := fun t => (State.setThread_cur s3 t).trans h3
  unfold State.issueNoted at hb
  unfold State.issueThread State.issueFetched
  dsimp only at hb ⊢
  simp only [hcur', hb, h3']

/-! ## The step -/

/-- What a bundle does from the state after the reads of its issue: its instruction, or its pair, and what follows an issue (R77, R82,
R126). -/
def RunsBundle (s : State) (b : Bundle) (s5 : State) : Prop :=
  (b.second = none → b.bad2 = false → ∃ t, exec b.first s5 = .next t ∧ step s = .next (t.afterIssue b))
    ∧ (b.second = none → b.bad2 = true → step s = .next ((s5.runBadPair b.first).afterIssue b))
    ∧ ∀ j, b.second = some j → step s = .next ((s5.runPair b.first j).afterIssue b)

/-- A step whose event leaves a bundle to run runs it. -/
theorem step_runsBundle (u : State) {s : State} {e : Event} {es : List Event} {b : Bundle} (ha : s.agenda = e :: es)
    (he : e.run { s with agenda := es } = .next { u with issue := some b }) : RunsBundle s b { u with issue := none } := by
  have hstep : step s = State.runIssued { u with issue := some b } := by rw [step_cons ha, State.runEvent, he]
  refine ⟨fun h2 hbad => ?_, fun h2 hbad => ?_, fun j h2 => ?_⟩
  · obtain ⟨t, ht⟩ := exec_next b.first { u with issue := none }
    refine ⟨t, ht, ?_⟩
    simp only [hstep, State.runIssued, h2, hbad, ht, Bool.false_eq_true, if_false]
  · simp only [hstep, State.runIssued, h2, hbad, if_true]
  · simp only [hstep, State.runIssued, h2]

/-- Settles O56: the bundle at a PC by the cases of PMASK and decoding; a step by the bundle that its event leaves to run. -/
theorem aStepRunsTheDecodedInstruction : Obligations.AStepRunsTheDecodedInstruction := by
  refine ⟨fun l pc i hl hi => ⟨bundleAt_single hl hi, fun j hp hj hok => bundleAt_pair hl hi hp hj hok⟩,
    fun s s2 l hsub hf hpc hl he => State.bundle_fetched hsub hf hpc hl he, ?_, ?_⟩
  · intro s c k es b s3 ha hlive hgate s1 hk s2 s' sa sb hb h3
    have hrun : exec (.bundleIssue (.core c)) { s with agenda := es } = .next s2.issueThread := bundleIssue_issues hlive hgate hk
    rw [State.issueThread_ok (k := k) rfl hb h3] at hrun
    exact step_runsBundle (s3.issueFetched c b) ha hrun
  · intro s w es b ha s1 t hready hv hr hagain
    have hrun := (replyArrival_due hready).2.2 hv hr
    rw [hagain] at hrun
    exact step_runsBundle (s1.setThread { t with st := .runnable, wait := none }) ha hrun

end Sys2Proof.Machine
end

section
/-! SUPPORT. What a write at a home leaves of the launch queues: which ring a dispatcher took from last, and where each ring's header
lies (R289, R291, R417). -/

namespace Sys2Proof.Machine

/-- Each dispatcher's turn and every ring's header stand where they stood. -/
structure State.SameRings (s t : State) : Prop where
  turn : t.dev.ringTurn = s.dev.ringTurn
  hdr : ∀ i : Nat, (t.dev.rings[i]?).map Ring.hdr = (s.dev.rings[i]?).map Ring.hdr

namespace State.SameRings

variable {s t u : State}

theorem of_dev (h : t.dev = s.dev) : SameRings s t := ⟨by rw [h], fun _ => by rw [h]⟩

theorem refl (s : State) : SameRings s s := of_dev rfl

theorem trans (h1 : SameRings s t) (h2 : SameRings t u) : SameRings s u := ⟨h2.turn.trans h1.turn, fun i => (h2.hdr i).trans (h1.hdr i)⟩

end State.SameRings

theorem State.foldl_setCore_dev {α : Type} (l : List α) (k : State → α → Nat) (x : State → α → Core) (s : State) :
    (l.foldl (fun s a => s.setCore (k s a) (x s a)) s).dev = s.dev := by
  induction l generalizing s with
  | nil => rfl
  | cons a l ih => exact ih _

theorem State.reportSkew_sameRings (s : State) : s.SameRings s.reportSkew := ⟨rfl, fun _ => rfl⟩

theorem State.skewFold_sameRings (s : State) (f : Nat) : s.SameRings (s.skewFold f) := by
  unfold State.skewFold
  refine .trans (.of_dev ?_) (State.reportSkew_sameRings _)
  exact State.foldl_setCore_dev (coresOf f) (fun _ c => c) (fun s c => (s.core c).addFixed 13 1) _

theorem State.countSkew_sameRings (s : State) (l : Loc) (ts : Nat) : s.SameRings (s.countSkew l ts) := by
  unfold State.countSkew
  split
  · exact .refl s
  · cases l with
    | scr c off => exact .trans (.of_dev (State.setCore_dev s c _)) (State.reportSkew_sameRings _)
    | mem pa => exact State.skewFold_sameRings s _

theorem State.setPresent_dev (s : State) (ln : Nat) (b : Bool) : (s.setPresent ln b).dev = s.dev := by
  unfold State.setPresent
  split <;> rfl

theorem State.holdLine_dev (s : State) (pa wts rts : Nat) (alloc dirty : Bool) : (s.holdLine pa wts rts alloc dirty).dev = s.dev := by
  unfold State.holdLine
  dsimp only
  split
  · rfl
  · split
    · rw [State.setPresent_dev, State.setFold_dev]
    · rfl

theorem State.homeStamp_sameRings (s : State) (l : Loc) (ts : Nat) (alloc : Bool) : s.SameRings (s.homeStamp l ts alloc).1 := by
  refine .trans (State.countSkew_sameRings s l ts) (.of_dev ?_)
  cases l with
  | scr c off => exact State.setCore_dev ..
  | mem pa => exact State.holdLine_dev ..

theorem Ring.note_hdr (r : Ring) (pa n tail size w : Nat) : (r.note pa n tail size w).hdr = r.hdr := by
  unfold Ring.note
  dsimp only
  split <;> split <;> rfl

theorem State.noteTail_sameRings (s : State) (pa n w : Nat) : s.SameRings (s.noteTail pa n w) := by
  refine ⟨rfl, fun i => ?_⟩
  simp [State.noteTail, Function.comp_def, Ring.note_hdr]

theorem State.homePut_sameRings (s : State) (l : Loc) (n v w : Nat) : s.SameRings (s.homePut l n v w) := by
  cases l with
  | scr c off => exact .of_dev (State.setCore_dev ..)
  | mem pa => exact .trans (t := { s with mem := s.mem.writeNat pa n v }) (.of_dev rfl) (State.noteTail_sameRings ..)

/-- A write at a home moves no ring. -/
theorem State.homeWrite_sameRings (s : State) (l : Loc) (n v ts : Nat) (alloc : Bool) : s.SameRings (s.homeWrite l n v ts alloc).1 :=
  (State.homeStamp_sameRings s l ts alloc).trans (State.homePut_sameRings _ l n v _)

theorem State.storeWord_sameRings {s t : State} {n root va v ts : Nat} (h : s.storeWord n root va v ts = some t) : s.SameRings t := by
  unfold State.storeWord at h
  dsimp only at h
  repeat' (split at h)
  all_goals cases h
  · exact State.homeWrite_sameRings ..
  · exact State.homeWrite_sameRings ..

/-- The completion of a launch moves no ring. -/
theorem State.completeLaunch_sameRings (s : State) (n : Nat) (l : Launch) (st : BitVec 8) (ts : Nat) : s.SameRings (s.completeLaunch n l st ts) := by
  unfold State.completeLaunch
  dsimp only
  refine .trans ?_ (State.homeWrite_sameRings ..)
  split
  · exact .refl s
  · split
    · next h => exact State.storeWord_sameRings h
    · exact ⟨rfl, fun _ => rfl⟩

end Sys2Proof.Machine
end

section
/-! SUPPORT. LAUNCH_RECORD_TAKE of a valid record in its turn (R289, R290, R291, R417). -/

namespace Sys2Proof.Machine

/-- Bytes apart from those written read as before. -/
theorem Memory.readNat_writeNat_out (m : Memory) (a n v x k : Nat) (h : x + k ≤ a ∨ a + n ≤ x) :
    Memory.readNat (Memory.writeNat m a n v) x k = Memory.readNat m x k := by
  induction k generalizing x with
  | zero => rfl
  | succ k ih => rw [Memory.readNat, Memory.readNat, ih _ (by omega), Memory.get_writeNat_out _ _ _ _ _ (by omega)]

/-! ## The record, and the state once it is taken -/

/-- Where the oldest record of a ring lies (R289). -/
def State.recordAddr (s : State) (r : Ring) : Nat := r.hdr + 64 + 64 * (s.mem.readNat r.hdr 8 % s.mem.readNat (r.hdr + 16) 4)

/-- Its 64 bytes. -/
def State.record (s : State) (r : Ring) : Nat := s.mem.readNat (s.recordAddr r) 64

/-- Whether the dispatcher refuses it (R290). -/
def State.recordRefused (s : State) (r : Ring) : Bool :=
  s.refuses (imgGet (s.record r) 16 1) (imgGet (s.record r) 18 1) (BitVec.ofNat 64 (imgGet (s.record r) 8 8))
    (s.readTable r.root (imgGet (s.record r) 0 8) 128) (s.moduleOf r.root (imgGet (s.record r) 0 8))

/-- The launch number that it is given (R292; log entry 87). -/
def State.recordNumber (s : State) : Nat := s.unusedFrom (s.dev.launches.length + 1) s.dev.nextLaunch

/-- Ring `i` holds a valid record whose turn it is, and no poisoned line holds its dispatcher back (R289, R291, R403). -/
structure State.RecordDue (s : State) (i : Nat) (r : Ring) : Prop where
  ring : s.dev.rings[i]? = some r
  stage : s.dev.stage = 4
  errcode : s.dev.errcode = 0
  removed : s.dev.removed = false
  poisoned : s.dev.poisoned = []
  ahead : s.mem.readNat r.hdr 8 ≠ s.mem.readNat (r.hdr + 8) 8
  size : s.mem.readNat (r.hdr + 16) 4 ≠ 0
  valid : imgGet (s.record r) 17 1 = 1
  pending : s.pendingOf (8 * s.dev.devnum + r.pasture) < 64
  turn : s.ringWaits r.pasture i = false

/-- VALID cleared, HEAD raised and the turn noted, at clock `ts` (R291, R417). -/
def State.recordTaken (s : State) (i : Nat) (r : Ring) (ts : Nat) : State :=
  let s1 := (s.homeWrite (.mem (s.recordAddr r + 17)) 1 0 ts true).1
  let s2 := (s1.homeWrite (.mem r.hdr) 8 (s.mem.readNat r.hdr 8 + 1) ts true).1
  { s2 with dev := { s2.dev with
    nextLaunch := nextNumber s.recordNumber, ringTurn := aset s2.dev.ringTurn r.pasture i,
    rings := s2.dev.rings.set i (((s2.dev.rings[i]?).getD r).past (s.mem.readNat r.hdr 8) (s.recordAddr r)) } }

section
variable {s : State} {i : Nat} {r : Ring} {ts : Nat}

theorem State.recordTaken_mem : (s.recordTaken i r ts).mem
    = (s.mem.writeNat (s.recordAddr r + 17) 1 0).writeNat r.hdr 8 (s.mem.readNat r.hdr 8 + 1) := by
  simp only [State.recordTaken, State.homeWrite_mem]

/-- HEAD is raised. -/
theorem State.recordTaken_head : (s.recordTaken i r ts).mem.readNat r.hdr 8 = (s.mem.readNat r.hdr 8 + 1) % 2 ^ 64 := by
  rw [State.recordTaken_mem, Memory.readNat_writeNat]

/-- VALID is 0. -/
theorem State.recordTaken_valid : (s.recordTaken i r ts).mem.readNat (s.recordAddr r + 17) 1 = 0 := by
  rw [State.recordTaken_mem, Memory.readNat_writeNat_out _ _ _ _ _ _ (.inr (by unfold State.recordAddr; omega)), Memory.readNat_writeNat, Nat.zero_mod]

/-- RETSEQ stands. -/
theorem State.recordTaken_retseq : (s.recordTaken i r ts).mem.readNat (r.hdr + 24) 8 = s.mem.readNat (r.hdr + 24) 8 := by
  rw [State.recordTaken_mem, Memory.readNat_writeNat_out _ _ _ _ _ _ (.inr (by omega)),
    Memory.readNat_writeNat_out _ _ _ _ _ _ (.inl (by unfold State.recordAddr; omega))]

/-- The dispatcher has taken from this ring last (R291). -/
theorem State.recordTaken_turn : aget (s.recordTaken i r ts).dev.ringTurn r.pasture = some i := aget_aset_self ..

/-- The ring's header lies where it lay. -/
theorem State.recordTaken_hdr (h : s.dev.rings[i]? = some r) : ((s.recordTaken i r ts).dev.rings[i]?).map Ring.hdr = some r.hdr := by
  have h2 := ((State.homeWrite_sameRings s (.mem (s.recordAddr r + 17)) 1 0 ts true).trans
    (State.homeWrite_sameRings _ (.mem r.hdr) 8 (s.mem.readNat r.hdr 8 + 1) ts true)).hdr i
  rw [h] at h2
  obtain ⟨r', hr', hhdr⟩ := Option.map_eq_some_iff.mp h2
  have hlt := (List.getElem?_eq_some_iff.mp hr').1
  simp only [State.recordTaken, hr', Option.getD_some, List.getElem?_set_self hlt, Option.map_some]
  exact congrArg some hhdr

end

/-- A completion that stores no word raises RETSEQ alone (R21, R22). -/
theorem State.completeLaunch_mem {s : State} {l : Launch} {hdr : Nat} (n : Nat) (st : BitVec 8) (ts : Nat) (hc : l.cword = 0)
    (hr : (s.dev.rings[l.ring]?).map Ring.hdr = some hdr) :
    (s.completeLaunch n l st ts).mem = s.mem.writeNat (hdr + 24) 8 (s.mem.readNat (hdr + 24) 8 + 1) := by
  have hr' : ((s.dev.rings[l.ring]?).map (·.hdr)).getD 0 = hdr := congrArg (Option.getD · 0) hr
  simp [State.completeLaunch, hc, hr', State.homeWrite_mem]

theorem State.setLaunch_ringTurn (s : State) (n : Nat) (l : Launch) : (s.setLaunch n l).dev.ringTurn = s.dev.ringTurn := rfl

/-! ## The launch -/

/-- The launch that a record makes, queued or refused (R289, R290). -/
structure State.RecordLaunch (s : State) (i : Nat) (r : Ring) (l : Launch) : Prop where
  prio : l.prio = imgGet (s.record r) 16 1
  recAddr : l.recAddr = s.recordAddr r
  ring : l.ring = i
  cword : l.cword = BitVec.ofNat 64 (imgGet (s.record r) 8 8)
  st : l.st = if s.recordRefused r then .retired else .queued
  status : l.status = if s.recordRefused r then 3 else 0

/-- How a record is taken: its launch completes at once with status 3 where it is refused; where it is queued, no more of memory and of the
turn changes. -/
def State.TakesRecord (s : State) (i : Nat) (r : Ring) (o : State) : Prop :=
  ∃ l ts t, s.RecordLaunch i r l ∧ o = State.setLaunch t s.recordNumber l
    ∧ (s.recordRefused r = true → t = (s.recordTaken i r ts).completeLaunch s.recordNumber l 3 ts)
    ∧ (s.recordRefused r = false → t.mem = (s.recordTaken i r ts).mem ∧ t.dev.ringTurn = (s.recordTaken i r ts).dev.ringTurn)

/-- A record that is due is taken. -/
theorem launchRecordTake_due {s : State} {i : Nat} {r : Ring} (h : s.RecordDue i r) :
    ∃ o, exec (.launchRecordTake i) s = .next o ∧ s.TakesRecord i r o := by
  obtain ⟨hring, hstage, herr, hrem, hpois, hahead, hsize, hvalid, hpend, hturn⟩ := h
  refine ⟨_, rfl, ?_⟩
  split
  · next hnone => cases hnone.symm.trans hring
  · next r' hr' =>
    obtain rfl : r' = r := Option.some.inj (hr'.symm.trans hring)
    extract_lets head tail size a d home held lts ts va dd m n bad l s1 s2 dev s3
    have ha : a = s.recordAddr r' := by simp only [a, size, head, State.recordAddr, if_neg hsize]
    have hd : d = s.record r' := by simp only [d, ha, State.record]
    have hbad : bad = s.recordRefused r' := by simp only [bad, hd, dd, m, va, State.recordRefused]
    have hheld : ∀ ls, held ls = false := by simp [held, hpois]
    have hgo : (s.dev.stage != 4 || s.dev.errcode != 0 || s.dev.removed || head == tail || size == 0 || imgGet d 17 1 != 1
        || decide (64 ≤ s.pendingOf home) || s.ringWaits r'.pasture i) = false := by
      simp [hstage, herr, hrem, hturn, hd, hvalid, head, tail, size, home, hahead, hsize, hpend]
    have hl : s.RecordLaunch i r' l :=
      ⟨by rw [← hd], ha, rfl, by rw [← hd], by rw [← hbad], by rw [← hbad]⟩
    have h3 : s3 = s.recordTaken i r' ts := by simp only [s3, dev, s2, s1, head, n, State.recordTaken, State.recordNumber, ← ha]
    rw [if_neg (by simp [hheld]), if_neg (by rw [hgo]; simp)]
    clear_value s3 l bad m
    split
    · next hb => exact ⟨l, ts, _, hl, rfl, fun _ => congrArg (State.completeLaunch · n l 3 ts) h3, fun hn => absurd hb (by simp [hbad, hn])⟩
    · next hb =>
      have hn : ¬s.recordRefused r' = true := hbad ▸ hb
      cases m with
      | some x => exact ⟨l, ts, _, hl, rfl, fun hr => absurd hr hn, fun _ => h3 ▸ ⟨rfl, rfl⟩⟩
      | none => exact ⟨l, ts, _, hl, rfl, fun hr => absurd hr hn, fun _ => h3 ▸ ⟨rfl, rfl⟩⟩

/-- What LAUNCH_RECORD_TAKE leaves to be seen (R289-R291): the launch, the ring's turn, and the words of the record and the queue. -/
theorem State.TakesRecord.spec {s o : State} {i : Nat} {r : Ring} (hring : s.dev.rings[i]? = some r) (h : s.TakesRecord i r o) :
    ∃ l, s.RecordLaunch i r l ∧ o.launch? s.recordNumber = some l ∧ aget o.dev.ringTurn r.pasture = some i
      ∧ (s.recordRefused r = false ∨ imgGet (s.record r) 8 8 = 0 →
          o.mem.readNat r.hdr 8 = (s.mem.readNat r.hdr 8 + 1) % 2 ^ 64 ∧ o.mem.readNat (s.recordAddr r + 17) 1 = 0)
      ∧ (s.recordRefused r = true → imgGet (s.record r) 8 8 = 0 →
          o.mem.readNat (r.hdr + 24) 8 = (s.mem.readNat (r.hdr + 24) 8 + 1) % 2 ^ 64) := by
  obtain ⟨l, ts, t, hl, rfl, hbad, hgood⟩ := h
  refine ⟨l, hl, aget_aset_self .., ?_⟩
  cases hb : s.recordRefused r
  · obtain ⟨hmem, hturn⟩ := hgood hb
    refine ⟨?_, fun _ => ?_, nofun⟩
    · rw [State.setLaunch_ringTurn, hturn, State.recordTaken_turn]
    · rw [State.setLaunch_mem, hmem]
      exact ⟨State.recordTaken_head, State.recordTaken_valid⟩
  · obtain rfl := hbad hb
    have hhdr : ((s.recordTaken i r ts).dev.rings[l.ring]?).map Ring.hdr = some r.hdr := by rw [hl.ring, State.recordTaken_hdr hring]
    have hword (h0 : imgGet (s.record r) 8 8 = 0) := State.completeLaunch_mem s.recordNumber 3 ts (hl.cword.trans (by rw [h0]; rfl)) hhdr
    refine ⟨?_, fun h0 => ?_, fun _ h0 => ?_⟩
    · have hturn := (State.completeLaunch_sameRings (s.recordTaken i r ts) s.recordNumber l 3 ts).turn
      rw [State.setLaunch_ringTurn, hturn, State.recordTaken_turn]
    · rw [State.setLaunch_mem, hword (h0.resolve_left nofun)]
      rw [Memory.readNat_writeNat_out _ _ _ _ _ _ (.inl (by omega)), Memory.readNat_writeNat_out _ _ _ _ _ _ (.inr (by unfold State.recordAddr; omega))]
      exact ⟨State.recordTaken_head, State.recordTaken_valid⟩
    · rw [State.setLaunch_mem, hword h0, Memory.readNat_writeNat, State.recordTaken_retseq]

end Sys2Proof.Machine
end

section
/-! SUPPORT. The events of a launch after its record is taken, and of a module that no launch uses (R16-R18, R20-R23, R353). -/

namespace Sys2Proof.Machine

section
variable {s : State} {n : Nat} {l : Launch}

/-- A record that has waited 2^24 ac rises a level (R17). -/
theorem launchPriorityRaise_due (h : s.launch? n = some l) (hst : l.st = .queued) (hp : l.prio < 3) (ha : l.raisedAt + 2 ^ 24 ≤ s.ac) :
    exec (.launchPriorityRaise n) s = .next (s.setLaunch n { l with prio := l.prio + 1, raisedAt := s.ac }) := by
  simp only [exec, execLaunchPriorityRaise, answer, h, hst, hp, ha, and_self, if_true]

/-- The folds that a turn of placement takes (R18, R292). -/
def State.foldsTaken (s : State) (l : Launch) : List Nat :=
  ((s.candidates l).filter fun f => (s.fold f).launch.isNone).take (l.desc.folds - l.gathered.length)

/-- The state with them held for the launch. -/
def State.withFolds (s : State) (n : Nat) (l : Launch) : State :=
  (s.foldsTaken l).foldl (fun s f => s.setFold f { s.fold f with launch := some n }) s

/-- The launch with them gathered. -/
def State.gathering (s : State) (l : Launch) : Launch := { l with st := .placing, gathered := l.gathered ++ s.foldsTaken l }

theorem State.withFolds_dev (s : State) (n : Nat) (l : Launch) : (s.withFolds n l).dev = s.dev := by
  unfold State.withFolds
  generalize s.foldsTaken l = fs
  induction fs generalizing s with
  | nil => rfl
  | cons f fs ih => exact ih _

/-- Placement waits for more folds while too few are free (R18). -/
theorem launchPlacement_waits (h : s.launch? n = some l) (hm : s.mayPlace n l = true) (hw : (s.gathering l).gathered.length < l.desc.folds) :
    exec (.launchPlacement n) s = .next ((s.withFolds n l).setLaunch n (s.gathering l)) := by
  have hwait : (decide ((s.gathering l).gathered.length < l.desc.folds) || (!(s.withFolds n l).dev.poisoned.isEmpty
      && ((s.withFolds n l).launchLines (s.gathering l)).any (s.withFolds n l).dev.poisoned.contains)) = true := by simp [hw]
  simp only [exec, execLaunchPlacement, answer, h, hm, Bool.not_true, Bool.false_eq_true, if_false]
  exact congrArg _ (if_pos hwait)

/-- Once all are held the launch starts, or goes on in its new folds (R18, R382). -/
theorem launchPlacement_starts (h : s.launch? n = some l) (hm : s.mayPlace n l = true) (hall : l.desc.folds ≤ (s.gathering l).gathered.length)
    (hp : s.dev.poisoned = []) :
    (l.released = none → exec (.launchPlacement n) s = .next ((s.withFolds n l).placeFresh n (s.gathering l)))
    ∧ ∀ was, l.released = some was → exec (.launchPlacement n) s = .next ((s.withFolds n l).placeAgain n (s.gathering l) was) := by
  have hgo : ¬(decide ((s.gathering l).gathered.length < l.desc.folds) || (!(s.withFolds n l).dev.poisoned.isEmpty
      && ((s.withFolds n l).launchLines (s.gathering l)).any (s.withFolds n l).dev.poisoned.contains)) = true := by
    simp [State.withFolds_dev, hp, hall]
  simp only [exec, execLaunchPlacement, answer, h, hm, Bool.not_true, Bool.false_eq_true, if_false]
  refine ⟨fun hr => congrArg _ ((if_neg hgo).trans ?_), fun was hr => congrArg _ ((if_neg hgo).trans ?_)⟩
  · split
    · rfl
    · next was hsome => cases hr.symm.trans hsome
  · split
    · next hnone => cases hr.symm.trans hnone
    · next was' hsome => cases hr.symm.trans hsome; rfl

/-- A launch that is Retiring, or Running with every shepherd ended, is Retiring with its locks freed, and retired once its work is done
(R21, R284). -/
theorem launchRetirement_due (h : s.launch? n = some l)
    (hr : l.st = .retiring ∨ l.st = .running ∧ ((coresOfPlacement l.folds l.desc.cores).all fun c => (s.slot c 0).st == .ended) = true) :
    let s2 := (s.freeLocks n).setLaunch n { l with st := .retiring }
    exec (.launchRetirement n) s = .next (if s2.drained l && !s2.retHeld l then s2.finishLaunch n l.status else s2) := by
  simp only [exec, execLaunchRetirement, answer, h, if_pos hr]

/-! ## Abort (R23) -/

/-- The status that an abort gives: a shepherd's fault that of a Running launch alone. -/
theorem launchAbort_eq (st : BitVec 8) (h : s.launch? n = some l) :
    exec (.launchAbort n st) s = .next (s.abortLaunch n (if st = 2 ∧ l.st = .running then 2 else 1)) := by
  simp only [exec, execLaunchAbort, answer, h, Option.map_some, Option.some.injEq]

/-- A queued launch is retired at once, where its completion can be written (R23, R403). -/
theorem State.abortLaunch_queued (st : BitVec 8) (h : s.launch? n = some l) (hst : l.st = .queued) :
    s.abortLaunch n st = if s.retHeld l then s.setLaunch n { l with st := .retiring, status := st, aborted := true } else s.finishLaunch n st := by
  simp only [State.abortLaunch, h, hst]

/-- One that is placed, runs, is pre-empted or Retiring is stopped, and retired when its writes are applied. -/
theorem State.abortLaunch_stops (st : BitVec 8) (h : s.launch? n = some l)
    (hst : l.st = .running ∨ l.st = .placing ∨ l.st = .preempted ∨ l.st = .retiring) (ha : l.aborted = false) :
    let s3 := (s.abandonWork n l).setLaunch n { ((s.abandonWork n l).launch? n).getD l with st := .retiring, status := st }
    s.abortLaunch n st = if s3.drained l && !s3.retHeld l then s3.finishLaunch n st else s3 := by
  rcases hst with hst | hst | hst | hst <;> simp only [State.abortLaunch, h, hst, ha, Bool.false_eq_true, if_false]

/-- One already aborted or retired is left alone. -/
theorem State.abortLaunch_idle (st : BitVec 8) (h : s.launch? n = some l) (hst : l.st ≠ .queued ∧ l.aborted = true ∨ l.st = .retired) :
    s.abortLaunch n st = s := by
  unfold State.abortLaunch
  simp only [h]
  split
  · rfl
  · next hq => exact absurd hst (by simp [hq])
  · next hne _ => exact if_pos (hst.resolve_right hne).2

end

/-! ## The statement -/

/-- A record that is due gives its launch the next number (R289-R292). -/
theorem launchRecordTake_spec {s : State} {i : Nat} {r : Ring} (h : s.RecordDue i r) :
    ∃ s2 l, exec (.launchRecordTake i) s = .next s2 ∧ s2.launch? s.recordNumber = some l ∧ l.prio = imgGet (s.record r) 16 1
      ∧ l.recAddr = s.recordAddr r ∧ l.ring = i ∧ (l.st = .queued ∨ l.st = .retired ∧ l.status = 3)
      ∧ (l.st = .retired ↔ s.recordRefused r = true) ∧ aget s2.dev.ringTurn r.pasture = some i
      ∧ (l.st = .queued ∨ imgGet (s.record r) 8 8 = 0 →
          s2.mem.readNat r.hdr 8 = (s.mem.readNat r.hdr 8 + 1) % 2 ^ 64 ∧ s2.mem.readNat (s.recordAddr r + 17) 1 = 0)
      ∧ (l.st = .retired → imgGet (s.record r) 8 8 = 0 → s2.mem.readNat (r.hdr + 24) 8 = (s.mem.readNat (r.hdr + 24) 8 + 1) % 2 ^ 64) := by
  obtain ⟨o, hexec, ho⟩ := launchRecordTake_due h
  obtain ⟨l, hl, hnum, hturn, hwords, hret⟩ := ho.spec h.ring
  refine ⟨o, l, hexec, hnum, hl.prio, hl.recAddr, hl.ring, ?_⟩
  cases hb : s.recordRefused r
  · have hst : l.st = .queued := by rw [hl.st, hb]; rfl
    exact ⟨.inl hst, iff_of_false (by simp [hst]) nofun, hturn, fun _ => hwords (.inl hb), fun hr => absurd (hst.symm.trans hr) nofun⟩
  · have hst : l.st = .retired := by rw [hl.st, hb]; rfl
    have hstatus : l.status = 3 := by rw [hl.status, hb]; rfl
    exact ⟨.inr ⟨hst, hstatus⟩, iff_of_true hst rfl, hturn, fun h0 => hwords (.inr (h0.resolve_left (by simp [hst]))), fun _ => hret hb⟩

/-- Settles O42, each event by the case of its meaning that its conditions select. -/
theorem launchesAdvance : Obligations.LaunchesAdvance := by
  refine ⟨?_, fun s n l h => ⟨fun hst hp ha => launchPriorityRaise_due h hst hp ha, fun hm => ?_, fun hr => launchRetirement_due h hr, fun st => ?_⟩,
    fun s m hst huse => ?_⟩
  · intro s i r hring hstage herr hrem hpois head tail size a d n hahead hsize hvalid hpend hturn
    exact launchRecordTake_spec ⟨hring, hstage, herr, hrem, hpois, hahead, hsize, hvalid, hpend, hturn⟩
  · intro got s2 l2
    rw [show s2 = s.withFolds n l from rfl, show l2 = s.gathering l from rfl]
    refine ⟨fun hw => launchPlacement_waits h hm hw, fun hall hp => ?_⟩
    obtain ⟨hfresh, hagain⟩ := launchPlacement_starts h hm hall hp
    cases hr : l.released with
    | none => exact hfresh hr
    | some was => exact hagain was hr
  · rw [launchAbort_eq st h]
    refine ⟨fun hst => ?_, fun hst ha => ?_, fun hst => ?_⟩
    · rw [if_neg (by simp [hst]), State.abortLaunch_queued 1 h hst]
    · rw [State.abortLaunch_stops _ h hst ha]
    · rw [State.abortLaunch_idle _ h hst]
  · simp only [exec, execModuleFree, answer, hst, huse, and_self, if_true]

end Sys2Proof.Machine
end

section
/-! SUPPORT. Integers narrowed to a type, and the quotient and remainder of a division (R36, R37, R38). -/

namespace Sys2Proof.Machine

/-! ## The range of a type (R36) -/

theorem tyWidth_pos_of_mem_intTys {t : Nat} (h : t ∈ intTys) : 0 < tyWidth t := by
  revert t
  decide

/-- The range of an integer type holds 2^w values. -/
theorem tyMax_eq_tyMin_add {t : Nat} (h : 0 < tyWidth t) : tyMax t = tyMin t + 2 ^ tyWidth t - 1 := by
  have hhalf : (2 : Int) ^ (tyWidth t - 1) + 2 ^ (tyWidth t - 1) = 2 ^ tyWidth t := by exact_mod_cast Nat.two_pow_pred_add_two_pow_pred h
  unfold tyMax tyMin
  push_cast
  split
  · rw [← hhalf]; ring
  · ring

theorem tyMin_le_tyMax {t : Nat} (h : 0 < tyWidth t) : tyMin t ≤ tyMax t := by
  have hpos : (0 : Int) < 2 ^ tyWidth t := by positivity
  rw [tyMax_eq_tyMin_add h]
  omega

/-- What is read at an integer type lies in its range. -/
theorem tyInt_mem_range {t : Nat} (h : 0 < tyWidth t) (x : Nat) : tyMin t ≤ tyInt t x ∧ tyInt t x ≤ tyMax t := by
  have hlt : x % 2 ^ tyWidth t < 2 ^ tyWidth t := Nat.mod_lt _ (by positivity)
  have hhalf := Nat.two_pow_pred_add_two_pow_pred h
  unfold tyMin tyMax tyInt sxInt
  dsimp only
  cases tyIsSigned t
  · simp only [Bool.false_eq_true, if_false]
    omega
  · simp only [if_true, if_neg h.ne']
    split <;> omega

/-- The value read is congruent to the number of which it is the low bits. -/
theorem dvd_tyInt_sub {t : Nat} (h : 0 < tyWidth t) (x : Nat) : (2 ^ tyWidth t : Int) ∣ tyInt t x - x := by
  have hx : (2 ^ tyWidth t : Int) ∣ ((x % 2 ^ tyWidth t : Nat) : Int) - x := by
    push_cast
    exact (Int.mod_modEq _ _).symm.dvd
  unfold tyInt sxInt
  dsimp only
  split
  · rw [if_neg h.ne']
    split
    · exact hx
    · push_cast at hx ⊢
      rw [sub_right_comm]
      exact hx.sub dvd_rfl
  · exact hx

/-- `wrapNat` is congruent to what it wraps (WRAP of R7). -/
theorem dvd_wrapNat_sub (w : Nat) (v : Int) : (2 ^ w : Int) ∣ (wrapNat w v : Int) - v := by
  unfold wrapNat
  rw [Int.toNat_of_nonneg (Int.emod_nonneg _ (by positivity))]
  push_cast
  exact (Int.mod_modEq _ _).symm.dvd

theorem dvd_tyInt_wrapNat_sub {t : Nat} (h : 0 < tyWidth t) (v : Int) : (2 ^ tyWidth t : Int) ∣ tyInt t (wrapNat (tyWidth t) v) - v := by
  simpa using (dvd_tyInt_sub h (wrapNat (tyWidth t) v)).add (dvd_wrapNat_sub (tyWidth t) v)

/-- A value of the range is read back from its low bits. -/
theorem tyInt_wrapNat_of_mem {t : Nat} (h : 0 < tyWidth t) {v : Int} (h1 : tyMin t ≤ v) (h2 : v ≤ tyMax t) :
    tyInt t (wrapNat (tyWidth t) v) = v := by
  obtain ⟨r1, r2⟩ := tyInt_mem_range h (wrapNat (tyWidth t) v)
  rw [tyMax_eq_tyMin_add h] at h2 r2
  have habs : |tyInt t (wrapNat (tyWidth t) v) - v| < 2 ^ tyWidth t := abs_lt.mpr ⟨by omega, by omega⟩
  exact Int.sub_eq_zero.mp (Int.eq_zero_of_abs_lt_dvd (dvd_tyInt_wrapNat_sub h v) habs)

/-! ## NARROW (R37, R139) -/

/-- SATI clamps into the range. -/
theorem sati_fst {t : Nat} (h : 0 < tyWidth t) (v : Int) : (sati t v).1 = max (tyMin t) (min (tyMax t) v) := by
  have hle := tyMin_le_tyMax h
  unfold sati
  split
  · omega
  · split <;> omega

/-- SATI says so when the value lay outside. -/
theorem sati_snd (t : Nat) (v : Int) : (sati t v).2 = flagIf (decide (v < tyMin t ∨ tyMax t < v)) flagSAT := by
  unfold sati flagIf
  split
  · next hlo => simp [hlo]
  · next hlo =>
    split
    · next hhi => simp [hhi]
    · next hhi => simp [hlo, hhi]

theorem flagIf_eq_flagSAT (b : Bool) : flagIf b flagSAT = flagSAT ↔ b = true := by cases b <;> decide

theorem flagIf_flagSAT_eq_zero (b : Bool) : flagIf b flagSAT = 0 ↔ b = false := by cases b <;> decide

/-- Settles O1, from the range of a type and the congruence of WRAP. -/
theorem narrowClampsOrWraps : Obligations.NarrowClampsOrWraps := by
  intro t ht v
  have h := tyWidth_pos_of_mem_intTys ht
  have hle := tyMin_le_tyMax h
  have hclamp : tyInt t (narrow t true v).1 = max (tyMin t) (min (tyMax t) v) :=
    (congrArg (fun x => tyInt t (wrapNat (tyWidth t) x)) (sati_fst h v)).trans
      (tyInt_wrapNat_of_mem h (le_max_left _ _) (max_le hle (min_le_left _ _)))
  have hflag : (narrow t true v).2 = flagIf (decide (v < tyMin t ∨ tyMax t < v)) flagSAT := sati_snd t v
  obtain ⟨hlo, hhi⟩ := tyInt_mem_range h (wrapNat (tyWidth t) v)
  refine ⟨hclamp, ?_, ?_, hlo, hhi, dvd_tyInt_wrapNat_sub h v, rfl⟩
  · rw [hflag, flagIf_eq_flagSAT, decide_eq_true_iff]
  · rw [hflag, flagIf_flagSAT_eq_zero, decide_eq_false_iff_not, not_or, not_lt, not_lt]

/-! ## Division (R38) -/

theorem divInt_zero (t : Nat) (a : Int) : divInt t a 0 = (if tyIsSigned t then -1 else tyMax t, flagDZ) := if_pos rfl

theorem remInt_zero (t : Nat) (a : Int) : remInt t a 0 = (a, flagDZ) := if_pos rfl

/-- The most negative value divided by −1. -/
theorem divInt_overflow {t : Nat} (h : tyIsSigned t = true) : divInt t (tyMin t) (-1) = (tyMin t, 0) := by
  simp [divInt, h]

theorem remInt_overflow {t : Nat} (h : tyIsSigned t = true) : remInt t (tyMin t) (-1) = (0, 0) := by
  simp [remInt, h]

/-- Everywhere else the quotient truncates. -/
theorem divInt_tdiv {t : Nat} {a b : Int} (hb : b ≠ 0) (h : ¬(tyIsSigned t = true ∧ a = tyMin t ∧ b = -1)) :
    divInt t a b = (a.tdiv b, 0) := by
  rw [divInt, if_neg hb, if_neg (by simpa using fun ha h1 h2 => h ⟨h2, ha, h1⟩)]

theorem remInt_tmod {t : Nat} {a b : Int} (hb : b ≠ 0) (h : ¬(tyIsSigned t = true ∧ a = tyMin t ∧ b = -1)) :
    remInt t a b = (a.tmod b, 0) := by
  rw [remInt, if_neg hb, if_neg (by simpa using fun ha h1 h2 => h ⟨h2, ha, h1⟩)]

/-- The remainder of a truncating division is 0 or has the sign of the dividend. -/
theorem tmod_mul_self_nonneg (a b : Int) : 0 ≤ a.tmod b * a := by
  obtain ha | ha := le_total 0 a
  · exact mul_nonneg (Int.tmod_nonneg b ha) ha
  · have hneg : 0 ≤ (-a).tmod b := Int.tmod_nonneg b (neg_nonneg.mpr ha)
    rw [Int.neg_tmod] at hneg
    exact mul_nonneg_of_nonpos_of_nonpos (neg_nonneg.mp hneg) ha

/-- Settles O2, case by case of R38's table and by truncating division elsewhere. -/
theorem divisionTruncatesWithTabledCorners : Obligations.DivisionTruncatesWithTabledCorners := by
  intro t _ a b _ _ _ _
  refine ⟨fun hb => ?_, fun hs ha hb => ?_, fun hb h => ?_⟩
  · subst hb
    exact ⟨divInt_zero t a, remInt_zero t a⟩
  · subst ha hb
    exact ⟨divInt_overflow hs, remInt_overflow hs⟩
  · rw [divInt_tdiv hb h, remInt_tmod hb h]
    refine ⟨rfl, rfl, ?_, ?_, tmod_mul_self_nonneg a b⟩
    · rw [mul_comm]
      exact (Int.mul_tdiv_add_tmod a b).symm
    · rw [Int.natAbs_tmod]
      exact Nat.mod_lt _ (Int.natAbs_pos.mpr hb)

end Sys2Proof.Machine
end

section
/-! SUPPORT. Instructions that complete at their issue, and the results of moves, reductions, compares and predicate instructions
(R164, R174, R175, R176, R177). -/

namespace Sys2Proof.Machine

/-- An instruction whose effect is a completion `eff` of its reads, from the state after them, completes so at its issue. -/
theorem completes_of_done {i : Instr} {body : State → Eff → Res} {eff : State → Eff → Eff} (h : ∀ s, exec i s = meaning i none body s)
    (hb : ∀ s e, body s e = .done s (eff s e)) : ∀ s s1 e, Ready i s s1 e → exec i s = .next (s1.commit (eff s1 e)) := by
  intro s s1 e hr
  rw [h]
  exact meaning_done hr (hb s1 e)

/-! ## Predicates bit by bit (R176) -/

theorem pandBody_eq (f : FmtR) (s : State) (e : Eff) :
    pandBody f s e = doneP s e f.d (s.predOf f.pg 0 fun j => (s.rp f.a).getLsbD j && (s.rp f.b).getLsbD j) := by
  simp only [pandBody, BitVec.getLsbD_and]

theorem porBody_eq (f : FmtR) (s : State) (e : Eff) :
    porBody f s e = doneP s e f.d (s.predOf f.pg 0 fun j => (s.rp f.a).getLsbD j || (s.rp f.b).getLsbD j) := by
  simp only [porBody, BitVec.getLsbD_or]

theorem pxorBody_eq (f : FmtR) (s : State) (e : Eff) :
    pxorBody f s e = doneP s e f.d (s.predOf f.pg 0 fun j => ((s.rp f.a).getLsbD j).xor ((s.rp f.b).getLsbD j)) := by
  simp only [pxorBody, BitVec.getLsbD_xor]

/-! ## The first of the set elements (R177) -/

theorem setElems_head? (s : State) (f : FmtR) :
    (s.setElems f).head? = (List.range (lanes s.part.vw (s.tyOf f))).find? fun i =>
      s.active f.pg (s.tyOf f) i && (s.rp f.a).getLsbD (predBit (s.tyOf f) i) :=
  List.head?_filter ..

/-- What PFIRST writes for the first set element, if there is one. -/
def firstWord : Option Nat → Word
  | some i => BitVec.ofNat 64 i
  | none => BitVec.allOnes 64

theorem pfirstBody_eq (f : FmtR) (s : State) (e : Eff) : pfirstBody f s e = doneS s e f.d (firstWord (s.setElems f).head?) := by
  unfold pfirstBody
  cases s.setElems f <;> rfl

/-- Settles O9: each effect is the completion of its row, that of a bitwise predicate bit by bit, that of PFIRST by the first of the set
elements. -/
theorem vectorMoveReductionAndPredicateResults : Obligations.VectorMoveReductionAndPredicateResults := by
  refine ⟨fun f => ⟨?vsplat, ?vmov, ?viota, ?vperm, ?vins, ?vext, ?vred, ?vscan, ?vcmp⟩,
    fun f => ⟨?plt, ?pset, ?pand, ?por, ?pxor, ?pnot, ?pcnt, ?pfirst⟩⟩
  case pand => exact completes_of_done (fun _ => rfl) (pandBody_eq f)
  case por => exact completes_of_done (fun _ => rfl) (porBody_eq f)
  case pxor => exact completes_of_done (fun _ => rfl) (pxorBody_eq f)
  case pfirst =>
    refine completes_of_done (fun _ => rfl) fun s e => ?_
    rw [pfirstBody_eq, setElems_head?]
    rfl
  case vsplat | vmov | viota | vperm | vins | vext | vred | vscan | vcmp | plt | pset | pnot | pcnt =>
    exact completes_of_done (fun _ => rfl) fun _ _ => rfl

end Sys2Proof.Machine
end

section
/-! SUPPORT. Values packed into a number, and the bits read from it (R154, R172). -/

namespace Sys2Proof.Machine

/-! ## A number made of two parts -/

theorem add_shiftLeft_lt {a b n m : Nat} (ha : a < 2 ^ n) (hb : b < 2 ^ m) : a + b <<< n < 2 ^ (n + m) := by
  have hle : (b + 1) * 2 ^ n ≤ 2 ^ m * 2 ^ n := Nat.mul_le_mul_right _ hb
  rw [Nat.shiftLeft_eq, Nat.add_comm n, pow_add]
  rw [Nat.add_mul] at hle
  omega

/-- Bits below the place of the second part are those of the first. -/
theorem field_add_shiftLeft_low (a b : Nat) {n p q : Nat} (h : p + q ≤ n) : ((a + b <<< n) >>> p) % 2 ^ q = (a >>> p) % 2 ^ q := by
  obtain ⟨k, rfl⟩ := Nat.exists_eq_add_of_le h
  rw [Nat.shiftRight_eq_div_pow, Nat.shiftRight_eq_div_pow, Nat.shiftLeft_eq, pow_add, pow_add,
    show a + b * (2 ^ p * 2 ^ q * 2 ^ k) = a + 2 ^ p * (2 ^ q * (b * 2 ^ k)) by ring,
    Nat.add_mul_div_left _ _ (by positivity), Nat.add_mul_mod_self_left]

/-- Bits above it are those of the second. -/
theorem shiftRight_add_shiftLeft_high {a n : Nat} (b p : Nat) (h : a < 2 ^ n) : (a + b <<< n) >>> (n + p) = b >>> p := by
  rw [Nat.shiftRight_add, Nat.shiftRight_eq_div_pow _ n, Nat.shiftLeft_eq, Nat.add_mul_div_right _ _ (by positivity),
    Nat.div_eq_of_lt h, Nat.zero_add]

/-- A field of a field. -/
theorem field_field (x n : Nat) {w p q : Nat} (h : p + q ≤ w) : (((x >>> n) % 2 ^ w) >>> p) % 2 ^ q = (x >>> (n + p)) % 2 ^ q := by
  rw [Nat.shiftRight_add]
  conv_rhs => rw [← Nat.mod_add_div' (x >>> n) (2 ^ w), ← Nat.shiftLeft_eq, field_add_shiftLeft_low _ _ h]

/-- A number that fits is read back from a word. -/
theorem toNat_ofNat_of_lt_two_pow {x m w : Nat} (h : x < 2 ^ m) (hm : m ≤ w) : (BitVec.ofNat w x).toNat = x := by
  rw [BitVec.toNat_ofNat]
  exact Nat.mod_eq_of_lt (h.trans_le (Nat.pow_le_pow_right Nat.two_pos hm))

/-! ## Values packed at a width -/

theorem packLanes_lt (w : Nat) (xs : List Nat) : packLanes w xs < 2 ^ (w * xs.length) := by
  induction xs with
  | nil => simp [packLanes]
  | cons x xs ih =>
    rw [packLanes, List.length_cons, Nat.mul_succ, Nat.add_comm (w * _)]
    exact add_shiftLeft_lt (Nat.mod_lt _ (by positivity)) ih

/-- Bits within one of the values. -/
theorem packLanes_field {w p q : Nat} (h : p + q ≤ w) (xs : List Nat) (j : Nat) :
    (packLanes w xs >>> (w * j + p)) % 2 ^ q = (xs.getD j 0 >>> p) % 2 ^ q := by
  induction xs generalizing j with
  | nil => simp [packLanes]
  | cons x xs ih =>
    cases j with
    | zero =>
      rw [packLanes, Nat.mul_zero, Nat.zero_add, field_add_shiftLeft_low _ _ h, List.getD_cons_zero]
      simpa using field_field x 0 h
    | succ j =>
      rw [packLanes, Nat.mul_succ, Nat.add_comm (w * j), Nat.add_assoc,
        shiftRight_add_shiftLeft_high _ _ (Nat.mod_lt _ (by positivity)), ih, List.getD_cons_succ]

/-- One of the values. -/
theorem packLanes_value (w : Nat) (xs : List Nat) (j : Nat) : (packLanes w xs >>> (w * j)) % 2 ^ w = xs.getD j 0 % 2 ^ w := by
  simpa using packLanes_field (p := 0) (Nat.zero_add w).le xs j

/-! ## Blocks and their scales -/

/-- Blocks of `eb` bytes, past the `nb` of them a byte for each as its scale, and zeros (R172). -/
def blockVector (nb eb : Nat) (es ss : List Nat) : VReg :=
  BitVec.ofNat 2048 (packLanes (8 * eb) es + (packLanes 8 ss <<< (8 * (nb * eb))))

section
variable {nb eb : Nat} {es ss : List Nat} (hes : es.length = nb) (hss : ss.length = nb) (hfit : nb * (eb + 1) ≤ 256)

include hes in
theorem packed_blocks_lt : packLanes (8 * eb) es < 2 ^ (8 * (nb * eb)) := by
  convert packLanes_lt (8 * eb) es using 2
  rw [hes]
  ring

include hes hss in
theorem packed_lt : packLanes (8 * eb) es + (packLanes 8 ss <<< (8 * (nb * eb))) < 2 ^ (8 * (nb * (eb + 1))) := by
  have hs : packLanes 8 ss < 2 ^ (8 * nb) := hss ▸ packLanes_lt 8 ss
  rw [Nat.mul_succ, Nat.mul_add]
  exact add_shiftLeft_lt (packed_blocks_lt hes) hs

include hes hss hfit

theorem blockVector_toNat : (blockVector nb eb es ss).toNat = packLanes (8 * eb) es + (packLanes 8 ss <<< (8 * (nb * eb))) :=
  toNat_ofNat_of_lt_two_pow (packed_lt hes hss) (by omega)

/-- Bits within one of the blocks. -/
theorem blockVector_field {p q : Nat} (h : p + q ≤ 8 * eb) {j : Nat} (hj : j < nb) :
    ((blockVector nb eb es ss).toNat >>> (8 * eb * j + p)) % 2 ^ q = (es.getD j 0 >>> p) % 2 ^ q := by
  have hin : 8 * eb * j + p + q ≤ 8 * (nb * eb) := calc
    8 * eb * j + p + q ≤ 8 * eb * (j + 1) := by rw [Nat.mul_succ]; omega
    _ ≤ 8 * eb * nb := Nat.mul_le_mul_left _ hj
    _ = 8 * (nb * eb) := by ring
  rw [blockVector_toNat hes hss hfit, field_add_shiftLeft_low _ _ hin, packLanes_field h]

/-- A scale. -/
theorem vbyte_blockVector_scale (j : Nat) : vbyte (blockVector nb eb es ss) (nb * eb + j) = ss.getD j 0 % 256 := by
  rw [vbyte, blockVector_toNat hes hss hfit, Nat.mul_add, shiftRight_add_shiftLeft_high _ _ (packed_blocks_lt hes)]
  exact packLanes_value 8 ss j

/-- Every byte past the scales. -/
theorem vbyte_blockVector_past {b : Nat} (hb : nb * (eb + 1) ≤ b) : vbyte (blockVector nb eb es ss) b = 0 := by
  have hlt : (blockVector nb eb es ss).toNat < 2 ^ (8 * b) := by
    rw [blockVector_toNat hes hss hfit]
    exact (packed_lt hes hss).trans_le (Nat.pow_le_pow_right Nat.two_pos (by omega))
  rw [vbyte, Nat.shiftRight_eq_div_pow, Nat.div_eq_of_lt hlt]

end

end Sys2Proof.Machine
end

section
/-! SUPPORT. The blocks and scales that BADDQ writes, and the results of conversions and chunk sums (R165-R172). -/

namespace Sys2Proof.Machine

/-! ## The TY of an instruction that is ready (R76, R155) -/

theorem firstBad_none_head {b : Bool} {n : Nat} {xs : List (Bool × Nat)} (h : firstBad ((b, n) :: xs) = none) : b = false := by
  cases b
  · rfl
  · cases h

/-- An issue that passes the checks before its own passes step 7 of R82. -/
theorem check7_of_precheck {s : State} {i : Instr} {v : View} (hv : i.view = some v) (h : s.precheck i = none) :
    i.check7 s.thread.ety s.part.vw s.isSys = none := by
  unfold State.precheck at h
  simp only [hv] at h
  split at h
  · cases h
  · split at h
    · cases h
    · split at h
      · cases h
      · next hor => exact (Option.or_eq_none_iff.mp hor).1

/-- Step 7 of R82 passes only a TY that the row has (R76, R155). -/
theorem tys_of_check7 {i : Instr} {v : View} {efmt : Word} {vw : Nat} {sys : Bool} (hv : i.view = some v)
    (h18 : v.spec.tys.getLsbD 0x18 = false) (h : i.check7 efmt vw sys = none) :
    v.spec.tys.getLsbD (resolveTy efmt v.body.ty) = true := by
  unfold Instr.check7 at h
  simp only [hv] at h
  split at h
  · cases h
  · next hbad =>
    have hty := firstBad_none_head hbad
    simp only [Bool.not_eq_false', Bool.or_eq_true, Bool.and_eq_true] at hty
    obtain ⟨-, hplain⟩ | ⟨⟨-, hnar⟩, -⟩ := hty
    · have hne : v.body.ty ≠ 0x18 := fun he => by rw [he, h18] at hplain; cases hplain
      rwa [resolveTy, if_neg hne]
    · exact hnar

/-- The reads of an issue leave the EFMT by which its TY is read (R155). -/
theorem ety_of_ready {i : Instr} {s s1 : State} {e : Eff} (h : Ready i s s1 e) : s1.thread.ety = s.thread.ety := by
  obtain ⟨rfl, -⟩ := prepare_ok h.2
  obtain ht | ht := State.thread_setThread_cases s _ <;> rw [ht]
  rfl

/-- An instruction that is ready has a TY of its row, also after its reads. -/
theorem tys_of_ready {i : Instr} {v : View} {s s1 : State} {e : Eff} (hv : i.view = some v) (h18 : v.spec.tys.getLsbD 0x18 = false)
    (h : Ready i s s1 e) : v.spec.tys.getLsbD (resolveTy s1.thread.ety v.body.ty) = true := by
  rw [ety_of_ready h]
  exact tys_of_check7 hv h18 (check7_of_precheck hv h.1)

/-- The types of BADDQ: i8, e4m3, e5m2 and e2m1. -/
theorem baddq_ty {f : FmtR} {s s1 : State} {e : Eff} (h : Ready (.baddq f) s s1 e) :
    s1.tyOf f = 0x01 ∨ s1.tyOf f = 0x13 ∨ s1.tyOf f = 0x14 ∨ s1.tyOf f = 0x15 := by
  have hcases : ∀ t < 64, (0x380002 : BitVec 64).getLsbD t = true → t = 0x01 ∨ t = 0x13 ∨ t = 0x14 ∨ t = 0x15 := by decide
  have h18 : (0x380002 : BitVec 64).getLsbD 0x18 = false := by decide
  have htys : (0x380002 : BitVec 64).getLsbD (s1.tyOf f) = true := tys_of_ready (i := .baddq f) rfl h18 h
  exact hcases _ (BitVec.lt_of_getLsbD htys) htys

/-- Eight elements of a block fill it, and the blocks with their scales lie in a register. -/
theorem baddqShape_fits {t : Nat} (vw : Nat) (h : t = 0x01 ∨ t = 0x13 ∨ t = 0x14 ∨ t = 0x15) :
    (baddqShape t vw).2 = tyWidth t ∧ (baddqShape t vw).1 * ((baddqShape t vw).2 + 1) ≤ 256 := by
  unfold baddqShape
  obtain rfl | rfl | rfl | rfl := h <;> (by_cases hvw : vw = 2048 <;> simp [hvw, tyWidth])

/-! ## The blocks of BADDQ -/

/-- The sum of block `j` (R172), with its scale and flags. -/
def State.baddqSum (s : State) (f : FmtR) (j : Nat) : List Nat × Nat × Word :=
  let t := s.tyOf f
  let sc := (baddqShape t s.part.vw).1 * (baddqShape t s.part.vw).2 + j
  baddqBlock t ((List.range' (8 * j) 8).map (elem t (s.rv t f.a))) ((List.range' (8 * j) 8).map (elem t (s.rv t f.b)))
    (vbyte (s.rv t f.a) sc) (vbyte (s.rv t f.b) sc)

/-- Block `j` as BADDQ writes it: its bytes, its scale and the flags that it sets. -/
def State.baddqPart (s : State) (f : FmtR) (j : Nat) : Nat × Nat × Word :=
  let nb := (baddqShape (s.tyOf f) s.part.vw).1
  let eb := (baddqShape (s.tyOf f) s.part.vw).2
  if s.active f.pg 0 (nb * eb + j) then
    (packLanes (tyWidth (s.tyOf f)) (s.baddqSum f j).1, (s.baddqSum f j).2.1, (s.baddqSum f j).2.2)
  else if zBit f then (0, 0, 0)
  else (((s.keepV f.d).toNat >>> (8 * eb * j)) % 2 ^ (8 * eb), vbyte (s.keepV f.d) (nb * eb + j), 0)

/-- What BADDQ writes to D. -/
def State.baddqVector (s : State) (f : FmtR) : VReg :=
  let nb := (baddqShape (s.tyOf f) s.part.vw).1
  blockVector nb (baddqShape (s.tyOf f) s.part.vw).2 ((List.range nb).map fun j => (s.baddqPart f j).1)
    ((List.range nb).map fun j => (s.baddqPart f j).2.1)

theorem baddqBody_eq (f : FmtR) (s : State) (e : Eff) :
    baddqBody f s e = doneV s e f.d (s.baddqVector f)
      (orFlags ((List.range (baddqShape (s.tyOf f) s.part.vw).1).map fun j => (s.baddqPart f j).2.2)) := by
  simp only [baddqBody, List.map_map]
  rfl

theorem baddqSum_length (s : State) (f : FmtR) (j : Nat) : (s.baddqSum f j).1.length = 8 := by
  simp [State.baddqSum, baddqBlock]

theorem elem_eq {t : Nat} (h16 : t ≠ 0x16) (hw : tyWidth t ≠ 0) (x : VReg) (i : Nat) :
    elem t x i = (x.toNat >>> (tyWidth t * i)) % 2 ^ tyWidth t := by
  simp only [elem, if_neg h16, if_neg hw]

section
variable {s : State} {f : FmtR} {nb eb : Nat} (hshape : baddqShape (s.tyOf f) s.part.vw = (nb, eb)) (hfit : nb * (eb + 1) ≤ 256)
include hshape

theorem baddqPart_active {j : Nat} (h : s.active f.pg 0 (nb * eb + j) = true) :
    s.baddqPart f j = (packLanes (tyWidth (s.tyOf f)) (s.baddqSum f j).1, (s.baddqSum f j).2.1, (s.baddqSum f j).2.2) := by
  simp only [State.baddqPart, hshape, h, if_true]

theorem baddqPart_inactive {j : Nat} (h : s.active f.pg 0 (nb * eb + j) = false) :
    s.baddqPart f j = if zBit f then (0, 0, 0)
      else (((s.keepV f.d).toNat >>> (8 * eb * j)) % 2 ^ (8 * eb), vbyte (s.keepV f.d) (nb * eb + j), 0) := by
  simp only [State.baddqPart, hshape, h, Bool.false_eq_true, if_false]

theorem baddqPart_flags (j : Nat) : (s.baddqPart f j).2.2 = if s.active f.pg 0 (nb * eb + j) then (s.baddqSum f j).2.2 else 0 := by
  cases h : s.active f.pg 0 (nb * eb + j)
  · rw [baddqPart_inactive hshape h]
    cases zBit f <;> rfl
  · rw [baddqPart_active hshape h]
    rfl

include hfit

/-- The scale of a block. -/
theorem vbyte_baddqVector_scale {j : Nat} (hj : j < nb) : vbyte (s.baddqVector f) (nb * eb + j) = (s.baddqPart f j).2.1 % 256 := by
  simp only [State.baddqVector, hshape]
  rw [vbyte_blockVector_scale (by simp) (by simp) hfit]
  simp [hj]

/-- Bits within one of the blocks. -/
theorem baddqVector_field {p q j : Nat} (h : p + q ≤ 8 * eb) (hj : j < nb) :
    ((s.baddqVector f).toNat >>> (8 * eb * j + p)) % 2 ^ q = ((s.baddqPart f j).1 >>> p) % 2 ^ q := by
  simp only [State.baddqVector, hshape]
  rw [blockVector_field (by simp) (by simp) hfit h hj]
  simp [hj]

/-- Every byte past the scales. -/
theorem vbyte_baddqVector_past {b : Nat} (h : nb * (eb + 1) ≤ b) : vbyte (s.baddqVector f) b = 0 := by
  simp only [State.baddqVector, hshape]
  exact vbyte_blockVector_past (by simp) (by simp) hfit h

/-- Byte `i` of a block. -/
theorem vbyte_baddqVector_block {i j : Nat} (hi : i < eb) (hj : j < nb) :
    vbyte (s.baddqVector f) (eb * j + i) = ((s.baddqPart f j).1 >>> (8 * i)) % 2 ^ 8 := by
  rw [vbyte, Nat.mul_add, ← Nat.mul_assoc]
  exact baddqVector_field (p := 8 * i) (q := 8) hshape hfit (by omega) hj

/-- The scale of an active block. -/
theorem vbyte_baddqVector_scale_active {j : Nat} (hj : j < nb) (hon : s.active f.pg 0 (nb * eb + j) = true) :
    vbyte (s.baddqVector f) (nb * eb + j) = (s.baddqSum f j).2.1 % 256 := by
  rw [vbyte_baddqVector_scale hshape hfit hj, baddqPart_active hshape hon]

/-- An active block is the sum, requantized. -/
theorem baddqVector_elems_active (h16 : s.tyOf f ≠ 0x16) (hw : tyWidth (s.tyOf f) ≠ 0) (heb : eb = tyWidth (s.tyOf f)) {j : Nat}
    (hj : j < nb) (hon : s.active f.pg 0 (nb * eb + j) = true) :
    (List.range' (8 * j) 8).map (elem (s.tyOf f) (s.baddqVector f)) = (s.baddqSum f j).1.map (· % 2 ^ tyWidth (s.tyOf f)) := by
  refine List.ext_getElem (by simp [baddqSum_length]) fun k hk hk' => ?_
  have hk8 : k < 8 := by simpa using hk
  have hin : tyWidth (s.tyOf f) * k + tyWidth (s.tyOf f) ≤ 8 * eb := by
    rw [heb, ← Nat.mul_succ, Nat.mul_comm 8]
    exact Nat.mul_le_mul_left _ hk8
  have hplace : tyWidth (s.tyOf f) * (8 * j + k) = 8 * eb * j + tyWidth (s.tyOf f) * k := by rw [heb]; ring
  have hfield := baddqVector_field hshape hfit hin hj
  rw [← hplace, ← elem_eq h16 hw, baddqPart_active hshape hon, packLanes_value] at hfield
  have hlen : k < (s.baddqSum f j).1.length := by simpa using hk'
  simpa [hlen] using hfield

/-- An inactive block keeps its bytes, or is zeroed under `.z`. -/
theorem vbyte_baddqVector_inactive {i j : Nat} (hi : i < eb) (hj : j < nb) (hoff : s.active f.pg 0 (nb * eb + j) = false) :
    vbyte (s.baddqVector f) (eb * j + i) = if zBit f then 0 else vbyte (s.keepV f.d) (eb * j + i) := by
  rw [vbyte_baddqVector_block hshape hfit hi hj, baddqPart_inactive hshape hoff]
  cases zBit f
  · simp only [Bool.false_eq_true, if_false]
    rw [field_field _ _ (by omega), vbyte, Nat.mul_add, ← Nat.mul_assoc]
    rfl
  · simp

/-- So does its scale. -/
theorem vbyte_baddqVector_scale_inactive {j : Nat} (hj : j < nb) (hoff : s.active f.pg 0 (nb * eb + j) = false) :
    vbyte (s.baddqVector f) (nb * eb + j) = if zBit f then 0 else vbyte (s.keepV f.d) (nb * eb + j) := by
  rw [vbyte_baddqVector_scale hshape hfit hj, baddqPart_inactive hshape hoff]
  cases zBit f
  · exact Nat.mod_mod _ _
  · rfl

end

/-! ## Completion -/

theorem baddq_completes {f : FmtR} {s s1 : State} {e : Eff} (h : Ready (.baddq f) s s1 e) :
    exec (.baddq f) s = .next (s1.commit (e.vector f.d (s1.baddqVector f)
      (orFlags ((List.range (baddqShape (s1.tyOf f) s1.part.vw).1).map fun j => (s1.baddqPart f j).2.2)))) :=
  completes_of_done (fun _ => rfl) (baddqBody_eq f) s s1 e h

/-- The lane of VLACC: a chunk of five products added where it is active (R170). -/
def State.vlaccLane (s : State) (f : FmtR) (i : Nat) : Nat × Word :=
  if s.active f.pg 0x16 (5 * i) then
    chunkAcc (elem 0x12 (s.accV f.d) i) (chunkSum ((List.range' (5 * i) 5).map fun k =>
      mulV 0x16 (elem 0x16 (s.rv 0x16 f.a) k) 0x16 (elem 0x16 (s.rv 0x16 f.b) k)) (.fin false 0 0, 0)) 0
  else (elem 0x12 (s.accV f.d) i, 0)

theorem vlaccBody_eq (f : FmtR) (s : State) (e : Eff) :
    vlaccBody f s e = doneV s e f.d (ofElems 0x12 ((List.range (s.part.vw / 32)).map fun i => (s.vlaccLane f i).1))
      (orFlags ((List.range (s.part.vw / 32)).map fun i => (s.vlaccLane f i).2)) := by
  simp only [vlaccBody, List.map_map]
  rfl

/-- The lane of VDOT: the products of its active elements added, if there are any (R171). -/
def State.vdotLane (s : State) (f : FmtR) (i : Nat) : Nat × Word :=
  let t := s.tyOf f
  let tb := bxTy (f.mod.getLsbD 4) t
  let r := 32 / (if tyWidth t = 0 then 32 else tyWidth t)
  let d := elem 0x12 (s.accV f.d) i
  let ks := (List.range' (i * r) r).filter (s.active f.pg t)
  if ks.isEmpty then (d, 0)
  else if tyIsInt t then chunkInt (f.mod.getLsbD 3) d (chunkSumInt (ks.map fun k =>
    (tyInt t (elem t (s.rv t f.a) k), tyInt tb (elem tb (s.rv tb f.b) k))))
  else chunkAcc d (chunkSum (ks.map fun k => mulV t (elem t (s.rv t f.a) k) t (elem t (s.rv tb f.b) k)) (.fin false 0 0, 0)) 0

theorem vdotBody_eq (f : FmtR) (s : State) (e : Eff) :
    vdotBody f s e = doneV s e f.d (ofElems 0x12 ((List.range (s.part.vw / 32)).map fun i => (s.vdotLane f i).1))
      (orFlags ((List.range (s.part.vw / 32)).map fun i => (s.vdotLane f i).2)) := by
  simp only [vdotBody, List.map_map]
  rfl

/-- Settles O10: each effect is the completion of its row, VLACC and VDOT lane by lane, BADDQ block by block. -/
theorem vectorConversionAndChunkSumResults : Obligations.VectorConversionAndChunkSumResults := by
  refine ⟨fun f => ⟨?vcvt, ?vlmul, ?vdqnt, ?vsplit, ?vqnt⟩, fun f => ⟨?vlacc, ?vdot, ?baddq⟩⟩
  case vcvt | vlmul | vdqnt | vsplit | vqnt => exact completes_of_done (fun _ => rfl) fun _ _ => rfl
  case vlacc => exact completes_of_done (fun _ => rfl) (vlaccBody_eq f)
  case vdot => exact completes_of_done (fun _ => rfl) (vdotBody_eq f)
  case baddq =>
    intro s s1 e h
    have hty := baddq_ty h
    obtain ⟨heb, hfit⟩ := baddqShape_fits s1.part.vw hty
    have hshape := (Prod.mk.eta (p := baddqShape (s1.tyOf f) s1.part.vw)).symm
    have h16 : s1.tyOf f ≠ 0x16 := by omega
    have hw : tyWidth (s1.tyOf f) ≠ 0 := by obtain ht | ht | ht | ht := hty <;> rw [ht] <;> decide
    refine ⟨s1.baddqVector f, ?_, fun j hj hon => ⟨?_, ?_⟩, fun j hj hoff => ⟨?_, fun i hi => ?_⟩, fun b hb => ?_⟩
    · rw [baddq_completes h]
      simp only [baddqPart_flags hshape]
      rfl
    · exact vbyte_baddqVector_scale_active hshape hfit hj hon
    · exact baddqVector_elems_active hshape hfit h16 hw heb hj hon
    · exact vbyte_baddqVector_scale_inactive hshape hfit hj hoff
    · exact vbyte_baddqVector_inactive hshape hfit hi hj hoff
    · exact vbyte_baddqVector_past hshape hfit hb

end Sys2Proof.Machine
end

section
/-! SUPPORT. Decoding answers the row that a word names, its fields read from the word, and encoding them again gives every bit back (R61, R69,
R70, R79, R80). -/

namespace Sys2Proof

/-! ## Words read back into their fields (R69, R70) -/

/-- Each field of a body is what its format reads from the word. -/
def Body.ReadFrom (w : Slot96) : Body → Prop
  | .fr f => f = FmtR.ofBits w
  | .fi f => f = FmtI.ofBits w
  | .fb f => f = FmtB.ofBits w
  | .fp f => f = FmtP.ofBits w
  | .ff f => f = FmtF.ofBits w

/-- A header packed from the word's OP, SUB and fields is the word's header. -/
theorem packHeader_read (w : Slot96) :
    packHeader (w.extractLsb' 88 8).toNat (w.extractLsb' 80 8).toNat (w.extractLsb' 74 6) (w.extractLsb' 70 4) (w.extractLsb' 64 6) =
      w.extractLsb' 64 32 := by
  simp (disch := omega) only [packHeader, BitVec.ofNat_toNat, BitVec.setWidth_eq, BitVec.extractLsb'_append_extractLsb'_eq_extractLsb']

/-- A word's OP, SUB and body packed again are the word, no bit dropped. -/
theorem Body.pack_readFrom {w : Slot96} {b : Body} (h : b.ReadFrom w) : b.pack (w.extractLsb' 88 8).toNat (w.extractLsb' 80 8).toNat = w := by
  cases b <;> obtain rfl := h
  all_goals
    simp (disch := omega) only [Body.pack, FmtR.ofBits, FmtI.ofBits, FmtB.ofBits, FmtP.ofBits, FmtF.ofBits, packHeader_read,
      BitVec.extractLsb'_append_extractLsb'_eq_extractLsb']
    exact BitVec.extractLsb'_eq_self

/-- An instruction that reads a word as its row: OP and SUB name the row, each field is read from the word, and the word's setting of MOD
or of the immediate selects the row. -/
structure Instr.Reads (i : Instr) (op sub : Nat) (w : Slot96) : Prop where
  view : ∃ b sp, i.view = some ⟨op, sub, b, sp⟩ ∧ b.ReadFrom w
  sel : i.wf = true

theorem Instr.Reads.encode {i : Instr} {w : Slot96} (h : i.Reads (w.extractLsb' 88 8).toNat (w.extractLsb' 80 8).toNat w) : i.encode = some w := by
  obtain ⟨b, sp, hv, hb⟩ := h.view
  rw [Instr.encode, hv, Option.map_some, Body.pack_readFrom hb]

/-- A row that a setting of MOD or of the immediate selects is the row of a body with that setting. -/
theorem Instr.wf_of_setting {i : Instr} {v : View} {u : Bool} {m : Nat} {vs : List Nat} (hv : i.view = some v)
    (hs : v.spec.sel = some (u, m, vs)) (h : (if u then v.body.imm else v.body.mod.toNat) &&& m ∈ vs) : i.wf = true := by
  simpa only [Instr.wf, Instr.selOk, hv, hs, List.contains_iff_mem] using h

/-- One bit of a setting that is not set reads 0. -/
theorem and_two_pow_eq_zero {x : Nat} (k : Nat) (h : ¬x &&& 2 ^ k = 2 ^ k) : x &&& 2 ^ k = 0 := by
  rw [Nat.and_two_pow] at h ⊢
  cases hb : x.testBit k
  · simp
  · simp [hb] at h

theorem and_two_eq_zero {x : Nat} : ¬x &&& 2 = 2 → x &&& 2 = 0 := and_two_pow_eq_zero 1

theorem and_sixteen_eq_zero {x : Nat} : ¬x &&& 16 = 16 → x &&& 16 = 0 := and_two_pow_eq_zero 4

/-- A setting of two bits that is neither 1 nor 2 is 0 or 3. -/
theorem and_three_eq {x : Nat} (h1 : ¬x &&& 3 = 1) (h2 : ¬x &&& 3 = 2) : x &&& 3 = 0 ∨ x &&& 3 = 3 := by
  rw [Nat.and_two_pow_sub_one_eq_mod x 2] at *
  omega

/-- The decoder answers the row that the word's OP, SUB and setting name, its fields read from the word. -/
theorem decodeOpSub_reads {op sub : Nat} {w : Slot96} {i : Instr} (h : decodeOpSub op sub w = some i) : i.Reads op sub w := by
  unfold decodeOpSub at h
  split at h
  all_goals simp only [decodeOp00, decodeOp01, decodeOp02, decodeOp03, decodeOp04, decodeOp05, decodeOp06, decodeOp07, decodeOp08,
      decodeOp09, decodeOp0A, decodeOp0B, decodeOp10, decodeOp11, decodeOp12, decodeOp30, decodeOp31, decodeOp32,
      decodeOp33, decodeOp34, decodeOp35, decodeOp36, decodeOp50, decodeOp51, decodeOp52, decodeOp53, decodeOp54,
      decodeOp60, decodeOp61, decodeOp62, decodeOp63, decodeOp64, decodeOp65, decodeOp66, decodeOp67, decodeOp68,
      decodeOp69, decodeOp70, decodeOp71, decodeOp72, decodeOp78, decodeOp79, decodeOp80, decodeOp88, decodeOp89,
      decodeOp8A, decodeOp8B, decodeOp90, decodeOp98, decodeOpA0, reduceCtorEq] at h
  all_goals repeat' split at h
  all_goals cases h
  all_goals subst_vars
  all_goals refine ⟨⟨_, _, rfl, rfl⟩, ?_⟩
  -- most rows have an OP and SUB of their own
  all_goals try rfl
  -- the others are chosen by a setting
  all_goals refine Instr.wf_of_setting rfl rfl ?_
  all_goals simp_all [Body.mod, Body.imm, FmtR.ofBits, FmtP.ofBits, and_two_eq_zero, and_sixteen_eq_zero, and_three_eq]

/-- Every instruction that has an encoding is read back from it. -/
theorem Laws.RoundTrip.all (i : Instr) : Laws.RoundTrip.Statement i :=
  open Laws.RoundTrip in
  Instr.casesOn i nop br call brc dbnz brx jmp flw flx ipf tend watch waita vwid tstart tstop treap tstat trd twr tret movs sets setsi trap brkp
    sysc fltrd fltrdPeek capa add sub mul mulh madd div rem and or xor shl shr sar rol min max sel cmp lea addi andi ori xori shli
    shri sari cmpi li lih addpc clz ctz popc bswap bfx bfi abs ext vadd vsub vmul vfma vmin vmax vabs vand vor vxor vshl vshr vsar
    vsel vclamp vdiv vsqrt vcmp vcvt vsplit vqnt vdqnt vlmul vlacc vdot baddq vsplat vins vext viota vperm vmov vred vscan plt pset
    pand por pxor pnot pcnt pfirst mma mzero mrd mwr mstat mstatW wbld wbinv mload mdrain ld st ldv stv gth sct amo cas amov sbindIn
    sbindOut sbindQ sunbind sstat cpy mcast rfill cpyc eseq eseqGo eseqDrop ewait fencex cwb fdmode fdwait fdstat fdstatGo fdstatDrop
    fdin fdout fdadd fdsub fdmul fdcmp fdsel fdbit fdmin fdmax fdlmul fdrq fdpop kprb kins kups kupsPost kdel kprbv kupsv kupsvPost
    knew kbind kstat khash kiter kclr xmig xret xupd xnrm xovl xrlk xrul send sendR sendFar recv recvNw lback istat spawn join tnext
    steal qpub qpubGw qclm qclmGw qstat qstatGw nred lnch prmt prmtL resm resmL capnew capwait capwaitNw capnext capins capdel capset
    capget cappark capdone plset plget plinv trset trsetClr htset xlat tlbinvA tlbinvL tlbinvG modld modldDbg modul bara baraJoin
    baraLeave barw barq ctrsel ctrrd timset tstmp clkrd bundleIssue replyArrival fetchLineArrival followJoin flwTimeout
    remoteFillArrival streamElementArrival streamWriteCompletion copyCommandStart copyCommandCompletion chainWalkStep copyEngineFault
    matrixOpBegin matrixOpCompletion fieldCommandStart fieldCommandCompletion fieldFault mapRequestService postedUpsertApply
    splitRequest split splitPublication mapCopyUpdate queueRequestService messageArrival gatewayRelay reductionCombine
    reductionTotalDelivery contextTake contextFaultBack xretArrival nearPacketApply channelFill channelEvictionNotice lineEviction
    overlayLineArrival capsuleDelivery timerExpiry shepherdFaultEscalation syscReply pageRefill tlbWalkCompletion launchRecordTake
    launchPriorityRaise launchPlacement launchRetirement launchAbort moduleFree hostWrite hostRead winbaseWrite registerBarWrite
    deviceReset linkBringup linkLaneFailure linkRequestRetry uncorrectableDataError hbmRowSpare spareMapping liveFirmwareUpdate
    moduleRemoval overTemperature hbmLaneSpare sramRowSpare

/-- Settles O58: reading back instruction by instruction; completeness because the fields that a row reads are the whole word. -/
theorem encodingsAreReadBackAndComplete : Obligations.EncodingsAreReadBackAndComplete := by
  have hback : ∀ (i : Instr) w, i.wf = true → i.encode = some w → decodeSlot w = some i := fun i w hi hw => Laws.RoundTrip.all i hi w hw
  have hread : ∀ (w : Slot96) i, decodeSlot w = some i → i.wf = true ∧ i.encode = some w := fun w i h =>
    have hr := decodeOpSub_reads h
    ⟨hr.sel, hr.encode⟩
  refine ⟨hback, hread, fun w => ⟨fun hn i hi he => ?_, fun hno => ?_⟩⟩
  · exact absurd (hback i w hi he) (by simp [hn])
  · refine Option.eq_none_iff_forall_ne_some.mpr fun i h => ?_
    obtain ⟨hi, he⟩ := hread w i h
    exact hno i hi he

end Sys2Proof
end

section
/-! SUPPORT. The spec's worked words and its unassigned ones (R61, R69, R79, R80). -/

namespace Sys2Proof

/-- Settles O57: each word by evaluation of the decoder, an unassigned OP or SUB by the branch that its bits select. -/
theorem wordsOfTheSpecDecode : Obligations.WordsOfTheSpecDecode := by
  refine ⟨by decide +kernel, fun w h => ?_⟩
  unfold decodeSlot
  obtain h | h | ⟨h, hsub⟩ := h
  · rw [h]; rfl
  · rw [h]; rfl
  · rw [h, hsub]; rfl

end Sys2Proof
end

section
/-! SUPPORT. A PC by its fields, and its linear slot number (R65). -/

namespace Sys2Proof.Machine

theorem toNat_extractLsb'_eq (x : Word) (start len : Nat) : (x.extractLsb' start len).toNat = x.toNat / 2 ^ start % 2 ^ len := by
  rw [BitVec.extractLsb'_toNat, Nat.shiftRight_eq_div_pow]

/-- Bits [63:57] are all bit 56 exactly in the two halves of the canonical range (R65, R199). -/
theorem canonical_iff (pc : Word) : canonical pc.toNat = true ↔ pc.extractLsb' 57 7 = if pc.getLsbD 56 then 0x7F else 0 := by
  have hlt := pc.isLt
  rw [← BitVec.toNat_inj, apply_ite BitVec.toNat, toNat_extractLsb'_eq, BitVec.getLsbD, Nat.testBit_eq_decide_div_mod_eq]
  simp only [canonical, Bool.or_eq_true, Bool.and_eq_true, decide_eq_true_eq]
  split <;> (simp only [BitVec.reduceToNat]; omega)

/-- A slot address by the fields of a PC (R65). -/
theorem isSlotAddr_iff (pc : Word) :
    isSlotAddr pc = true ↔ canonical pc.toNat = true ∧ pc.extractLsb' 3 3 = 0 ∧ (pc.extractLsb' 0 3).toNat ≤ 4 := by
  rw [← BitVec.toNat_inj, toNat_extractLsb'_eq, toNat_extractLsb'_eq]
  simp only [isSlotAddr, Bool.and_eq_true, beq_iff_eq, decide_eq_true_eq, BitVec.reduceToNat, and_assoc]
  refine and_congr_right fun _ => and_congr ?_ ?_ <;> omega

theorem linear_eq (pc : Word) : linear pc = (pc >>> 6).toNat * 5 + (pc.extractLsb' 0 3).toNat := by
  rw [linear, toNat_extractLsb'_eq, BitVec.toNat_ushiftRight, Nat.shiftRight_eq_div_pow, Nat.pow_zero, Nat.div_one]
  rfl

theorem toNat_pcOf {n : Nat} (h : n < 5 * 2 ^ 58) : (pcOf n).toNat = n / 5 * 64 + n % 5 := by
  rw [pcOf, BitVec.toNat_ofNat]
  omega

/-- A slot address is the PC of its own linear number. -/
theorem pcOf_linear {pc : Word} (h : isSlotAddr pc = true) : pcOf (linear pc) = pc := by
  have hlt := pc.isLt
  simp only [isSlotAddr, Bool.and_eq_true, beq_iff_eq, decide_eq_true_eq] at h
  refine BitVec.eq_of_toNat_eq ?_
  rw [toNat_pcOf] <;> unfold linear <;> omega

/-- Settles O44, field by field of a PC. -/
theorem programCountersNameSlots : Obligations.ProgramCountersNameSlots := by
  intro pc
  refine ⟨?_, linear_eq pc, fun n hn => ?_, pcOf_linear⟩
  · rw [isSlotAddr_iff, canonical_iff, and_comm, and_assoc]
  · rw [toNat_extractLsb'_eq, toNat_extractLsb'_eq, toNat_pcOf hn]
    constructor <;> omega

end Sys2Proof.Machine
end

section
/-! SUPPORT. Who may issue an instruction: step 8 of R82 (R81). -/

namespace Sys2Proof.Machine

/-- A slot's instruction that passes steps 5 to 7 faults PRIV where its restriction is broken. -/
theorem precheck_priv {s : State} {i : Instr} {v : View} {c k : Nat} (hv : i.view = some v) (hcur : s.cur = .slot c k)
    (hu : v.spec.unit = .none ∨ s.part.full = true) (h7 : i.check7 s.thread.ety s.part.vw false = none) (hrow : s.scaleRowBad i = none)
    (hp : s.privBad v.spec.priv = true) : s.precheck i = some (stepFault .priv 8 0) := by
  have hsys : s.isSys = false := by simp [State.isSys, hcur]
  have hctx : s.isCtx = false := by simp [State.isCtx, hcur]
  obtain hu | hu := hu <;> simp [State.precheck, hv, hsys, hctx, hu, h7, hrow, hp]

/-- No check but that of step 8 faults PRIV. -/
theorem precheck_ne_priv {s : State} {i : Instr} {v : View} (hv : i.view = some v) (hp : s.privBad v.spec.priv = false) :
    ∀ g, s.precheck i = some g → g.code ≠ .priv := by
  intro g hg
  simp only [State.precheck, hv, hp, Bool.false_eq_true, if_false] at hg
  repeat' split at hg
  case isFalse =>
    obtain ⟨n, -, rfl⟩ := Option.map_eq_some_iff.mp hg
    nofun
  all_goals
    cases hg
    nofun

/-- An instruction whose row carries a restriction (R81), and which is no FDIN or FDOUT. -/
structure Restricted (p : Priv) (i : Instr) : Prop where
  view : ∃ v, i.view = some v ∧ v.spec.priv = p
  row : ∀ s : State, s.scaleRowBad i = none

theorem Restricted.faults {p : Priv} {i : Instr} (h : Restricted p i) {s : State} {c k : Nat} (hcur : s.cur = .slot c k)
    (hu : ∀ v, i.view = some v → v.spec.unit = .none ∨ s.part.full = true) (h7 : i.check7 s.thread.ety s.part.vw false = none)
    (hp : s.privBad p = true) : exec i s = .next (s.raise (stepFault .priv 8 0)) := by
  obtain ⟨v, hv, rfl⟩ := h.view
  exact (checksComeBeforeAnyEffect i v s hv).1 _ (precheck_priv hv hcur (hu v hv) h7 (h.row s) hp)

theorem Restricted.passes {p : Priv} {i : Instr} (h : Restricted p i) {s : State} (hp : s.privBad p = false) :
    ∀ g, s.precheck i = some g → g.code ≠ .priv := by
  obtain ⟨v, hv, rfl⟩ := h.view
  exact precheck_ne_priv hv hp

theorem privBad_shepherd {s : State} {c k : Nat} (h : s.cur = .slot c k) : s.privBad .shepherd = (k != 0) := by
  simp [State.privBad, h]

theorem privBad_system_slot {s : State} {c k : Nat} (h : s.cur = .slot c k) : s.privBad .system = true := by
  simp [State.privBad, State.isSys, h]

theorem privBad_system_sys {s : State} {n : Nat} (h : s.cur = .sys n) : s.privBad .system = false := by
  simp [State.privBad, State.isSys, h]

theorem shepherd_restricted (f : FmtR) : ∀ i ∈ [Instr.tstart f, .tstop f, .treap f, .trd f, .twr f, .tret f, .fdmode f, .plset f, .plinv f,
    .knew f, .kclr f, .htset f, .trset f, .trsetClr f], Restricted .shepherd i := by
  simp only [List.forall_mem_cons, List.not_mem_nil, false_imp_iff, implies_true, and_true]
  and_intros <;> exact ⟨⟨_, rfl, rfl⟩, fun _ => rfl⟩

theorem system_restricted (f : FmtR) : ∀ i ∈ [Instr.modld f, .modldDbg f, .modul f, .prmt f, .prmtL f, .resm f, .resmL f, .tlbinvG f],
    Restricted .system i ∧ ∀ v, i.view = some v → v.spec.unit = .none := by
  simp only [List.forall_mem_cons, List.not_mem_nil, false_imp_iff, implies_true, and_true]
  refine ⟨?_, ?_, ?_, ?_, ?_, ?_, ?_, ?_⟩ <;> exact ⟨⟨⟨_, rfl, rfl⟩, fun _ => rfl⟩, by rintro _ ⟨⟩; rfl⟩

/-- Settles O46: the rows' restrictions, and step 8 as the one check that faults PRIV. -/
theorem restrictedInstructionsFaultPriv : Obligations.RestrictedInstructionsFaultPriv := by
  refine fun f s => ⟨fun i hi c k hcur hu h7 => ⟨fun hk => ?_, fun hk => ?_⟩, fun c k hcur => precheck_ne_priv rfl rfl, fun i hi => ?_⟩
  · exact (shepherd_restricted f i hi).faults hcur hu h7 (by simpa [privBad_shepherd hcur] using hk)
  · exact (shepherd_restricted f i hi).passes (by simpa [privBad_shepherd hcur] using hk)
  · obtain ⟨hr, hu⟩ := system_restricted f i hi
    exact ⟨fun c k hcur h7 => hr.faults hcur (fun v hv => .inl (hu v hv)) h7 (privBad_system_slot hcur),
      fun n hcur => hr.passes (privBad_system_sys hcur)⟩

end Sys2Proof.Machine
end

section
/-! SUPPORT. Why the statement on branches fails for one that is taken (O6). -/

namespace Sys2Proof.Machine

/-- The shepherd of core 0 about to issue, every slot of the line at its PC a branch target. -/
def branching : State :=
  let s := State.reset.placeWord 0
  { s with mem := s.mem.writeNat placeAt 64 (sealLine (BitVec.ofNat 512 (31 * 2 ^ 480))).toNat }

/-- BR by four slots, within the line. -/
def brFour : FmtB := { disp := 4 }

/-- The target of that branch. -/
def brFourTarget : Word := 0x40004

/-- The target stands as the statement asks, and the completion that the statement claims leaves the slot with its latest branch not taken
(R126). -/
def claimsNotTaken (s1 : State) (e : Eff) : Bool :=
  pcOfInt (linear s1.thread.pc + brFour.disp.toInt) == some brFourTarget && (s1.targetLine brFourTarget).isNone
    && (s1.targetFault brFourTarget).isNone
    && !((s1.targetFetch brFourTarget).commit { e with writes := e.writes ++ [], pc := some brFourTarget }).thread.taken

/-- Whether the branch is ready and the claim after its reads is as `claimsNotTaken` says. -/
def readyAndNotTaken : Bool :=
  (branching.precheck (.br brFour)).isNone
    && match branching.prepare (usesOf (.br brFour) branching.thread.ety branching.part.vw branching.isSys) with
      | .ok r => claimsNotTaken r.1 r.2
      | _ => false

theorem branching_claim : ∃ s1 e, Ready (.br brFour) branching s1 e ∧ claimsNotTaken s1 e = true := by
  have h : readyAndNotTaken = true := by decide +kernel
  obtain ⟨hc, hp⟩ := (Bool.and_eq_true ..).mp h
  split at hp
  · next r hr => exact ⟨r.1, r.2, ⟨Option.isNone_iff_eq_none.mp hc, hr⟩, hp⟩
  · cases hp

/-- The state that the branch leaves. -/
def branchNext : State := branching.run (.br brFour) none (brBody brFour 1)

theorem branching_exec : exec (.br brFour) branching = .next branchNext := rfl

theorem branchNext_taken : branchNext.thread.taken = true := by decide +kernel

/-- Refutes O6: BR notes in its slot that its latest branch is taken (R126), and the completion that the statement gives for a taken branch
leaves the note as for one not taken. -/
theorem not_branchesReachTheirTargets : ¬ Obligations.BranchesReachTheirTargets := by
  intro h
  obtain ⟨s1, e, hready, hclaim⟩ := branching_claim
  simp only [claimsNotTaken, Bool.and_eq_true, Bool.not_eq_true', beq_iff_eq, Option.isNone_iff_eq_none] at hclaim
  obtain ⟨⟨⟨hpc, hline⟩, hfault⟩, hnot⟩ := hclaim
  have hexec := branching_exec.symm.trans ((h.1 brFour branching s1 e brFourTarget).1 hready hpc ⟨hline, hfault⟩)
  injection hexec with hnext
  rw [← hnext, branchNext_taken] at hnot
  exact absurd hnot (by decide)

end Sys2Proof.Machine
end

section
/-! SUPPORT. Take and wait-empty at issue and at completion, and what a fault leaves of the registers (R75, R119, R368). -/

namespace Sys2Proof.Machine

/-! ## Reads and W destinations at issue, no port being bound -/

theorem Slot.port_none {t : Slot} (h : t.ports = []) (r : Nat) : t.port r = none := by rw [Slot.port, h, aget]

theorem Slot.full_of_noPorts {t : Slot} (h : t.ports = []) (r : Nat) : t.full r = t.fe.getLsbD r := by rw [Slot.full, Slot.port_none h]

theorem firstFault_eq_none {f : Nat → Option FaultInfo} (h : ∀ r, f r = none) (l : List Nat) : firstFault f l = none := by
  induction l with
  | nil => rfl
  | cons r l ih => rw [firstFault, h r, ih]

/-- The registers read with T. -/
def Uses.taken (u : Uses) : List Nat := ((u.reads.filter (·.2)).map (·.1)).eraseDups

theorem Uses.mem_taken {u : Uses} {r : Nat} : r ∈ u.taken ↔ (r, true) ∈ u.reads := by
  simp [Uses.taken, List.mem_eraseDups]

/-- The full W destinations that are no take source: what an issue parks on. -/
def Uses.blocked (u : Uses) (t : Slot) : List Nat :=
  (u.writes.filter fun w => w.2 && t.fe.getLsbD w.1 && !u.taken.contains w.1).map (·.1)

theorem Uses.mem_blocked {u : Uses} {t : Slot} {r : Nat} :
    r ∈ u.blocked t ↔ (r, true) ∈ u.writes ∧ t.fe.getLsbD r = true ∧ (r, true) ∉ u.reads := by
  simp [Uses.blocked, Uses.mem_taken, and_assoc]

section
variable {s : State} {u : Uses} (hp : s.thread.ports = [])
include hp

/-- With no port bound, what an issue will empty is what it reads with T. -/
theorem prepare_takes_noPorts {p : List Nat} {s1 : State} {e : Eff} (h : s.prepare u p = .ok (s1, e)) : e.takes = u.taken := by
  unfold State.prepare at h
  dsimp only at h
  repeat' (split at h)
  all_goals cases h
  simp [Uses.taken, Slot.port_none hp]

/-- With no port bound and every source full, an issue parks on the full W destinations or goes on. -/
theorem prepare_noPorts (hf : ∀ r ∈ u.reads, s.thread.fe.getLsbD r.1 = true) :
    ∃ x, s.prepare u = if !(u.blocked s.thread).isEmpty then .wait (.full (u.blocked s.thread)) else .ok x := by
  have hempty : (((u.reads.map (·.1)).eraseDups).filter fun r => !((s.thread.latched r).isSome || s.thread.full r)) = [] := by
    refine List.filter_eq_nil_iff.mpr fun r hr => ?_
    obtain ⟨q, hq, rfl⟩ := List.mem_map.mp (List.mem_eraseDups.mp hr)
    simp [Slot.full_of_noPorts hp, hf q hq]
  have hout : ∀ r, s.outFull s.myCore s.thread r = false := fun r => by simp [State.outFull, Slot.port_none hp]
  unfold State.prepare
  dsimp only
  rw [firstFault_eq_none (by simp [Slot.port_none hp]), firstFault_eq_none (by simp [Slot.readFault, Slot.port_none hp]),
    firstFault_eq_none (by simp [Slot.writeFault, Slot.port_none hp])]
  dsimp only
  rw [hempty]
  simp only [Slot.port_none hp, Slot.full_of_noPorts hp, hout, Option.isNone_none, Bool.and_true, List.contains_nil, Bool.not_false,
    List.filter_false, List.append_nil, List.isEmpty_nil, Bool.not_true, Bool.false_eq_true, if_false]
  exact ⟨_, rfl⟩

theorem prepare_waits_iff (hf : ∀ r ∈ u.reads, s.thread.fe.getLsbD r.1 = true) :
    (∃ rs, s.prepare u = .wait (.full rs)) ↔ ∃ r, (r, true) ∈ u.writes ∧ s.thread.fe.getLsbD r = true ∧ (r, true) ∉ u.reads := by
  obtain ⟨x, hx⟩ := prepare_noPorts hp hf
  simp only [← Uses.mem_blocked, hx]
  cases u.blocked s.thread with
  | nil => simp
  | cons r rs => simp

end

/-! ## Registers emptied and filled -/

theorem getLsbD_setBit96_self (x : BitVec 96) {n : Nat} (b : Bool) (h : n < 96) : (setBit96 x n b).getLsbD n = b := by
  cases b <;> simp [setBit96, h]

theorem Slot.gr_setReg_self (t : Slot) {n : Nat} (x : VReg) (h : n < 64) : (t.setReg n x).gr n = x.setWidth 64 := by
  simp [Slot.setReg, Slot.gr, h]

theorem Slot.vr_setReg_self (t : Slot) {n : Nat} (x : VReg) (h : n < 32) : (t.setReg (64 + n) x).vr n = x := by
  simp [Slot.setReg, Slot.vr, h]

theorem Slot.reg_setReg_self (t : Slot) {r : Nat} (x : VReg) (h : r < 96) :
    (t.setReg r x).reg r = if r < 64 then (x.setWidth 64).setWidth 2048 else x := by
  unfold Slot.reg
  split
  · next hr => rw [Slot.gr_setReg_self t x hr]
  · next hr =>
    obtain ⟨n, rfl⟩ := Nat.exists_eq_add_of_le (Nat.le_of_not_lt hr)
    rw [Nat.add_sub_cancel_left, Slot.vr_setReg_self t x (by omega)]

/-- Register `r`, with its full/empty bit and its held fill, stands as it stood. -/
structure Slot.SameAt (r : Nat) (x y : Slot) : Prop where
  reg : y.reg r = x.reg r
  fe : y.fe.getLsbD r = x.fe.getLsbD r
  held : aget y.holders r = aget x.holders r

theorem Slot.SameAt.refl (r : Nat) (x : Slot) : SameAt r x x := ⟨rfl, rfl, rfl⟩

theorem Slot.SameAt.trans {r : Nat} {x y z : Slot} (h1 : SameAt r x y) (h2 : SameAt r y z) : SameAt r x z :=
  ⟨h2.reg.trans h1.reg, h2.fe.trans h1.fe, h2.held.trans h1.held⟩

theorem Slot.sameAt_forgetTs (r : Nat) (t : Slot) (ts : Nat) (rs : List Nat) : SameAt r t (t.forgetTs ts rs) := by
  induction rs generalizing t with
  | nil => exact .refl r t
  | cons q rs ih =>
    refine .trans ?_ (ih _)
    split <;> exact ⟨rfl, rfl, rfl⟩

theorem Slot.sameAt_empty_ne (t : Slot) {r q : Nat} (h : r ≠ q) : SameAt r t (t.empty q) := by
  unfold Slot.empty
  split
  · exact ⟨Slot.reg_setReg_ne t _ h, by simp [getLsbD_setBit96_ne _ _ h], by simp [aget_adel_ne _ h]⟩
  · exact ⟨rfl, getLsbD_setBit96_ne _ _ h, rfl⟩

/-- Emptying leaves a register that is not among those emptied, or is written. -/
theorem Slot.sameAt_emptyAll (t : Slot) {r : Nat} {written rs : List Nat} (h : r ∈ written ∨ r ∉ rs) :
    SameAt r t (t.emptyAll written rs) := by
  induction rs generalizing t with
  | nil => exact .refl r t
  | cons q rs ih =>
    refine .trans ?_ (ih _ (h.imp_right fun hn hr => hn (List.mem_cons_of_mem q hr)))
    split
    · exact .refl r t
    · next hq =>
      refine Slot.sameAt_empty_ne t ?_
      rintro rfl
      exact h.elim (by simpa using hq) (· List.mem_cons_self)

/-- Register `r` of `t` has been emptied in `y`: it is empty, or its held fill has entered (R119). -/
structure Slot.Emptied (r : Nat) (t y : Slot) : Prop where
  empty : aget t.holders r = none → y.fe.getLsbD r = false
  held : ∀ h, aget t.holders r = some h → y.fe.getLsbD r = true ∧ y.reg r = if r < 64 then (h.val.setWidth 64).setWidth 2048 else h.val

theorem Slot.Emptied.congr {r : Nat} {t t' y y' : Slot} (h : Emptied r t' y') (ht : SameAt r t t') (hreg : y.reg r = y'.reg r)
    (hfe : y.fe.getLsbD r = y'.fe.getLsbD r) : Emptied r t y where
  empty hn := hfe.trans (h.empty (ht.held.trans hn))
  held x hx :=
    have ⟨hf, hv⟩ := h.held x (ht.held.trans hx)
    ⟨hfe.trans hf, hreg.trans hv⟩

theorem Slot.emptied_empty (t : Slot) {r : Nat} (hr : r < 96) : Emptied r t (t.empty r) where
  empty hn := by simp [Slot.empty, hn, getLsbD_setBit96_self _ _ hr]
  held x hx := by
    simp only [Slot.empty, hx]
    exact ⟨getLsbD_setBit96_self _ _ hr, Slot.reg_setReg_self t x.val hr⟩

/-- Among registers emptied one by one, each that is not written is emptied once. -/
theorem Slot.emptied_emptyAll (t : Slot) {r : Nat} (hr : r < 96) {written rs : List Nat} (hw : r ∉ written) (hmem : r ∈ rs) (hd : rs.Nodup) :
    Emptied r t (t.emptyAll written rs) := by
  induction rs generalizing t with
  | nil => cases hmem
  | cons q rs ih =>
    obtain ⟨hq, hrs⟩ := List.nodup_cons.mp hd
    rw [Slot.emptyAll]
    by_cases h : r = q
    · subst h
      rw [if_neg (by simpa using hw)]
      have hsame := Slot.sameAt_emptyAll (t.empty r) (written := written) (.inr hq)
      exact (Slot.emptied_empty t hr).congr (.refl r t) hsame.reg hsame.fe
    · refine (ih _ ((List.mem_cons.mp hmem).resolve_left h) hrs).congr ?_ rfl rfl
      split
      · exact .refl r t
      · exact Slot.sameAt_empty_ne t h

/-! ## The completion of a slot's instruction, no port being bound -/

theorem nodup_eraseDups (l : List Nat) : l.eraseDups.Nodup := by
  match l with
  | [] => simp
  | a :: l =>
    rw [List.eraseDups_cons, List.nodup_cons]
    exact ⟨by simp [List.mem_eraseDups], nodup_eraseDups _⟩
termination_by l.length
decreasing_by exact Nat.lt_succ_of_le (List.length_filter_le ..)

theorem Slot.forgetTs_ports (t : Slot) (ts : Nat) (rs : List Nat) : (t.forgetTs ts rs).ports = t.ports := by
  induction rs generalizing t with
  | nil => rfl
  | cons r rs ih =>
    rw [Slot.forgetTs, ih]
    split <;> rfl

theorem Slot.emptyAll_ports (t : Slot) (written rs : List Nat) : (t.emptyAll written rs).ports = t.ports := by
  induction rs generalizing t with
  | nil => rfl
  | cons r rs ih =>
    rw [Slot.emptyAll, ih]
    split
    · rfl
    · exact Slot.empty_ports t r

theorem Slot.gr_fill_self (t : Slot) {n : Nat} (x : VReg) (h : n < 64) : (t.fill n x).gr n = x.setWidth 64 := Slot.gr_setReg_self t x h

theorem Slot.vr_fill_self (t : Slot) {n : Nat} (x : VReg) (h : n < 32) : (t.fill (64 + n) x).vr n = x := Slot.vr_setReg_self t x h

theorem Slot.fe_fill_self (t : Slot) {r : Nat} (x : VReg) (h : r < 96) : (t.fill r x).fe.getLsbD r = true := getLsbD_setBit96_self _ _ h

/-- Every slot keeps its registers, full/empty bits, held fills, EFMT, PC, PTS and FLAGS but for FOLLOW. -/
structure State.KeepsSlots (s t : State) : Prop where
  slot : ∀ d j, KeepsSlot (s.slot d j) (t.slot d j)

theorem State.KeepsSlots.refl (s : State) : KeepsSlots s s := ⟨fun _ _ => .refl _⟩

theorem State.KeepsSlots.trans {s t u : State} (h1 : KeepsSlots s t) (h2 : KeepsSlots t u) : KeepsSlots s u :=
  ⟨fun d j => (h1.slot d j).trans (h2.slot d j)⟩

theorem State.keepsSlots_of_cores {s t : State} (h : t.cores = s.cores) : KeepsSlots s t := by
  refine ⟨fun d j => ?_⟩
  rw [State.slot, State.slot, State.core, State.core, h]
  exact .refl _

theorem State.keepsSlots_setSlot {s : State} {c k : Nat} {t : Slot} (h : KeepsSlot (s.slot c k) t) : KeepsSlots s (s.setSlot c k t) := by
  refine ⟨fun d j => ?_⟩
  obtain hs | ⟨⟨rfl, rfl⟩, hs⟩ := State.slot_setSlot_cases s d j c k t
  · rw [hs]; exact .refl _
  · rwa [hs]

/-- Following changed leaves the eleven flags below it (R117). -/
theorem setFollow_low11 (t : Slot) (b : Bool) : (t.setFollow b).flags.extractLsb' 0 11 = t.flags.extractLsb' 0 11 :=
  (Slot.sameBut_setFollow (fun _ => False) (fun _ => False) t b).flags

theorem foldl_keepsSlots {α : Type} {f : State → α → State} (h : ∀ s x, State.KeepsSlots s (f s x)) (l : List α) (s : State) :
    State.KeepsSlots s (l.foldl f s) := by
  induction l generalizing s with
  | nil => exact .refl s
  | cons x l ih => exact (h s x).trans (ih _)

theorem State.dropFollowers_keepsSlots (s : State) (c k : Nat) : KeepsSlots s (s.dropFollowers c k) := by
  refine foldl_keepsSlots (fun s x => ?_) _ s
  dsimp only
  split
  · exact State.keepsSlots_setSlot ⟨rfl, rfl, rfl, rfl, rfl, rfl, rfl, rfl, setFollow_low11 _ false⟩
  · split
    · exact State.keepsSlots_setSlot (.refl _)
    · exact .refl s

/-- What a completion still does after its writes touches no register of a slot. -/
theorem State.commit_keepsWritten (s : State) (e : Eff) (c k : Nat) : KeepsSlot ((s.written e).slot c k) ((s.commit e).slot c k) := by
  obtain h | ⟨d, j, h⟩ := s.commit_cases e
  · rw [h]; exact .refl _
  · rw [h]; exact (State.dropFollowers_keepsSlots _ d j).slot c k

/-- The registers that a completion writes without having emptied them before (R75, R77). -/
def Eff.kept (e : Eff) : List Nat := (e.writes.filterMap Wr.reg?).filter fun r => !e.early.contains r

theorem Eff.mem_kept {e : Eff} {w : Wr} {r : Nat} (hw : w ∈ e.writes) (hr : w.reg? = some r) (hearly : e.early = []) : r ∈ e.kept := by
  simpa [Eff.kept, hearly] using ⟨w, hw, hr⟩

theorem Eff.not_mem_kept {e : Eff} {r : Nat} (h : ∀ w ∈ e.writes, w.reg? ≠ some r) : r ∉ e.kept := by
  simpa [Eff.kept] using fun w hw hr => (h w hw hr).elim

theorem State.consumed_noPops (s : State) {e : Eff} (hpops : e.pops = []) :
    s.consumed e = (s.thread.forgetTs e.pts e.seen).emptyAll e.kept e.takes.eraseDups := by
  rw [State.consumed, hpops, State.popAll, Eff.kept]

/-- A take source that the instruction does not write has been emptied when its completion writes. -/
theorem State.commitSlot_emptied (s : State) {e : Eff} {r : Nat} (hr : r < 96) (hmem : r ∈ e.takes) (hpops : e.pops = [])
    (hw : ∀ w ∈ e.writes, w.reg? ≠ some r) : Slot.Emptied r s.thread (s.commitSlot e) := by
  have h := Slot.emptied_emptyAll (s.thread.forgetTs e.pts e.seen) hr (Eff.not_mem_kept hw) (List.mem_eraseDups.mpr hmem) (nodup_eraseDups e.takes)
  rw [← s.consumed_noPops hpops] at h
  exact h.congr (Slot.sameAt_forgetTs ..) rfl rfl

/-- One that it writes still holds its fill. -/
theorem State.commitSlot_held (s : State) {e : Eff} {r : Nat} (hpops : e.pops = []) (h : r ∈ e.kept) :
    aget (s.commitSlot e).holders r = aget s.thread.holders r := by
  have hs := (Slot.sameAt_forgetTs r s.thread e.pts e.seen).trans (Slot.sameAt_emptyAll _ (rs := e.takes.eraseDups) (.inl h))
  rw [← s.consumed_noPops hpops] at hs
  exact hs.held

theorem State.commitSlot_noPorts (s : State) {e : Eff} (hpops : e.pops = []) (h : s.thread.ports = []) : (s.commitSlot e).ports = [] := by
  change (s.consumed e).ports = []
  rw [s.consumed_noPops hpops, Slot.emptyAll_ports, Slot.forgetTs_ports, h]

/-- The slot after a completion that writes one register and empties none late. -/
theorem State.commit_oneWrite (s : State) {e : Eff} {w : Wr} (hlate : e.late = []) (hw : e.writes = [w]) (c k : Nat) :
    KeepsSlot (((s.setThread (s.commitSlot e)).applyWr w).slot c k) ((s.commit e).slot c k) := by
  have h : s.written e = (s.setThread (s.commitSlot e)).applyWr w := by simp [State.written, hlate, hw, State.applyWrs]
  exact h ▸ s.commit_keepsWritten e c k

section
variable {s : State} {c k : Nat} {e : Eff} (hcur : s.cur = .slot c k) (hk : k < 16)
include hcur hk

theorem State.applyWr_g {n : Nat} {x : Word} (hport : (s.slot c k).port n = none) :
    (s.applyWr (.g n x)).slot c k = (s.slot c k).fill n (x.setWidth 2048) := by
  simp [State.applyWr, State.thread_slot hcur, State.isCtx, hcur, hport, State.setThread_slot _ hcur, State.slot_setSlot_self _ _ _ hk]

theorem State.applyWr_v {n : Nat} {x : VReg} (hport : (s.slot c k).port (64 + n) = none) :
    (s.applyWr (.v n x)).slot c k = (s.slot c k).fill (64 + n) (s.vmask x) := by
  simp [State.applyWr, State.thread_slot hcur, hport, State.setThread_slot _ hcur, State.slot_setSlot_self _ _ _ hk]

theorem State.slot_setThread (t : Slot) : (s.setThread t).slot c k = t := by
  rw [State.setThread_slot t hcur, State.slot_setSlot_self _ _ _ hk]

/-- With nothing emptied late, a register that a completion does not write stands as its reads left it. -/
theorem State.commit_unwritten {r : Nat} (hr : r < 96) (hlate : e.late = []) (hw : ∀ w ∈ e.writes, w.reg? ≠ some r) :
    ((s.commit e).slot c k).reg r = (s.commitSlot e).reg r ∧ ((s.commit e).slot c k).fe.getLsbD r = (s.commitSlot e).fe.getLsbD r := by
  let s1 := s.setThread (s.commitSlot e)
  have hcur1 : s1.cur = .slot c k := (State.setThread_cur ..).trans hcur
  have hslot1 : s1.slot c k = s.commitSlot e := State.slot_setThread hcur hk _
  have htouch : State.Touches (fun q => ∃ w ∈ e.writes, w.reg? = some q) (fun _ => True) s1 (s1.applyWrs e.writes) :=
    State.applyWrs_touches s1 (fun w hw q hq => ⟨w, hw, hq⟩) fun _ _ _ => trivial
  have hwr : s.written e = s1.applyWrs e.writes := by simp [State.written, hlate, s1]
  obtain ⟨hreg, hfe⟩ := htouch.thread.reg r hr fun ⟨w, hmem, hq⟩ => hw w hmem hq
  rw [← hwr, State.thread_slot (s := s.written e) (hwr ▸ htouch.cur.trans hcur1), State.thread_slot hcur1, hslot1] at hreg hfe
  obtain ⟨hg, hv, -, hf, -⟩ := s.commit_keepsWritten e c k
  refine ⟨?_, by rw [hf, hfe]⟩
  rw [← hreg]
  simp only [Slot.reg, Slot.gr, Slot.vr, hg, hv]

end

/-! ## Faults (R368, R373) -/

/-- Every slot of a core keeps what `KeepsSlot` says. -/
structure Core.KeepsSlots (c x : Core) : Prop where
  slot : ∀ j, KeepsSlot (c.slot j) (x.slot j)

theorem Core.KeepsSlots.trans {c x y : Core} (h1 : KeepsSlots c x) (h2 : KeepsSlots x y) : KeepsSlots c y :=
  ⟨fun j => (h1.slot j).trans (h2.slot j)⟩

theorem Core.keepsSlots_of_slots {c x : Core} (h : x.slots = c.slots) : KeepsSlots c x := by
  refine ⟨fun j => ?_⟩
  rw [Core.slot, Core.slot, h]
  exact .refl _

theorem Core.keepsSlots_setSlot {c : Core} {k : Nat} {t : Slot} (h : KeepsSlot (c.slot k) t) : KeepsSlots c (c.setSlot k t) := by
  refine ⟨fun j => ?_⟩
  obtain hs | ⟨rfl, hs⟩ := c.slot_setSlot_cases j k t
  · rw [hs]; exact .refl _
  · rwa [hs]

theorem State.keepsSlots_setCore {s : State} {c : Nat} {x : Core} (h : (s.core c).KeepsSlots x) : KeepsSlots s (s.setCore c x) := by
  refine ⟨fun d j => ?_⟩
  by_cases hd : d = c
  · subst hd
    rw [State.slot, State.slot, State.core_setCore_self]
    exact h.slot j
  · rw [State.slot, State.slot, State.core_setCore_ne _ _ hd]
    exact .refl _

/-- A store sets ready bits and their timestamps alone. -/
theorem Core.watchHit_keepsSlots (c : Core) (off n ts : Nat) : c.KeepsSlots (c.watchHit off n ts) := by
  unfold Core.watchHit
  generalize c.watch = l
  induction l generalizing c with
  | nil => exact Core.keepsSlots_of_slots rfl
  | cons w l ih =>
    refine .trans ?_ (ih _)
    dsimp only
    split
    · exact Core.keepsSlots_setSlot (.refl _)
    · exact Core.keepsSlots_of_slots rfl

theorem Core.scrStore_keepsSlots (c : Core) (off n v ts : Nat) : c.KeepsSlots (c.scrStore off n v ts).1 := by
  unfold Core.scrStore
  dsimp only
  refine .trans (Core.keepsSlots_of_slots ?_) (Core.watchHit_keepsSlots ..)
  dsimp only
  split
  · rfl
  · exact Core.addFixed_slots c 13 1

theorem Core.enterRecord_keepsSlots (c : Core) (r : FaultRec) (ts : Nat) : c.KeepsSlots (c.enterRecord r ts) := by
  unfold Core.enterRecord
  split
  · refine .trans ?_ ((Core.scrStore_keepsSlots ..).trans (Core.keepsSlots_setSlot (.refl _)))
    exact Core.keepsSlots_of_slots rfl
  · exact (Core.scrStore_keepsSlots ..).trans (Core.keepsSlots_of_slots rfl)

theorem State.enterRecord_keepsSlots (s : State) (c : Nat) (r : FaultRec) (ts : Nat) : KeepsSlots s (s.enterRecord c r ts) := by
  refine State.keepsSlots_setCore ?_
  split
  · exact Core.keepsSlots_of_slots rfl
  · split
    · exact (Core.scrStore_keepsSlots ..).trans (Core.keepsSlots_of_slots rfl)
    · exact Core.enterRecord_keepsSlots ..

theorem Core.markBay_slots (c : Core) (k : Nat) (r : FaultRec) : (c.markBay k r).slots = c.slots := by
  unfold Core.markBay
  split <;> rfl

/-- A slot that faults keeps its registers, and so does every other. -/
theorem State.faultSlot_keepsSlots (s : State) (c k : Nat) (f : FaultInfo) (kind : Nat) (info : Word) :
    KeepsSlots s (s.faultSlot c k f kind info) := by
  unfold State.faultSlot
  extract_lets t debug caps kd r x s1 s2 y s3
  have h1 : KeepsSlots s s1 := State.keepsSlots_setSlot ⟨rfl, rfl, rfl, rfl, rfl, rfl, rfl, rfl, setFollow_low11 _ false⟩
  have h2 : KeepsSlots s1 s2 := State.keepsSlots_setCore (Core.keepsSlots_of_slots (Core.markBay_slots ..))
  have h3 : KeepsSlots s2 s3 := by
    simp only [s3]
    split
    · exact State.keepsSlots_setCore (Core.keepsSlots_of_slots rfl)
    · exact State.enterRecord_keepsSlots ..
  exact h1.trans (h2.trans (h3.trans (State.dropFollowers_keepsSlots ..)))

theorem State.faultSlot_cur (s : State) (c k : Nat) (f : FaultInfo) (kind : Nat) (info : Word) : (s.faultSlot c k f kind info).cur = s.cur := by
  unfold State.faultSlot
  extract_lets t debug caps kd r x s1 s2 y s3
  have h3 : s3.cur = s2.cur := by
    simp only [s3]
    split <;> rfl
  exact (State.dropFollowers_touches (fun _ => False) (fun _ => False) s3 c k).cur.trans h3

/-- A fault empties and writes no register of any slot (R75, R368). -/
theorem State.raise_keepsSlots (s : State) (f : FaultInfo) : KeepsSlots s (s.raise f) := by
  unfold State.raise
  split
  · exact State.faultSlot_keepsSlots ..
  · split
    · exact State.keepsSlots_of_cores rfl
    · exact .refl s
  · next n hc => exact State.keepsSlots_of_cores (by rw [State.setThread, hc])

/-- Nor any of the current thread, whatever it is. -/
theorem State.raise_thread (s : State) (f : FaultInfo) :
    (s.raise f).thread.g = s.thread.g ∧ (s.raise f).thread.p = s.thread.p ∧ (s.raise f).thread.fe = s.thread.fe := by
  cases hc : s.cur with
  | slot c k =>
    have hr : s.raise f = s.faultSlot c k f 1 f.info := by rw [State.raise, hc]
    obtain ⟨hg, -, hp, hfe, -⟩ := (s.faultSlot_keepsSlots c k f 1 f.info).slot c k
    rw [hr, State.thread_slot ((s.faultSlot_cur ..).trans hc), State.thread_slot hc]
    exact ⟨hg, hp, hfe⟩
  | ctx ch i =>
    cases hx : aget (s.chan ch).ctxs i with
    | none =>
      have hr : s.raise f = s := by simp [State.raise, hc, hx]
      rw [hr]
      exact ⟨rfl, rfl, rfl⟩
    | some x => simp [State.raise, State.thread, hc, hx]
  | sys n =>
    have hr : s.raise f = s.setThread { s.thread with st := .faulted, wait := none, entry := false, again := none, vec := none } := by
      rw [State.raise, hc]
    rw [hr]
    obtain h | h := s.thread_setThread_cases { s.thread with st := .faulted, wait := none, entry := false, again := none, vec := none }
    · rw [h]; exact ⟨rfl, rfl, rfl⟩
    · rw [h]; exact ⟨rfl, rfl, rfl⟩

/-- Settles O45: at issue by what its reads with T are, at completion register by register, and at a fault by what each part of it keeps. -/
theorem takeAndWaitEmptyActAtCompletion : Obligations.TakeAndWaitEmptyActAtCompletion := by
  refine ⟨fun s c k hcur hk hports => ?_, fun s f => ⟨fun c k => ?fault, s.raise_thread f⟩⟩
  case fault =>
    obtain ⟨hg, hv, hp, hfe, hh, -⟩ := (s.raise_keepsSlots f).slot c k
    exact ⟨hg, hv, hp, hfe, hh⟩
  have ht : s.thread = s.slot c k := State.thread_slot hcur
  have hnone : s.thread.ports = [] := by rw [ht, hports]
  have hbefore : ∀ e : Eff, (s.setThread (s.commitSlot e)).slot c k = s.commitSlot e := fun e => State.slot_setThread hcur hk _
  have hport : ∀ e : Eff, e.pops = [] → ∀ r, ((s.setThread (s.commitSlot e)).slot c k).port r = none := fun e hpops r => by
    rw [hbefore, Slot.port_none (s.commitSlot_noPorts hpops hnone)]
  have hcur1 : ∀ t, (s.setThread t).cur = .slot c k := fun t => (State.setThread_cur s t).trans hcur
  refine ⟨fun u s1 e h r => ?takes, fun e r hr hmem hpops hlate hw => ?emptied, fun e n x hn hmem hpops hearly hlate hw => ?g,
    fun e n x hn hmem hpops hearly hlate hw => ?v, fun u hf => ?waits⟩
  case takes => rw [prepare_takes_noPorts hnone h, Uses.mem_taken]
  case emptied =>
    obtain ⟨hreg, hfe⟩ := State.commit_unwritten hcur hk hr hlate hw
    have h := (s.commitSlot_emptied hr hmem hpops hw).congr (.refl r _) hreg hfe
    rw [ht] at h
    exact ⟨h.empty, h.held⟩
  case g =>
    obtain ⟨hg, -, -, hfe, hh, -⟩ := s.commit_oneWrite hlate hw c k
    rw [State.applyWr_g (hcur1 _) hk (hport e hpops n), hbefore] at hg hfe hh
    refine ⟨?_, by rw [hfe, Slot.fe_fill_self _ _ (by omega)], ?_⟩
    · rw [Slot.gr, hg, ← Slot.gr, Slot.gr_fill_self _ _ hn]
      simp
    · rw [hh, Slot.fill_holders, s.commitSlot_held hpops (Eff.mem_kept (w := .g n x) (by simp [hw]) rfl hearly), ht]
  case v =>
    obtain ⟨-, hv, -, hfe, hh, -⟩ := s.commit_oneWrite hlate hw c k
    rw [State.applyWr_v (hcur1 _) hk (hport e hpops (64 + n)), hbefore] at hv hfe hh
    refine ⟨?_, by rw [hfe, Slot.fe_fill_self _ _ (by omega)], ?_⟩
    · rw [Slot.vr, hv, ← Slot.vr, Slot.vr_fill_self _ _ hn]
      simp [State.vmask]
    · rw [hh, Slot.fill_holders, s.commitSlot_held hpops (Eff.mem_kept (w := .v n x) (by simp [hw]) rfl hearly), ht]
  case waits =>
    rw [← ht] at hf ⊢
    exact prepare_waits_iff hnone hf

end Sys2Proof.Machine
end

section
/-! SUPPORT. A remote fill of a register to which no port is bound, and the emptying of one (R119, R278). -/

namespace Sys2Proof.Machine

section
variable {t : Slot} {r : Nat} (hp : t.port r = none)
include hp

theorem Slot.full_of_port_none : t.full r = t.fe.getLsbD r := by rw [Slot.full, hp]

/-- A fill of an empty register whose thread is not away enters it. -/
theorem Slot.remoteFill_enters (x : VReg) (ts : Nat) (hc : ¬(t.fe.getLsbD r = true ∨ t.awayLive r = true)) :
    t.remoteFill r x ts = some { t.fill r x with fillTs := aset (t.fill r x).fillTs r ts } := by
  obtain ⟨hfe, haway⟩ := not_or.mp hc
  simp [Slot.remoteFill, Slot.full_of_port_none hp, hfe, haway]

section
variable (hc : t.fe.getLsbD r = true ∨ t.awayLive r = true)
include hc

/-- A fill of one that counts as full goes to a holder that is free. -/
theorem Slot.remoteFill_held (x : VReg) (ts : Nat) (hh : aget t.holders r = none) :
    t.remoteFill r x ts = some { t with holders := aset t.holders r { val := x, ts := ts } } := by
  rw [Slot.remoteFill, Slot.full_of_port_none hp, hh, if_neg (by obtain h | h := hc <;> simp [h])]
  rfl

/-- It is refused where the holder is occupied. -/
theorem Slot.remoteFill_refused (x : VReg) (ts : Nat) (hh : (aget t.holders r).isSome = true) : t.remoteFill r x ts = none := by
  rw [Slot.remoteFill, Slot.full_of_port_none hp, if_neg (by obtain h | h := hc <;> simp [h]), if_pos hh]

end

end

theorem Slot.reg_fill_self (t : Slot) {r : Nat} (x : VReg) (h : r < 96) :
    (t.fill r x).reg r = if r < 64 then (x.setWidth 64).setWidth 2048 else x := Slot.reg_setReg_self t x h

/-- The timestamp of a held fill that enters stays for the first read. -/
theorem Slot.fillTs_empty_held {t : Slot} {r : Nat} {h : Held} (hh : aget t.holders r = some h) :
    aget (t.empty r).fillTs r = some h.ts := by
  simp [Slot.empty, hh]

/-- A register emptied with no fill held keeps its value. -/
theorem Slot.reg_empty_unheld {t : Slot} {r : Nat} (hh : aget t.holders r = none) : (t.empty r).reg r = t.reg r := by
  simp only [Slot.empty, hh]
  rfl

/-- Settles O55, from the three ways of a remote fill and the two ways of an emptying. -/
theorem remoteFillsEnterOnce : Obligations.RemoteFillsEnterOnce := by
  intro t r x ts hr hp
  refine ⟨fun hc => ⟨_, Slot.remoteFill_enters hp x ts hc, Slot.reg_fill_self t x hr, Slot.fe_fill_self t x hr,
      aget_aset_self _ _ _, Slot.fill_holders t r x⟩,
    fun hc hfree => ⟨_, Slot.remoteFill_held hp hc x ts hfree, rfl, rfl, aget_aset_self _ _ _⟩, fun hc => Slot.remoteFill_refused hp hc x ts,
    fun h hh => ?enters, fun hn => ⟨Slot.reg_empty_unheld hn, (Slot.emptied_empty t hr).empty hn⟩⟩
  case enters =>
    obtain ⟨hfe, hreg⟩ := (Slot.emptied_empty t hr).held h hh
    exact ⟨hreg, hfe, Slot.fillTs_empty_held hh⟩

end Sys2Proof.Machine
end

section
/-! SUPPORT. The slots of the state after reset (R117, R121). -/

namespace Sys2Proof.Machine

theorem Core.initial_slot (k : Nat) : Core.initial.slot k = Slot.initial := by
  by_cases h : k < 16 <;> simp [Core.slot, Core.initial, h]

/-- No core has a state of its own after reset. -/
theorem State.reset_slot (c k : Nat) : State.reset.slot c k = Slot.initial := Core.initial_slot k

/-- Settles O60: memory lists nothing, and every slot is one of a core that nothing has set. -/
theorem resetLeavesTheDeviceBeforeBoot : Obligations.ResetLeavesTheDeviceBeforeBoot := by
  refine ⟨reset_mem_wf, rfl, rfl, rfl, rfl, fun c k => ?_, rfl, rfl, rfl⟩
  rw [State.reset_slot]
  exact ⟨rfl, rfl, rfl⟩

end Sys2Proof.Machine
end

section
/-! SUPPORT. The effects of state access, from what the slot they name holds (R116, R117, R132). -/

namespace Sys2Proof.Machine

/-! ## Completions with a register and no flag -/

theorem Eff.scalar_eq (e : Eff) (d : BitVec 8) (x : Word) : e.scalar d x = { e with writes := e.writes ++ wrS d x } := by
  simp [Eff.scalar]

theorem Eff.pred_eq (e : Eff) (d : BitVec 8) (x : PReg) : e.pred d x = { e with writes := e.writes ++ wrP d x } := by
  simp [Eff.pred]

/-- An instruction with no request to send, whose effect is done, completes at its issue. -/
theorem exec_done {i : Instr} {body : State → Eff → Res} {s s1 s2 : State} {e e2 : Eff} (hr : Ready i s s1 e)
    (hi : exec i s = meaning i none body s) (hb : body s1 e = .done s2 e2) : exec i s = .next (s2.commit e2) :=
  hi.trans (meaning_done hr hb)

/-! ## SETS and SETSI -/

theorem setState_flags (s : State) (e : Eff) (mode opnd : Nat) (x : Word) :
    setState s e 1 mode opnd x = .done s { e with setFlags := some (setsValue mode s.thread.flags x) } := rfl

theorem setState_efmt {s : State} {mode : Nat} {x z : Word} (h : efmtWritten (setsValue mode s.thread.efmt x) = some z) (e : Eff)
    (opnd : Nat) : setState s e 2 mode opnd x = .done s { e with setEfmt := some z } := by
  simp [setState, State.stateReg, h]

/-! ## TRD -/

section
variable {f : FmtR} {s : State} {t : Slot} (ht : s.peer? (s.rs f.a).toNat = some t)
include ht

theorem State.slotOf_peer : s.slotOf f = .ok ((s.rs f.a).toNat, t) := by simp [State.slotOf, ht]

theorem trdBody_state (e : Eff) (h : f.imm.toNat / 4096 % 2 = 1) :
    trdBody f s e = .done s (e.scalar f.d (s.stateReg t (f.imm.toNat % 4096))) := by
  rw [trdBody, State.slotOf_peer ht, Chk.res_ok]
  exact if_pos h

/-- TRD of a full/empty bit, or of a register or predicate, where no port is bound: the one it names. -/
theorem trdBody_unbound (e : Eff) (hreg : f.imm.toNat / 4096 % 2 = 0)
    (hport : ¬(f.imm.toNat % 128 < 96 ∧ (t.port (f.imm.toNat % 128)).isSome)) :
    let n := f.imm.toNat % 128
    trdBody f s e =
      if f.mod.getLsbD 0 then .done s (e.scalar f.d (boolWord (t.fe.getLsbD n)))
      else if n < 64 then .done s (e.scalar f.d (t.gr n))
      else if n < 96 then .done s (e.vector f.d (t.vr (n - 64)))
      else .done s (e.pred f.d (t.pr (n - 96))) := by
  rw [trdBody, State.slotOf_peer ht, Chk.res_ok]
  dsimp only
  rw [if_neg (by omega), if_neg hport, Eff.pred_eq]
  rfl

/-! ## TWR -/

/-- TWR of the PC of a slot that is not at rest is refused. -/
theorem twrBody_refused (e : Eff) (hpc : f.imm.toNat / 4096 % 2 = 1 ∧ f.imm.toNat % 4096 = 0)
    (hrest : ¬(t.st = .idle ∨ t.st = .stopped ∨ t.st = .faulted)) :
    twrBody f s e = .done s (e.scalar f.d (BitVec.ofNat 64 (slotStatus t true))) := by
  rw [twrBody, State.slotOf_peer ht, Chk.res_ok]
  dsimp only
  rw [if_pos]
  · rfl
  · simpa [hpc, and_assoc] using hrest

/-- Every other TWR writes what `State.twr` gives. -/
theorem twrBody_writes {t' : Slot} (e : Eff)
    (h : ¬((f.imm.toNat / 4096 % 2 = 1 ∧ f.imm.toNat % 4096 = 0) ∧ ¬(t.st = .idle ∨ t.st = .stopped ∨ t.st = .faulted)))
    (hw : s.twr f t = .ok t') :
    twrBody f s e = .done (s.setPeer (s.rs f.a).toNat t') (e.scalar f.d (BitVec.ofNat 64 (slotStatus t false))) := by
  rw [twrBody, State.slotOf_peer ht, Chk.res_ok]
  dsimp only
  rw [if_neg, hw]
  · rfl
  · simpa [and_assoc] using h

end

/-- Settles O12: each effect is the completion of its row, that of TRD and TWR by what they name. -/
theorem stateRegistersComplete : Obligations.StateRegistersComplete := by
  refine ⟨fun f => ⟨?movs, ?capa, fun s s1 e => ⟨fun hr h => ?setsFlags, fun z hr h hz => ?setsEfmt, fun t => ?trd, fun t t' hr ht => ?twr⟩⟩,
    fun f s s1 e => ⟨fun hr h => ?setsiFlags, fun z hr h hz => ?setsiEfmt⟩⟩
  case movs | capa => exact completes_of_done (fun _ => rfl) fun _ _ => rfl
  case setsFlags => exact exec_done (body := setsBody f) hr rfl (by rw [setsBody, h, setState_flags])
  case setsEfmt => exact exec_done (body := setsBody f) hr rfl (by rw [setsBody, h, setState_efmt hz])
  case setsiFlags => exact exec_done (body := setsiBody f) hr rfl (by rw [setsiBody, h, setState_flags])
  case setsiEfmt => exact exec_done (body := setsiBody f) hr rfl (by rw [setsiBody, h, setState_efmt hz])
  case trd =>
    intro n hr ht
    have hdone : ∀ {e2}, trdBody f s1 e = .done s1 e2 → exec (.trd f) s = .next (s1.commit e2) := exec_done hr rfl
    have hfree : ∀ {p : Prop}, t.port n = none → ¬(p ∧ (t.port n).isSome) := fun hp h => by simp [hp] at h
    refine ⟨fun h => hdone (trdBody_state ht e h), fun h hm hp => hdone ?bit, fun h hm hp hn => hdone ?g, fun h hm hp hn hn' => hdone ?v,
      fun h hm hn => hdone ?p⟩
    case bit => rw [trdBody_unbound ht e h hp, if_pos hm]
    case g => rw [trdBody_unbound ht e h (hfree hp), if_neg (ne_true_of_eq_false hm), if_pos hn]
    case v => rw [trdBody_unbound ht e h (hfree hp), if_neg (ne_true_of_eq_false hm), if_neg (by omega), if_pos hn']
    case p => rw [trdBody_unbound ht e h (fun h' => by omega), if_neg (ne_true_of_eq_false hm), if_neg (by omega), if_neg (by omega)]
  case twr =>
    exact ⟨fun hpc hrest => exec_done hr rfl (twrBody_refused ht e hpc hrest), fun h hw => exec_done hr rfl (twrBody_writes ht e h hw)⟩

end Sys2Proof.Machine
end

section
/-! SUPPORT. Lines that IPF requests: no slot changes, and no line of memory but one that its check corrects (R64, R134). -/

namespace Sys2Proof.Machine

/-- A line written leaves every other line. -/
theorem Memory.line_writeNat_ne (m : Memory) {ln k : Nat} (v : Nat) (h : k ≠ ln) : Memory.line (Memory.writeNat m (64 * ln) 64 v) k = Memory.line m k := by
  unfold Memory.line
  rw [Memory.readNat_writeNat_out _ _ _ _ _ _ (by omega)]

theorem State.SameSlots.thread {s t : State} (h : SameSlots s t) {c k : Nat} (hc : s.cur = .slot c k) : t.thread = s.thread := by
  rw [State.thread_slot (h.cur.trans hc), State.thread_slot hc, h.slot]

/-- No slot has changed, and no line of memory but one that its check corrects. -/
structure State.OnlyCorrects (s t : State) : Prop where
  slots : SameSlots s t
  line : ∀ ln, (∀ x, verifyLine (s.mem.line ln) ≠ some (x, true)) → t.mem.line ln = s.mem.line ln

namespace State.OnlyCorrects

variable {s t u : State}

theorem of_mem (h : SameSlots s t) (hm : t.mem = s.mem) : OnlyCorrects s t := ⟨h, fun _ _ => by rw [hm]⟩

theorem refl (s : State) : OnlyCorrects s s := of_mem (.refl s) rfl

theorem trans (h1 : OnlyCorrects s t) (h2 : OnlyCorrects t u) : OnlyCorrects s u where
  slots := h1.slots.trans h2.slots
  line ln h := (h2.line ln (by rwa [h1.line ln h])).trans (h1.line ln h)

end State.OnlyCorrects

theorem State.readMem_onlyCorrects (s : State) (ln : Nat) : OnlyCorrects s (s.readMem ln).1 := by
  unfold State.readMem
  split
  · next x hx =>
    dsimp only
    split
    · next hfix =>
      refine ⟨State.fixMem_sameSlots .., fun k hk => Memory.line_writeNat_ne _ _ ?_⟩
      rintro rfl
      exact hk x.1 (by rw [hx, ← hfix])
    · exact .refl s
  · exact .refl s

theorem State.prefetch_onlyCorrects (s : State) (l3 : Bool) (va : Nat) : OnlyCorrects s (s.prefetch l3 va) := by
  unfold State.prefetch
  split
  · split
    · exact .refl s
    · split
      · exact .of_mem (State.noteFault_sameSlots ..) (State.noteFault_mem ..)
      · next ln _ =>
        have hread : ∀ (p : Bool) (w : Who), OnlyCorrects s (if p then (s, none) else (s.tlbEnter w va).readMem ln).1 := fun p w => by
          split
          · exact .refl s
          · exact (OnlyCorrects.of_mem (State.tlbEnter_sameSlots ..) (State.tlbEnter_mem ..)).trans (State.readMem_onlyCorrects ..)
        dsimp only
        split
        · exact hread ..
        · split
          · exact (hread ..).trans (.of_mem (.of_cores rfl rfl) rfl)
          · exact (hread ..).trans (.of_mem (.of_cores rfl rfl) rfl)
  · exact .refl s

theorem State.prefetchFrom_onlyCorrects (s : State) (l3 : Bool) (va n : Nat) : OnlyCorrects s (s.prefetchFrom l3 va n) := by
  induction n generalizing s va with
  | zero => exact .refl s
  | succ n ih => exact (s.prefetch_onlyCorrects l3 va).trans (ih _ _)

/-- A thread that is no slot requests no line. -/
theorem State.prefetchFrom_noSlot {s : State} (h : ∀ c k, s.cur ≠ .slot c k) (l3 : Bool) (va n : Nat) : s.prefetchFrom l3 va n = s := by
  have hone : ∀ va, s.prefetch l3 va = s := fun va => by
    unfold State.prefetch
    split
    · next hc => exact absurd hc (h _ _)
    · rfl
  induction n generalizing va with
  | zero => rfl
  | succ n ih => rw [State.prefetchFrom, hone, ih]

theorem State.prefetchFrom_thread (s : State) (l3 : Bool) (va n : Nat) : (s.prefetchFrom l3 va n).thread = s.thread := by
  by_cases h : ∃ c k, s.cur = .slot c k
  · obtain ⟨c, k, hc⟩ := h
    exact (s.prefetchFrom_onlyCorrects l3 va n).slots.thread hc
  · rw [State.prefetchFrom_noSlot fun c k hc => h ⟨c, k, hc⟩]

end Sys2Proof.Machine
end

section
/-! SUPPORT. The effects of waiting and of slot control, from what their conditions say (R125, R128-R131, R133-R137, R374). -/

namespace Sys2Proof.Machine

/-! ## WATCH, WAITA, FLW -/

theorem watchBody_resident {f : FmtR} {s : State} {c off : Nat} (e : Eff) (hlo : winBase ≤ (s.ea f 8).toNat)
    (hhi : (s.ea f 8).toNat < winBase + 2 ^ 22) (hal : (s.ea f 8).toNat % 8 = 0)
    (hl : s.reach s.cur (s.ea f 8).toNat 8 .load = .ok (.scr c off)) :
    watchBody f s e = .done (s.setCore c { (s.core c).touch (off / 4096) with
      watch := if f.mod.getLsbD 1 then adel ((s.core c).touch (off / 4096)).watch (off / 8)
               else aset ((s.core c).touch (off / 4096)).watch (off / 8) s.mySlot }) e := by
  unfold watchBody
  dsimp only
  rw [if_neg (by omega), if_neg (by simp [hal]), hl, Chk.res_ok]

theorem waitaBody_ready {s : State} (h : s.thread.ready = true) (f : FmtR) (e : Eff) :
    waitaBody f s e = .done (s.setThread { s.thread with ready := false }) { e with pts := max e.pts s.thread.readyTs } := by
  simp [waitaBody, h]

theorem flwBody_noSlot {s : State} (h : ∀ c k, s.cur ≠ .slot c k) (f : FmtR) (e : Eff) : flwBody f s e = .done s (e.scalar f.d 0) := by
  unfold flwBody
  split
  · next hc => exact absurd hc (h _ _)
  · rfl

/-- FLW of a slot: an answer of 0 at once, or the wait for the bellwether. -/
theorem flwBody_slot {s : State} {c k : Nat} (h : s.cur = .slot c k) (f : FmtR) (e : Eff) :
    let b := 4096 * devOf c + 8 * (c % 4096 / 8) + (s.rs f.a).toNat % 8
    let u := s.slot b k
    flwBody f s e =
      if s.isGateway c = true ∨ b = c ∨ u.follow = true ∨ ¬(u.st = .runnable ∨ u.st = .parked ∨ u.st = .held) then .done s (e.scalar f.d 0)
      else .sent (s.setThread { s.thread.setFollow false with
        bell := some b, flwSince := s.ac, followBuf := [], reply := some (e.scalar f.d 1) }) .follow := by
  intro b u
  rw [flwBody, h, e.scalar_eq f.d 1]
  refine if_congr ?_ rfl rfl
  simp [or_assoc, and_assoc, b, u]

/-! ## A slot named by slot control (R131) -/

theorem withSlot_absent {f : FmtR} {s : State} (h : (s.rs f.a).toNat = 0 ∨ s.peer? (s.rs f.a).toNat = none) (e : Eff) (g : Nat → Slot → Res) :
    withSlot f s e g = .done s (e.scalar f.d 0x80) := by
  have hnone : (if (s.rs f.a).toNat = 0 then none else s.peer? (s.rs f.a).toNat) = none := by
    split
    · rfl
    · next hj => exact h.resolve_left hj
  rw [withSlot, hnone]
  rfl

section
variable {f : FmtR} {s : State} {t : Slot} (hj : (s.rs f.a).toNat ≠ 0) (hp : s.peer? (s.rs f.a).toNat = some t)
include hj hp

theorem withSlot_peer (e : Eff) (g : Nat → Slot → Res) : withSlot f s e g = g (s.rs f.a).toNat t := by
  rw [withSlot, if_neg hj, hp]

theorem tstartBody_rest (e : Eff) (hst : t.st = .idle ∨ t.st = .stopped ∨ t.st = .ended) :
    tstartBody f s e = .done ((s.loseFills t).setPeer (s.rs f.a).toNat (t.started ((s.loseFills t).rs f.b) (s.loseFills t).thread.pts))
      (e.scalar f.d (BitVec.ofNat 64 (slotStatus t false))) := by
  rw [tstartBody, withSlot_peer hj hp]
  obtain h | h | h := hst <;> rw [h] <;> rfl

section
variable {c k : Nat} (hc : s.cur = .slot c k)
include hc

/-- TSTOP of a slot at an instruction boundary, or on a wait that can be abandoned, stops it at once. -/
theorem tstopBody_stops (e : Eff) (hst : (t.st = .runnable ∧ t.again = none) ∨ t.st = .held
      ∨ (t.st = .parked ∧ s.abandonable c (s.rs f.a).toNat t = true)) :
    tstopBody f s e = .done (s.stopSlot c (s.rs f.a).toNat)
      ({ e with pts := max e.pts t.pts }.scalar f.d (BitVec.ofNat 64 (slotStatus t false))) := by
  rw [tstopBody, withSlot_peer hj hp, Eff.scalar_eq, hc]
  obtain ⟨h, ha⟩ | h | ⟨h, ha⟩ := hst
  · simp [h, ha]
  · simp [h]
  · simp [h, ha]

theorem tstopBody_stopped (e : Eff) (hst : t.st = .stopped) :
    tstopBody f s e = .done s ({ e with pts := max e.pts t.pts }.scalar f.d (BitVec.ofNat 64 (slotStatus t false))) := by
  rw [tstopBody, withSlot_peer hj hp, Eff.scalar_eq, hc]
  simp [hst]

theorem treapBody_rest (e : Eff) (hst : t.st = .idle ∨ t.st = .stopped ∨ t.st = .ended ∨ t.st = .faulted)
    (hway : s.reapWay c (s.rs f.a).toNat = .ok ()) :
    treapBody f s e = .done (s.reap c (s.rs f.a).toNat)
      ({ e with pts := max e.pts t.pts }.scalar f.d (BitVec.ofNat 64 (slotStatus t false))) := by
  rw [treapBody, withSlot_peer hj hp, hc]
  obtain h | h | h | h := hst <;> simp only [h, hway, Chk.res_ok] <;> rfl

theorem tretBody_rest (e : Eff) (hst : t.st = .stopped ∨ t.st = .faulted) :
    tretBody f s e = .done (s.returnSlot c (s.rs f.a).toNat s.thread.pts) (e.scalar f.d (BitVec.ofNat 64 (slotStatus t false))) := by
  rw [tretBody, withSlot_peer hj hp, hc]
  obtain h | h := hst <;> simp only [h] <;> rfl

end

end

theorem tstatBody_peer {f : FmtR} {s : State} {t : Slot} (hp : s.peer? (s.rs f.a).toNat = some t) (e : Eff) :
    tstatBody f s e = .done s (e.scalar f.d (BitVec.ofNat 64 (slotStatus t false + 256 * (if t.st = .parked then t.parkReason else 0)))) := by
  rw [tstatBody, hp]
  rfl

/-! ## TEND (R135) -/

section
variable {s : State} (hh : s.thread.hold = none)
include hh

theorem tendBody_slot (f : FmtR) (e : Eff) (hc : ∀ c, s.cur ≠ .slot c 0) : tendBody f s e = .done s { e with ended := true } := by
  rw [tendBody, hh, if_neg (by simp)]
  split
  · next h => exact absurd h (hc _)
  · rfl

/-- A shepherd whose siblings are at rest reaps them and ends. -/
theorem tendBody_shepherd (f : FmtR) (e : Eff) {c : Nat} (hc : s.cur = .slot c 0)
    (hrest : ∀ i, i ≠ 0 → i < (s.core c).nslots → (s.slot c i).st = .idle ∨ (s.slot c i).st = .stopped ∨ (s.slot c i).st = .ended)
    (hways : s.reapWays c ((List.range (s.core c).nslots).filter (· != 0)) = .ok ()) :
    let r := s.reapSiblings c ((List.range (s.core c).nslots).filter (· != 0))
    tendBody f s e = .done r.1 { e with pts := max e.pts r.2, ended := true } := by
  have hsib : ∀ j ∈ (List.range (s.core c).nslots).filter (· != 0),
      ((s.core c).slot j).st = .idle ∨ ((s.core c).slot j).st = .stopped ∨ ((s.core c).slot j).st = .ended := fun j hj => by
    obtain ⟨hlt, hne⟩ := List.mem_filter.mp hj
    exact hrest j (by simpa using hne) (List.mem_range.mp hlt)
  rw [tendBody, hh, if_neg (by simp), hc]
  change (if _ then _ else if _ then _ else _) = _
  rw [if_neg ?faulted, if_pos ?rest, hways, Chk.res_ok]
  case faulted =>
    rw [List.any_eq_true]
    rintro ⟨j, hj, hf⟩
    obtain h | h | h := hsib j hj <;> simp [h] at hf
  case rest => exact List.all_eq_true.mpr fun j hj => by simpa [or_assoc] using hsib j hj

end

/-- Settles O7: each effect is the completion of its row under the conditions that the row names. -/
theorem waitingAndSlotControlComplete : Obligations.WaitingAndSlotControlComplete := by
  refine ⟨fun f s s1 e => ⟨fun hr => exec_done hr rfl rfl, fun hr => ?ipf, fun c off hr hlo hhi hal hl => ?watch, fun hr h => ?waita,
      fun hr h => exec_done hr rfl (flwBody_noSlot h f e), fun c k hr hc => ?flw, fun hr => exec_done hr rfl rfl⟩,
    fun f s s1 e => ⟨fun t hr hj hp hst => exec_done hr rfl (tstartBody_rest hj hp e hst),
      fun c k t hr hj hc hp hst => exec_done hr rfl (tstopBody_stops hj hp hc e hst),
      fun c k t hr hj hc hp hst => exec_done hr rfl (tstopBody_stopped hj hp hc e hst),
      fun c k t hr hj hc hp hst hway => exec_done hr rfl (treapBody_rest hj hp hc e hst hway),
      fun c k t hr hj hc hp hst => exec_done hr rfl (tretBody_rest hj hp hc e hst),
      fun t hr hp => exec_done hr rfl (tstatBody_peer hp e), fun i hi hr h => ?absent,
      fun hr hh hc => exec_done hr rfl (tendBody_slot hh f e hc),
      fun c hr hh hc hrest hways => exec_done hr rfl (tendBody_shepherd hh f e hc hrest hways)⟩⟩
  case ipf => exact ⟨_, s1.prefetchFrom_thread .., exec_done hr rfl rfl, (s1.prefetchFrom_onlyCorrects ..).line⟩
  case watch => exact meaning_done hr (watchBody_resident e hlo hhi hal hl)
  case waita => exact exec_done hr rfl (waitaBody_ready h f e)
  case flw =>
    intro b u running
    have hbody := flwBody_slot hc f e
    refine ⟨fun h => exec_done hr rfl (hbody.trans (if_pos h)), fun hg hb hu hrun => meaning_sent hr (hbody.trans (if_neg ?_))⟩
    rintro (h | h | h | h)
    · exact absurd hg (by simp [h])
    · exact hb h
    · exact absurd hu (by simp [u, b, h])
    · exact h hrun
  case absent =>
    simp only [List.mem_cons, List.not_mem_nil, or_false] at hi
    obtain rfl | rfl | rfl | rfl := hi
    all_goals exact exec_done hr rfl (withSlot_absent h e _)

end Sys2Proof.Machine
end

section
/-! SUPPORT. The results of integer and address instructions, each in the form in which its rule gives it (R138-R153). -/

namespace Sys2Proof.Machine

/-- An instruction whose effect is done with a scalar and its flags completes with them. -/
theorem writesScalar_of_doneS {i : Instr} {body : State → Eff → Res} {d : BitVec 8} {val : State → Word × Word}
    (h : ∀ s, exec i s = meaning i none body s) (hb : ∀ s e, body s e = doneS s e d (val s).1 (val s).2) : WritesScalar i d val :=
  completes_of_done h hb

/-! ## Arithmetic (R143, R145, R149, R151) -/

theorem absBody_eq (f : FmtR) (s : State) (e : Eff) : absBody f s e = doneNarrow s e f (s.inTy f.ty.toNat f.a).natAbs := by
  have habs (a : Int) : (if a < 0 then -a else a) = a.natAbs := by split <;> omega
  rw [← habs, absBody]

/-- Settles O3: each effect is the completion of its row, that of ABS by the absolute value as its two cases give it. -/
theorem scalarArithmeticResults : Obligations.ScalarArithmeticResults := by
  refine ⟨fun f => ⟨?add, ?sub, ?mul, ?madd, ?abs, ?mulh, ?div, ?rem, ?min, ?max⟩, fun f => ?addi⟩
  case abs => exact writesScalar_of_doneS (fun _ => rfl) (absBody_eq f)
  case add | sub | mul | madd | mulh | div | rem | min | max | addi => exact writesScalar_of_doneS (fun _ => rfl) fun _ _ => rfl

/-! ## Shifts (R144) -/

/-- A logical shift of a source divides its low w bits, and leaves none of them when its count reaches w. -/
theorem shrBits_bitsTy (s : State) (t : Nat) (b : BitVec 8) (n : Nat) :
    shrBits (tyWidth t) (s.bitsTy t b) n = if n < tyWidth t then s.bitsTy t b / 2 ^ n else 0 := by
  rw [shrBits, State.bitsTy, Nat.mod_mod, Nat.shiftRight_eq_div_pow]

theorem shrBody_eq (f : FmtR) (s : State) (e : Eff) :
    shrBody f s e = doneBits s e f
      (if (s.rs f.b).toNat < tyWidth f.ty.toNat then s.bitsTy f.ty.toNat f.a / 2 ^ (s.rs f.b).toNat else 0) := by
  rw [shrBody, shrBits_bitsTy]

theorem shriBody_eq (f : FmtI) (s : State) (e : Eff) :
    shriBody f s e = doneBitsI s e f
      (if f.imm.toNat % 64 < tyWidth f.ty.toNat then s.bitsTy f.ty.toNat f.a / 2 ^ (f.imm.toNat % 64) else 0) := by
  rw [shriBody, shrBits_bitsTy]

theorem rolBody_eq (f : FmtR) (s : State) (e : Eff) :
    let w := tyWidth f.ty.toNat
    let n := (s.rs f.b).toNat % (if w = 0 then 1 else w)
    rolBody f s e = doneBits s e f ((s.bitsTy f.ty.toNat f.a * 2 ^ n ||| s.bitsTy f.ty.toNat f.a / 2 ^ (w - n)) % 2 ^ w) := by
  intro w n
  rw [rolBody, Nat.shiftLeft_eq, Nat.shiftRight_eq_div_pow]

/-- Settles O4: each effect is the completion of its row, that of SHR and SHRI as a quotient of the low w bits, that of ROL as the union
of a product and a quotient. -/
theorem scalarLogicAndShiftResults : Obligations.ScalarLogicAndShiftResults := by
  refine ⟨fun f => ⟨?and, ?or, ?xor, ?shl, ?shr, ?sar, ?rol, ?cmp⟩, fun f => ⟨?andi, ?ori, ?xori, ?shli, ?shri, ?sari, ?cmpi⟩⟩
  case shr => exact writesScalar_of_doneS (fun _ => rfl) (shrBody_eq f)
  case shri => exact writesScalar_of_doneS (fun _ => rfl) (shriBody_eq f)
  case rol => exact writesScalar_of_doneS (fun _ => rfl) (rolBody_eq f)
  case and | or | xor | shl | sar | cmp | andi | ori | xori | shli | sari | cmpi =>
    exact writesScalar_of_doneS (fun _ => rfl) fun _ _ => rfl

/-! ## Moves, bit counts and bit fields (R147, R151, R152, R153) -/

theorem selBody_eq (f : FmtR) (s : State) (e : Eff) : selBody f s e = doneS s e f.d (if s.rs f.c = 0 then s.rs f.b else s.rs f.a) := by
  rw [selBody]
  by_cases hc : s.rs f.c = 0 <;> simp [hc]

/-- POPC counts the places below w at which a bit is set. -/
theorem popBits_eq_length_filter (w x : Nat) : popBits w x = ((List.range w).filter fun i => x.testBit i).length := by
  induction w generalizing x with
  | zero => rfl
  | succ w ih =>
    have htail : popBits w (x / 2) = (((List.range w).map Nat.succ).filter fun i => x.testBit i).length := by
      rw [ih, List.filter_map, List.length_map]
      simp [Function.comp_def, Nat.testBit_succ]
    have hhead : x % 2 = if x.testBit 0 then 1 else 0 := by
      rw [Nat.testBit_zero]
      obtain h | h := Nat.mod_two_eq_zero_or_one x <;> simp [h]
    rw [popBits, htail, hhead, List.range_succ_eq_map, List.filter_cons]
    split <;> simp [Nat.add_comm]

theorem popcBody_eq (f : FmtR) (s : State) (e : Eff) :
    popcBody f s e = doneS s e f.d
      (BitVec.ofNat 64 (((List.range (tyWidth f.ty.toNat)).filter fun i => (s.bitsTy f.ty.toNat f.a).testBit i).length)) := by
  rw [popcBody, popBits_eq_length_filter]

/-- A signed reading of `w` bits looks at the low `w` bits alone. -/
theorem sxInt_mod (w x : Nat) : sxInt w (x % 2 ^ w) = sxInt w x := by
  rw [sxInt, Nat.mod_mod, sxInt]

theorem bfxBody_eq (f : FmtR) (s : State) (e : Eff) :
    let pos := f.imm.toNat % 64
    let len := f.imm.toNat / 256 % 64 + 1
    bfxBody f s e = doneS s e f.d (if f.ty = 0x04 then BitVec.ofInt 64 (sxInt len ((s.rs f.a).toNat / 2 ^ pos))
      else BitVec.ofNat 64 ((s.rs f.a).toNat / 2 ^ pos % 2 ^ len)) := by
  intro pos len
  rw [bfxBody, sxInt_mod]

/-- EXT narrows its source with SAT, the source read as its MOD says, or extends the low w bits. -/
theorem extBody_eq (f : FmtR) (s : State) (e : Eff) :
    let val := if f.mod.getLsbD 1 then narrowed f.ty true (if f.mod.getLsbD 2 then ((s.rs f.a).toNat : Int) else (s.rs f.a).toInt)
      else asTy f.ty (s.bitsTy f.ty.toNat f.a)
    extBody f s e = doneS s e f.d val.1 val.2 := by
  intro val
  unfold extBody val
  cases f.mod.getLsbD 1 <;> rfl

/-- Settles O5: each effect is the completion of its row, that of SEL by the source it selects, that of POPC by the set places, that of BFX
by the field as its type reads it, that of EXT by whether it saturates. -/
theorem scalarMoveAndBitFieldResults : Obligations.ScalarMoveAndBitFieldResults := by
  refine ⟨fun f => ⟨?li, ?lih, ?addpc⟩, fun f => ⟨?sel, ?lea, ?vwid, ?clz, ?ctz, ?popc, ?bswap, ?bfx, ?bfi, ?ext⟩⟩
  case sel => exact writesScalar_of_doneS (fun _ => rfl) (selBody_eq f)
  case popc => exact writesScalar_of_doneS (fun _ => rfl) (popcBody_eq f)
  case bfx => exact writesScalar_of_doneS (fun _ => rfl) (bfxBody_eq f)
  case ext => exact writesScalar_of_doneS (fun _ => rfl) (extBody_eq f)
  case li | lih | addpc | lea | vwid | clz | ctz | bswap | bfi => exact writesScalar_of_doneS (fun _ => rfl) fun _ _ => rfl

end Sys2Proof.Machine
end

section
/-! SUPPORT. The results of the element-wise vector instructions (R155-R158, R162-R164). -/

namespace Sys2Proof.Machine

/-! ## Completion with elements -/

/-- An instruction whose effect is done with elements completes with them. -/
theorem writesElements_of_doneElems {i : Instr} {body : State → Eff → Res} {f : FmtR} {t : State → Nat} {g : State → Nat → Nat × Word}
    (h : ∀ s, exec i s = meaning i none body s) (hb : ∀ s e, body s e = doneElems s e f (t s) (g s)) : WritesElements i f t g :=
  completes_of_done h hb

/-- An instruction whose results come as a reply, that of the divider among them (R163), waits for it with its effect done. -/
theorem exec_replies {i : Instr} {w : Wait} {body : State → Eff → Res} {s s1 s2 : State} {e e2 : Eff} (hr : Ready i s s1 e)
    (hi : exec i s = meaning i (some w) body s) (hb : body s1 e = .done s2 e2) :
    exec i s = .next (s2.finish (some w) s.thread.pts e2) :=
  hi.trans (meaning_done hr hb)

/-! ## Operations on one, two and three sources -/

section
variable (s : State) (e : Eff) (f : FmtR)

theorem vec1_eq (op : Nat → Nat → Nat × Word) :
    vec1 s e f op = doneElems s e f (s.tyOf f) fun j => op (s.tyOf f) (elem (s.tyOf f) (s.rv (s.tyOf f) f.a) j) := rfl

theorem vec2_eq (op : Nat → Nat → Nat → Nat × Word) :
    vec2 s e f op = doneElems s e f (s.tyOf f) fun j =>
      op (s.tyOf f) (elem (s.tyOf f) (s.rv (s.tyOf f) f.a) j) (elem (s.tyOf f) (s.rv (s.tyOf f) f.b) j) := rfl

theorem vec3_eq (op : Nat → Nat → Nat → Nat → Nat × Word) :
    vec3 s e f op = doneElems s e f (s.tyOf f) fun j =>
      op (s.tyOf f) (elem (s.tyOf f) (s.rv (s.tyOf f) f.a) j) (elem (s.tyOf f) (s.rv (s.tyOf f) f.b) j)
        (elem (s.tyOf f) (s.rv (s.tyOf f) f.c) j) := rfl

end

/-- Settles O8: each effect writes the elements of its operation on one, two or three sources, VSEL those that its predicate selects, and
the divider replies with those of VDIV and VSQRT. -/
theorem vectorElementResults : Obligations.VectorElementResults := by
  intro f
  refine ⟨?vadd, ?vsub, ?vmul, ?vfma, ?vmin, ?vmax, ?vabs, ?vand, ?vor, ?vxor, ?vshl, ?vshr, ?vsar, ?vsel, ?vclamp,
    fun s s1 e hr => ?vdiv, fun s s1 e hr => ?vsqrt⟩
  case vabs => exact writesElements_of_doneElems (fun _ => rfl) fun s e => vec1_eq s e f _
  case vadd | vsub | vmul | vmin | vmax | vand | vor | vxor | vshl | vshr | vsar =>
    exact writesElements_of_doneElems (fun _ => rfl) fun s e => vec2_eq s e f _
  case vfma | vclamp => exact writesElements_of_doneElems (fun _ => rfl) fun s e => vec3_eq s e f _
  case vsel => exact writesElements_of_doneElems (fun _ => rfl) fun _ _ => rfl
  case vdiv => exact exec_replies hr rfl (vec2_eq s1 e f _)
  case vsqrt => exact exec_replies hr rfl (vec1_eq s1 e f _)

end Sys2Proof.Machine
end

section
/-! SUPPORT. Instructions that act on a tile that no accepted operation has locked, and the status of tiles and weight slots (R179, R181,
R192-R194). -/

namespace Sys2Proof.Machine

/-- An element of a tile made of a list of them. -/
theorem tileGet_tileOf {xs : List Nat} {i : Nat} (hlen : xs.length ≤ 1024) (hi : i < 1024) : tileGet (tileOf xs) i = xs.getD i 0 % 2 ^ 32 := by
  rw [tileGet, tileOf, toNat_ofNat_of_lt_two_pow (packLanes_lt 32 xs) (by omega), Nat.mod_eq_of_lt hi, packLanes_value]

theorem tileGet_lt (t : BitVec 32768) (i : Nat) : tileGet t i < 2 ^ 32 := Nat.mod_lt _ (by decide)

theorem elem_f32_lt (x : VReg) (k : Nat) : elem 0x12 x k < 2 ^ 32 := Nat.mod_lt _ (by decide)

section
variable {f : FmtR} {s : State}

theorem mzeroBody_unlocked (h : (s.core s.myCore).pending (tileNo f.d) = 0) (e : Eff) :
    mzeroBody f s e = .done (s.setCore s.myCore ((s.core s.myCore).setTile (tileNo f.d) 0 (tagOf f.ty.toNat))) e := by
  simp [mzeroBody, h]

/-- MRD of a tile whose tag is its TY (R193). -/
theorem mrdBody_unlocked (h : (s.core s.myCore).pending (tileNo f.a) = 0)
    (htag : (s.core s.myCore).tags.getLsbD (tileNo f.a) = tagOf f.ty.toNat) (e : Eff) :
    mrdBody f s e = doneElems s e f 0x12 fun k => (tileGet ((s.core s.myCore).tile (tileNo f.a)) (s.tileRow f + k), 0) := by
  simp [mrdBody, h, htag]

/-- Element `i` of the tile that MWR leaves (R193): the one of A that falls on it, where it is active, or what the tile held. -/
def State.mwrElem (s : State) (f : FmtR) (i : Nat) : Nat :=
  let k := (i + 1024 - s.tileRow f) % 1024
  if k < s.part.vw / 32 ∧ s.active f.pg 0x12 k then elem 0x12 (s.rv 0x12 f.a) k else tileGet ((s.core s.myCore).tile (tileNo f.d)) i

theorem State.mwrElem_lt (s : State) (f : FmtR) (i : Nat) : s.mwrElem f i < 2 ^ 32 := by
  unfold State.mwrElem
  dsimp only
  split
  · exact elem_f32_lt ..
  · exact tileGet_lt ..

theorem mwrBody_unlocked (h : (s.core s.myCore).pending (tileNo f.d) = 0)
    (htag : (s.core s.myCore).tags.getLsbD (tileNo f.d) = tagOf f.ty.toNat) (e : Eff) :
    mwrBody f s e = .done (s.setCore s.myCore ((s.core s.myCore).setTile (tileNo f.d) (tileOf ((List.range 1024).map (s.mwrElem f)))
      (tagOf f.ty.toNat))) e := by
  simp only [mwrBody, h, htag, bne_self_eq_false, Bool.false_eq_true, if_false]
  rfl

theorem tileGet_mwr (s : State) (f : FmtR) {i : Nat} (hi : i < 1024) :
    tileGet (tileOf ((List.range 1024).map (s.mwrElem f))) i = s.mwrElem f i := by
  rw [tileGet_tileOf (by simp) hi]
  rw [List.getD_eq_getElem?_getD, List.getElem?_map, List.getElem?_range hi]
  exact Nat.mod_eq_of_lt (s.mwrElem_lt f i)

end

/-- Settles O19: on an unlocked tile each effect is the completion of its row, the tile that MWR leaves element by element. -/
theorem tileInstructionsComplete : Obligations.TileInstructionsComplete := by
  intro f
  refine ⟨fun s s1 e hr h => exec_done hr rfl (mzeroBody_unlocked h e), ?mrd, ?mwr, ?mstat, ?mstatW⟩
  case mrd =>
    intro s s1 e c t hr h htag
    exact exec_done hr rfl (mrdBody_unlocked h htag e)
  case mwr =>
    intro s s1 e c t hr h htag
    exact ⟨_, exec_done hr rfl (mwrBody_unlocked h htag e), fun i hi => tileGet_mwr s1 f hi⟩
  case mstat | mstatW => exact writesScalar_of_doneS (fun _ => rfl) fun _ _ => rfl

end Sys2Proof.Machine
end

section
/-! SUPPORT. The acceptance of unit operations (R180, R186, R189, R190, R191, R195). -/

namespace Sys2Proof.Machine

/-- An instruction whose effect is the acceptance of a unit operation waits for the unit with the operation last in its queue (R180). -/
theorem exec_accepts {i : Instr} {body : State → Eff → Res} {s s1 : State} {e : Eff} {k : UnitKind} (hr : Ready i s s1 e)
    (hi : exec i s = meaning i none body s) (hb : body s1 e = acceptUnit s1 e k) :
    let x := s1.core s1.myCore
    let op : UnitOp := { num := x.mnext + 1, slot := s1.mySlot, pts := s1.thread.pts, conds := x.fenced 3, eff := e, kind := k }
    exec i s = .next ((s1.setCore s1.myCore (Core.lockTile { x with mnext := x.mnext + 1, mq := x.mq ++ [op] } k true)).waiting s.thread.pts .matrix) :=
  hi.trans (meaning_sent hr hb)

/-- A valid plat of two or more dimensions and a type that its instruction takes passes (R189). -/
theorem State.plat2_ok {s : State} {p1 : Nat} {l : Line} {ok : Nat → Bool} (hl : s.platEntry s.myCore p1 = some l)
    (hrank : (platOf l).rank ≠ 1) (hok : ok (platOf l).ty = true) : s.plat2 p1 ok = .ok l := by
  simp [State.plat2, hl, hrank, hok]

section
variable {f : FmtP} {s : State} {l : Line} (hl : s.platEntry s.myCore f.p1.toNat = some l) (hrank : (platOf l).rank ≠ 1) (e : Eff)
include hl hrank

/-- WBLD of a type that a slot holds, in a scaled slot from the start of a block (R190). -/
theorem wbldBody_accepts (hty : slotFmt (platOf l).ty ≠ 0) (horg : (platOf l).block = 8 → (origin2 (s.rs f.a)).1 % 8 = 0) :
    wbldBody f s e =
      acceptUnit s e (.wbld f.d (s.rs f.a) f.p1.toNat l (f.imm.toNat % 16) (f.imm.toNat / 16 % 4) (f.imm.toNat / 64 % 4 + 1)) := by
  rw [wbldBody, State.plat2_ok hl hrank (by simpa using hty), Chk.res_ok]
  exact if_neg fun h => h.2 (horg h.1)

theorem mloadBody_accepts (hty : (platOf l).ty = 0x12 ∨ (platOf l).ty = 0x03) :
    mloadBody f s e = acceptUnit s e (.mload (tileNo f.d) (s.rs f.a) l) := by
  rw [mloadBody, State.plat2_ok hl hrank (by simpa using hty), Chk.res_ok]

/-- MDRAIN of the plat's own type, its operand registers read where it quantizes (R195, R196). -/
theorem mdrainBody_accepts (hty : (platOf l).ty = f.ty.toNat) :
    let r := fun i : Nat => if f.ty = 1 ∨ f.ty = 5 then s.rv 0x03 (BitVec.ofNat 8 (opName f.b + i)) else 0
    mdrainBody f s e = acceptUnit s e (.mdrain (tileNo f.d) f.ty.toNat (s.rs f.a) l (r 0) (r 1) (r 2) (r 3) (f.imm.extractLsb' 0 8)) := by
  have hquant : (f.ty.toNat = 1 ∨ f.ty.toNat = 5) = (f.ty = 1 ∨ f.ty = 5) := by simp [← BitVec.toNat_inj]
  simp only [mdrainBody, State.plat2_ok (ok := fun x => x == f.ty.toNat) hl hrank (by simpa using hty), Chk.res_ok, hquant]

end

/-- Settles O20: MMA and WBINV are accepted as they are, the plat forms by the plat that they name. -/
theorem unitOperationsAreAcceptedInOrder : Obligations.UnitOperationsAreAcceptedInOrder := by
  intro s s1 e accepted
  refine ⟨fun f hr => exec_accepts hr rfl rfl, fun f => ⟨fun hr => exec_accepts hr rfl rfl, fun l hl hrank => ?_⟩⟩
  refine ⟨?scaled, ?plain, ?mload, ?mdrain⟩
  case scaled => exact fun hty _ horg hr => exec_accepts hr rfl (wbldBody_accepts hl hrank e hty fun _ => horg)
  case plain => exact fun hty hblock hr => exec_accepts hr rfl (wbldBody_accepts hl hrank e hty fun h => absurd h hblock)
  case mload => exact fun hty hr => exec_accepts hr rfl (mloadBody_accepts hl hrank e hty)
  case mdrain => exact fun hty hr => exec_accepts hr rfl (mdrainBody_accepts hl hrank e hty)

end Sys2Proof.Machine
end

section
/-! SUPPORT. The matrix unit's operation as it begins, goes on and completes (R180, R182, R187, R188, R190-R192, R195-R197). -/

namespace Sys2Proof.Machine

/-! ## A core set twice -/

/-- The later of two entries set under one number stands. -/
theorem aset_aset_self {α : Type} (l : List (Nat × α)) (k : Nat) (v w : α) : aset (aset l k v) k w = aset l k w := by
  induction l with
  | nil => simp [aset]
  | cons x l ih =>
    obtain ⟨j, y⟩ := x
    by_cases hlt : k < j
    · simp [aset, hlt]
    · by_cases heq : k = j
      · simp [aset, heq]
      · simp [aset, hlt, heq, ih]

@[simp] theorem State.setCore_setCore_self (s : State) (c : Nat) (x y : Core) : (s.setCore c x).setCore c y = s.setCore c y := by
  simp [State.setCore, aset_aset_self]

theorem State.setCore_unitGoes (s : State) (c : Nat) (x : Core) (op : UnitOp) :
    (s.setCore c x).unitGoes c op = s.setCore c { x with mrun := some op } := by
  simp [State.unitGoes]

/-! ## MATRIX_OP_BEGIN -/

/-- MMA's checks of its slot and of its tile's tag (R183, R188). -/
theorem State.mmaJudge_mma {c : Nat} {op : UnitOp} {t sl p ty : Nat} {a sc : BitVec 16384} {m : BitVec 6} (s : State)
    (hk : op.kind = .mma t a sc sl p ty m) :
    s.mmaJudge c op = if ((s.core c).wslot sl).accepted ty p = false then s.unitFault c op (flt .tileType 7)
      else if m.getLsbD 3 = false ∧ (s.core c).tags.getLsbD t ≠ (ty == 0x01) then s.unitFault c op (flt .tileType 1) else s := by
  simp [State.mmaJudge, hk]

/-- An operation as it begins, after what it waited for (R226). -/
def UnitOp.begun (op : UnitOp) (s : State) : UnitOp := { op with pts := s.afterConds op.pts op.conds }

/-- The state with the operation in the unit and the ones behind it in the queue. -/
def State.unitBegun (s : State) (c : Nat) (op : UnitOp) (ops : List UnitOp) : State :=
  s.setCore c { s.core c with mq := ops, mrun := some (op.begun s) }

section
variable {c : Nat} {s : State} {op : UnitOp} {ops : List UnitOp}
  (hrun : (s.core c).mrun = none) (hq : (s.core c).mq = op :: ops) (hconds : s.condsDone op.conds = true)
include hrun hq hconds

/-- One that is neither MMA nor MDRAIN has no check to pass as it begins. -/
theorem matrixOpBegin_unchecked (hmma : ∀ t a sc sl p ty m, op.kind ≠ .mma t a sc sl p ty m)
    (hdrain : ∀ t ty o l r1 r2 r3 r4 z, op.kind ≠ .mdrain t ty o l r1 r2 r3 r4 z) :
    exec (.matrixOpBegin c) s = .next (s.unitBegun c op ops) := by
  simp only [exec, execMatrixOpBegin, answer, hrun, hq, hconds, Bool.not_true, Bool.false_eq_true, if_false]
  rfl

theorem matrixOpBegin_mma {t sl p ty : Nat} {a sc : BitVec 16384} {m : BitVec 6} (hk : op.kind = .mma t a sc sl p ty m) :
    exec (.matrixOpBegin c) s = .next (if ((s.core c).wslot sl).reload then s.unitBegun c op ops
      else (s.unitBegun c op ops).mmaJudge c (op.begun s)) := by
  simp only [exec, execMatrixOpBegin, answer, hrun, hq, hconds, hk, Bool.not_true, Bool.false_eq_true, if_false]
  simp [State.unitBegun, UnitOp.begun, hk]

/-- The checks of an MMA as it begins look at the slot and the tag as they stand. -/
theorem matrixOpBegin_mma_loaded {t sl p ty : Nat} {a sc : BitVec 16384} {m : BitVec 6} (hk : op.kind = .mma t a sc sl p ty m)
    (hw : ((s.core c).wslot sl).reload = false) :
    exec (.matrixOpBegin c) s = .next (if ((s.core c).wslot sl).accepted ty p = false
      then (s.unitBegun c op ops).unitFault c (op.begun s) (flt .tileType 7)
      else if m.getLsbD 3 = false ∧ (s.core c).tags.getLsbD t ≠ (ty == 0x01)
      then (s.unitBegun c op ops).unitFault c (op.begun s) (flt .tileType 1) else s.unitBegun c op ops) := by
  have hcore : (s.unitBegun c op ops).core c = { s.core c with mq := ops, mrun := some (op.begun s) } := State.core_setCore_self ..
  rw [matrixOpBegin_mma hrun hq hconds hk, hw, if_neg (by simp), State.mmaJudge_mma (op := op.begun s) _ hk, hcore]
  rfl

theorem matrixOpBegin_mma_reload {t sl p ty : Nat} {a sc : BitVec 16384} {m : BitVec 6} (hk : op.kind = .mma t a sc sl p ty m)
    (hw : ((s.core c).wslot sl).reload = true) : exec (.matrixOpBegin c) s = .next (s.unitBegun c op ops) := by
  rw [matrixOpBegin_mma hrun hq hconds hk, if_pos hw]

/-- MDRAIN's check of its tile's tag (R195). -/
theorem matrixOpBegin_mdrain {t ty : Nat} {o : Word} {l : Line} {r1 r2 r3 r4 : VReg} {z : BitVec 8}
    (hk : op.kind = .mdrain t ty o l r1 r2 r3 r4 z) :
    exec (.matrixOpBegin c) s = .next (if (s.core c).tags.getLsbD t ≠ (ty == 0x03 || ty == 0x01 || ty == 0x05)
      then (s.unitBegun c op ops).unitFault c (op.begun s) (flt .tileType 1) else s.unitBegun c op ops) := by
  simp only [exec, execMatrixOpBegin, answer, hrun, hq, hconds, hk, Bool.not_true, Bool.false_eq_true, if_false, bne_iff_ne]
  simp only [State.unitBegun, UnitOp.begun, hk]

end

/-! ## Columns read (R182, R190) -/

/-- An operation that has read some more. -/
def UnitOp.read (op : UnitOp) (xs scs : List Nat) (ts : Nat) : UnitOp :=
  { op with got := op.got ++ xs, scs := op.scs ++ scs, mark := max op.mark ts }

/-- The column of `n` panels that an operation reads next. -/
def UnitOp.column (op : UnitOp) (l : Line) (n : Nat) : Nat := op.got.length / (n * unitK (platOf l).ty)

theorem State.readColumn_ok {s s2 : State} {c n ts : Nat} {op : UnitOp} {l : Line} {org : Word} {xs scs : List Nat}
    (h : s.platBoth c op.slot (platOf l) op.pts (panelColumn (platOf l) (origin2 org).1 (origin2 org).2 n (op.column l n)) = .ok (s2, xs, scs, ts)) :
    s.readColumn c op l org n = .ok (s2, op.read xs scs ts, op.column l n) := by
  unfold State.readColumn
  exact congrArg (Chk.bind · _) h

/-! ## MATRIX_OP_COMPLETION -/

section
variable (x : Core) (w : WSlot) (mask : BitVec 16)

theorem Core.wslot_setWslot_self {n : Nat} (h : n < 16) : (x.setWslot n w).wslot n = w := by
  simp [Core.wslot, Core.setWslot, h]

theorem Core.wslot_setWslot_ne {i n : Nat} (h : i ≠ n) : (x.setWslot n w).wslot i = x.wslot i := by
  simp [Core.wslot, Core.setWslot, Ne.symm h]

/-- The core with `w` in those of the weight slots `is` that a mask names, as WBINV makes them invalid (R191). -/
def Core.setWslots (is : List Nat) : Core := is.foldl (fun x i => if mask.getLsbD i then x.setWslot i w else x) x

theorem Core.setWslots_cons (j : Nat) (js : List Nat) :
    x.setWslots w mask (j :: js) = (if mask.getLsbD j then x.setWslot j w else x).setWslots w mask js := rfl

theorem Core.wslot_setWslots (is : List Nat) {i : Nat} (hi : i < 16) :
    (x.setWslots w mask is).wslot i = if i ∈ is ∧ mask.getLsbD i then w else x.wslot i := by
  induction is generalizing x with
  | nil => simp [Core.setWslots]
  | cons j js ih =>
    rw [Core.setWslots_cons, ih]
    by_cases hij : i = j
    · subst hij
      cases mask.getLsbD i <;> simp [Core.wslot_setWslot_self _ _ hi]
    · cases mask.getLsbD j <;> simp [Core.wslot_setWslot_ne _ _ hij, hij]

/-- Nothing else of the core changes. -/
theorem Core.setWslots_rest (is : List Nat) : x.setWslots w mask is = { x with wslots := (x.setWslots w mask is).wslots } := by
  induction is generalizing x with
  | nil => rfl
  | cons j js ih =>
    rw [Core.setWslots_cons, ih]
    cases mask.getLsbD j <;> rfl

end

section
variable {c : Nat} {s : State} {op : UnitOp} (hrun : (s.core c).mrun = some op)
include hrun

/-- An MMA whose slot is to be reloaded reads a column, and after the last judges the slot made of them (R182, R188). -/
theorem matrixOpCompletion_reload {t sl p ty ts : Nat} {a sc : BitVec 16384} {m : BitVec 6} {s2 : State} {xs scs : List Nat}
    (hk : op.kind = .mma t a sc sl p ty m) (hw : ((s.core c).wslot sl).reload = true)
    (h : let w := (s.core c).wslot sl
      s.platBoth c op.slot (platOf w.plat) op.pts
        (panelColumn (platOf w.plat) (origin2 w.origin).1 (origin2 w.origin).2 w.count (op.column w.plat w.count)) = .ok (s2, xs, scs, ts)) :
    let w := (s.core c).wslot sl
    let op2 := op.read xs scs ts
    let op3 : UnitOp := { op2 with got := [], scs := [] }
    exec (.matrixOpCompletion c) s = .next (if op.column w.plat w.count < 31 then s2.unitGoes c op2
      else ((s2.setCore c ((s2.core c).setWslot sl (loadedSlot w.plat w.platNo w.origin w.first w.count op2.got op2.scs).1)).unitGoes c op3).mmaJudge
        c op3) := by
  simp only [exec, execMatrixOpCompletion, answer, hrun, hk, hw, if_true, State.readColumn_ok h]

theorem matrixOpCompletion_mma {t sl p ty : Nat} {a sc : BitVec 16384} {m : BitVec 6}
    (hk : op.kind = .mma t a sc sl p ty m) (hw : ((s.core c).wslot sl).reload = false) :
    let r := mmaTile ((s.core c).tile t) a.toNat sc.toNat ((s.core c).wslot sl) p ty m
    exec (.matrixOpCompletion c) s = .next ((s.setCore c (((s.core c).setTile t r.1 (ty == 0x01)).count 9 op.slot)).unitDone c op
      { op.eff with sticky := op.eff.sticky ||| r.2, pts := max op.eff.pts op.mark }) := by
  simp only [exec, execMatrixOpCompletion, answer, hrun, hk, hw, Bool.false_eq_true, if_false]

theorem matrixOpCompletion_wbinv {mask : BitVec 16} (hk : op.kind = .wbinv mask) :
    exec (.matrixOpCompletion c) s = .next
      ((s.setCore c ((s.core c).setWslots {} mask (List.range 16))).unitDone c op op.eff) := by
  simp only [exec, execMatrixOpCompletion, answer, hrun, hk]
  rfl

theorem matrixOpCompletion_wbld {d : BitVec 8} {org : Word} {no sl f n ts : Nat} {l : Line} {s2 : State} {xs scs : List Nat}
    (hk : op.kind = .wbld d org no l sl f n)
    (h : s.platBoth c op.slot (platOf l) op.pts (panelColumn (platOf l) (origin2 org).1 (origin2 org).2 n (op.column l n)) = .ok (s2, xs, scs, ts)) :
    let op2 := op.read xs scs ts
    let w := loadedSlot l no org f n op2.got op2.scs
    exec (.matrixOpCompletion c) s = .next (if op.column l n < 31 then s2.unitGoes c op2
      else (s2.setCore c ((s2.core c).setWslot sl w.1)).unitDone c op2
        { op.eff with writes := op.eff.writes ++ wrS d (BitVec.ofNat 64 w.2), pts := max op.eff.pts op2.mark }) := by
  simp only [exec, execMatrixOpCompletion, answer, hrun, hk, State.readColumn_ok h]
  rfl

theorem matrixOpCompletion_mload {t ts : Nat} {org : Word} {l : Line} {s2 : State} {xs : List Nat} (hk : op.kind = .mload t org l)
    (h : s.platReads c op.slot (platOf l) op.pts
      ((List.range 32).map fun n => [(origin2 org).1 + n, (origin2 org).2 + op.got.length / 32, 0, 0]) = .ok (s2, xs, ts)) :
    let op2 : UnitOp := { op with got := op.got ++ xs, mark := max op.mark ts }
    exec (.matrixOpCompletion c) s = .next (if op.got.length / 32 < 31 then s2.unitGoes c op2
      else (s2.setCore c ((s2.core c).setTile t (tileOf op2.got) ((platOf l).ty == 0x03))).unitDone c op2
        { op.eff with pts := max op.eff.pts op2.mark }) := by
  simp only [exec, execMatrixOpCompletion, answer, hrun, hk, h]

/-- The line that an MDRAIN writes next, as the environment picks it (R197). -/
def State.drainPick (s : State) (ls : List (List UnitWrite)) : Nat := s.env.pick.headD 0 % (if ls.isEmpty then 1 else ls.length)

/-- The state with the greatest write timestamp of a core's drains raised to `ts` (R226). -/
def State.drainMarked (s : State) (c ts : Nat) : State := s.setCore c { s.core c with mmark := max (s.core c).mmark ts }

/-- The state with the core's fences told that a drain has completed (R226). -/
def State.drainFenced (s : State) (c : Nat) (op : UnitOp) : State :=
  s.setCore c ((s.core c).noteFence (fun x => match x with
    | .matrix c' n => c' == c && decide (op.num ≤ n)
    | _ => false) op.mark)

theorem matrixOpCompletion_mdrain {t ty : Nat} {org : Word} {l : Line} {r1 r2 r3 r4 : VReg} {z : BitVec 8} {s2 : State}
    {ls : List (List UnitWrite)} {ys : List (Nat × Word)} (hk : op.kind = .mdrain t ty org l r1 r2 r3 r4 z)
    (hys : drained32 ((s.core c).tile t) ty r1 r2 r3 r4 z = ys) (h : s.drainLines c op (platOf l) org ys = .ok (s2, ls))
    (hready : ∀ x ∈ (ls[s.drainPick ls]?).getD [], s.placeReady (devOf c) x.loc = true) :
    let w := s2.popPick.writeUnits (platOf l) op.pts ((ls[s.drainPick ls]?).getD [])
    let op2 : UnitOp := { op with left := some (dropAt ls (s.drainPick ls)), mark := max op.mark w.2 }
    let s3 := w.1.drainMarked c w.2
    exec (.matrixOpCompletion c) s = .next (if 1 < ls.length then s3.unitGoes c op2
      else (s3.drainFenced c op2).unitDone c op2
        { op.eff with sticky := op.eff.sticky ||| orFlags (ys.map (·.2)), pts := max op.eff.pts op2.mark }) := by
  have hall : ¬(!((ls[s.drainPick ls]?).getD []).all fun x => s.placeReady (devOf c) x.loc) = true := by simpa using hready
  simp only [exec, execMatrixOpCompletion, answer, hrun, hk, hys, h]
  exact congrArg _ (if_neg hall)

end

/-- Settles O21, each operation by the case of MATRIX_OP_BEGIN or MATRIX_OP_COMPLETION that its kind selects. -/
theorem matrixOperationsComplete : Obligations.MatrixOperationsComplete := by
  refine fun c s op => ⟨fun hrun ops hq hconds => ⟨?begins, ?judged, ?putOff, ?drain⟩, fun hrun => ⟨?reload, ?mma, ?wbinv, ?wbld, ?mload, ?mdrain⟩⟩
  case begins => exact matrixOpBegin_unchecked hrun hq hconds
  case judged => exact fun t a sc sl p ty m hk hw => matrixOpBegin_mma_loaded hrun hq hconds hk hw
  case putOff => exact fun t a sc sl p ty m hk hw => matrixOpBegin_mma_reload hrun hq hconds hk hw
  case drain => exact fun t ty o l r1 r2 r3 r4 z hk => matrixOpBegin_mdrain hrun hq hconds hk
  case reload =>
    intro t a sc sl p ty m s2 xs scs ts hk w hw col h
    have hexec := matrixOpCompletion_reload hrun hk hw h
    refine ⟨fun hcol => hexec.trans (congrArg _ (if_pos hcol)), fun hcol => hexec.trans (congrArg _ ((if_neg (Nat.not_lt.mpr hcol)).trans ?_))⟩
    rw [State.setCore_unitGoes]
    exact State.mmaJudge_mma _ hk
  case mma => exact fun t a sc sl p ty m hk hw => matrixOpCompletion_mma hrun hk hw
  case wbinv =>
    intro mask hk
    have hexec := matrixOpCompletion_wbinv hrun hk
    refine ⟨(s.core c).setWslots {} mask (List.range 16), hexec, fun i hi => ?_, Core.setWslots_rest _ _ _ _⟩
    rw [Core.wslot_setWslots _ _ _ _ hi]
    exact if_congr (and_iff_right (List.mem_range.mpr hi)) rfl rfl
  case wbld => exact fun d org no l sl f n s2 xs scs ts hk h => matrixOpCompletion_wbld hrun hk h
  case mload => exact fun t org l s2 xs ts hk h => matrixOpCompletion_mload hrun hk h
  case mdrain => exact fun t ty org l r1 r2 r3 r4 z s2 ls hk h hready => matrixOpCompletion_mdrain hrun hk rfl h hready

end Sys2Proof.Machine
end

section
/-! SUPPORT. The timestamps and the bytes that a read or a write at a home leaves (R202, R203, R204, R274). -/

namespace Sys2Proof.Machine

/-! ## Folds set and read -/

@[simp] theorem State.fold_setFold_self (s : State) (f : Nat) (x : Fold) : (s.setFold f x).fold f = x := by
  simp [State.fold, State.setFold]

theorem State.fold_setFold_ne (s : State) {f g : Nat} (x : Fold) (h : g ≠ f) : (s.setFold f x).fold g = s.fold g := by
  simp [State.fold, State.setFold, aget_aset_ne _ _ h]

/-! ## States that hold the same bytes -/

/-- Memory and every scratchpad hold the bytes that they held. -/
structure State.SameBytes (s t : State) : Prop where
  mem : t.mem = s.mem
  scr : ∀ c, (t.core c).scr = (s.core c).scr

namespace State.SameBytes

variable {s t u : State}

theorem of_cores (hm : t.mem = s.mem) (h : t.cores = s.cores) : SameBytes s t := ⟨hm, fun c => by simp [State.core, h]⟩

theorem refl (s : State) : SameBytes s s := of_cores rfl rfl

theorem trans (h1 : SameBytes s t) (h2 : SameBytes t u) : SameBytes s u := ⟨h2.mem.trans h1.mem, fun c => (h2.scr c).trans (h1.scr c)⟩

theorem setCore {c : Nat} {x : Core} (h : x.scr = (s.core c).scr) : SameBytes s (s.setCore c x) := by
  refine ⟨rfl, fun d => ?_⟩
  by_cases hd : d = c
  · subst hd; rw [State.core_setCore_self, h]
  · rw [State.core_setCore_ne _ _ hd]

theorem foldl {α : Type} {f : State → α → State} (h : ∀ s x, SameBytes s (f s x)) (l : List α) (s : State) : SameBytes s (l.foldl f s) := by
  induction l generalizing s with
  | nil => exact refl s
  | cons x l ih => exact (h s x).trans (ih _)

/-- A change outside a place on top of the same bytes is one outside that place. -/
theorem keepsOutside {l : Loc} {n : Nat} (h : SameBytes s t) (hk : KeepsOutside l n t u) : KeepsOutside l n s u :=
  ⟨fun a ha => (hk.1 a ha).trans (by rw [h.mem]), fun c a ha => (hk.2 c a ha).trans (by rw [h.scr])⟩

end State.SameBytes

theorem KeepsOutside.refl (l : Loc) (n : Nat) (s : State) : KeepsOutside l n s s := ⟨fun _ _ => rfl, fun _ _ _ => rfl⟩

/-! ## Skew events (R204, R361) -/

theorem Core.addFixed_scr (c : Core) (i n : Nat) : (c.addFixed i n).scr = c.scr := by
  unfold Core.addFixed
  split <;> rfl

theorem State.reportSkew_sameBytes (s : State) : SameBytes s s.reportSkew := .of_cores rfl rfl

theorem State.skewFold_sameBytes (s : State) (f : Nat) : SameBytes s (s.skewFold f) := by
  unfold State.skewFold
  refine .trans (.of_cores (State.setFold_mem ..) (State.setFold_cores ..)) (.trans (SameBytes.foldl ?_ ..) (State.reportSkew_sameBytes _))
  exact fun s c => .setCore (Core.addFixed_scr ..)

theorem State.countSkew_sameBytes (s : State) (l : Loc) (ts : Nat) : SameBytes s (s.countSkew l ts) := by
  unfold State.countSkew
  split
  · exact .refl s
  · cases l with
    | scr c off => exact .trans (.setCore (Core.addFixed_scr ..)) (State.reportSkew_sameBytes _)
    | mem pa => exact State.skewFold_sameBytes ..

/-- A skew event leaves the lines that slices hold. -/
theorem State.countSkew_lines (s : State) (l : Loc) (ts g : Nat) : ((s.countSkew l ts).fold g).lines = (s.fold g).lines := by
  unfold State.countSkew
  split
  · rfl
  · cases l with
    | scr c off => rfl
    | mem pa =>
      have hcores : ∀ (cs : List Nat) (u : State), (cs.foldl (fun s c => s.setCore c ((s.core c).addFixed 13 1)) u).fold g = u.fold g :=
        foldl_keeps (fun u : State => u.fold g) fun _ _ => rfl
      change (State.fold (List.foldl _ _ _) g).lines = _
      rw [hcores]
      by_cases h : g = homeFold (pa / 64)
      · subst h; rw [State.fold_setFold_self]
      · rw [State.fold_setFold_ne _ _ h]

/-! ## Lines of a slice (R198, R204) -/

/-- The line that an access of a full slice is for is not the one that gives way. -/
theorem Fold.aget_spill_lines (f : Fold) (ln : Nat) : aget (f.spill ln).lines ln = aget f.lines ln := by
  unfold Fold.spill
  split
  · rfl
  · split
    · next x hx => exact aget_adel_ne _ (Ne.symm (by simpa using List.find?_some hx))
    · rfl

theorem State.holdLine_cores (s : State) (pa wts rts : Nat) (alloc dirty : Bool) : (s.holdLine pa wts rts alloc dirty).cores = s.cores := by
  unfold State.holdLine
  dsimp only
  split
  · rfl
  · split
    · exact (State.setPresent_cores ..).1
    · rfl

theorem State.fold_setPresent (s : State) (ln : Nat) (b : Bool) (f : Nat) : (s.setPresent ln b).fold f = s.fold f := by
  unfold State.setPresent
  split <;> rfl

theorem State.tsAt_mem_held {s : State} {pa : Nat} {x : LineSt} (h : aget (s.fold (homeFold (pa / 64))).lines (pa / 64) = some x) :
    s.tsAt (.mem pa) = (x.wts, x.rts) := by
  simp [State.tsAt, h]

/-- A line that its slice held before, or that the access allocates, has the timestamps that the access gives it. -/
theorem State.tsAt_holdLine {s : State} {pa : Nat} {alloc : Bool} (wts rts : Nat) (dirty : Bool)
    (h : alloc = true ∨ (aget (s.fold (homeFold (pa / 64))).lines (pa / 64)).isSome = true) :
    (s.holdLine pa wts rts alloc dirty).tsAt (.mem pa) = (wts, rts) := by
  unfold State.holdLine
  dsimp only
  cases hl : aget (s.fold (homeFold (pa / 64))).lines (pa / 64) with
  | some x =>
    refine State.tsAt_mem_held (x := ⟨wts, rts, x.dirty || dirty⟩) ?_
    rw [State.fold_setFold_self]
    exact aget_aset_self ..
  | none =>
    obtain rfl : alloc = true := by simpa [hl] using h
    refine State.tsAt_mem_held (x := ⟨wts, rts, dirty⟩) ?_
    rw [if_pos rfl, State.fold_setPresent, State.fold_setFold_self, Fold.aget_spill_lines]
    exact aget_aset_self ..

/-! ## A page of a scratchpad (R198, R203) -/

theorem Core.pageTsOf_aset (c : Core) (p : Nat) (x : Nat × Nat) : Core.pageTsOf { c with pageTs := aset c.pageTs p x } p = x := by
  simp [Core.pageTsOf]

theorem Core.watchHit_keeps {γ : Type} (p : Core → γ) (hp : ∀ c k t, p (c.setSlot k t) = p c) (c : Core) (off n ts : Nat) :
    p (c.watchHit off n ts) = p c := by
  unfold Core.watchHit
  refine foldl_keeps p (fun b w => ?_) _ _
  split
  · exact hp ..
  · rfl

theorem Core.watchHit_scr (c : Core) (off n ts : Nat) : (c.watchHit off n ts).scr = c.scr := Core.watchHit_keeps Core.scr (fun _ _ _ => rfl) ..

theorem Core.watchHit_pageTsOf (c : Core) (off n ts p : Nat) : (c.watchHit off n ts).pageTsOf p = c.pageTsOf p :=
  Core.watchHit_keeps (Core.pageTsOf · p) (fun _ _ _ => rfl) ..

/-! ## The load rule and the store rule (R203) -/

theorem State.homeRead_sameBytes (s : State) (l : Loc) (ts lam : Nat) (alloc : Bool) : SameBytes s (s.homeRead l ts lam alloc).1 := by
  refine (s.countSkew_sameBytes l ts).trans ?_
  cases l with
  | scr k off => exact .setCore rfl
  | mem pa => exact .of_cores (State.holdLine_mem ..) (State.holdLine_cores ..)

theorem State.homeStamp_sameBytes (s : State) (l : Loc) (ts : Nat) (alloc : Bool) : SameBytes s (s.homeStamp l ts alloc).1 := by
  refine (s.countSkew_sameBytes l ts).trans ?_
  cases l with
  | scr k off => exact .setCore rfl
  | mem pa => exact .of_cores (State.holdLine_mem ..) (State.holdLine_cores ..)

/-- The lease that a read at a place gives; a scratchpad page gives none (R205). -/
def Loc.lease (l : Loc) (lam : Nat) : Nat :=
  match l with
  | .mem _ => lam
  | .scr .. => 0

section
variable {s : State} {l : Loc} {alloc : Bool}
  (held : ∀ pa, l = .mem pa → alloc = true ∨ (aget (s.fold (homeFold (pa / 64))).lines (pa / 64)).isSome = true)
include held

theorem State.tsAt_homeRead (ts lam : Nat) :
    (s.homeRead l ts lam alloc).1.tsAt l = ((s.tsAt l).1, max (s.tsAt l).2 (clampTs (s.homeGreatest l) ts + l.lease lam)) := by
  cases l with
  | scr k off =>
    change Core.pageTsOf (State.core (State.setCore _ k _) k) (off / 4096) = _
    rw [State.core_setCore_self, Core.pageTsOf_aset]
    rfl
  | mem pa => exact State.tsAt_holdLine _ _ _ (by rw [State.countSkew_lines]; exact held pa rfl)

theorem State.tsAt_homeStamp (ts : Nat) :
    (s.homeStamp l ts alloc).1.tsAt l = ((s.homeStamp l ts alloc).2, (s.homeStamp l ts alloc).2) := by
  cases l with
  | scr k off =>
    change Core.pageTsOf (State.core (State.setCore _ k _) k) (off / 4096) = _
    rw [State.core_setCore_self, Core.pageTsOf_aset]
    rfl
  | mem pa => exact State.tsAt_holdLine _ _ _ (by rw [State.countSkew_lines]; exact held pa rfl)

end

theorem State.tsAt_homePut (s : State) (l : Loc) (n v w : Nat) : (s.homePut l n v w).tsAt l = s.tsAt l := by
  cases l with
  | scr k off =>
    change Core.pageTsOf (State.core (State.setCore _ k _) k) (off / 4096) = _
    rw [State.core_setCore_self, Core.watchHit_pageTsOf]
    rfl
  | mem pa => rfl

/-! ## The bytes of a write (R136, R203) -/

theorem State.peek_homePut (s : State) (l : Loc) (n v w : Nat) : (s.homePut l n v w).peek l n = v % 2 ^ (8 * n) := by
  cases l with
  | scr k off =>
    change Memory.readNat (Core.scr (State.core (State.setCore _ k _) k)) off n = _
    rw [State.core_setCore_self, Core.watchHit_scr, Memory.readNat_writeNat]
  | mem pa => exact Memory.readNat_writeNat ..

theorem State.homePut_keepsOutside (s : State) (l : Loc) (n v w : Nat) : KeepsOutside l n s (s.homePut l n v w) := by
  cases l with
  | scr k off =>
    refine ⟨fun a _ => rfl, fun c a ha => ?_⟩
    change Memory.get (Core.scr (State.core (State.setCore _ k _) c)) a = _
    by_cases hc : c = k
    · subst hc
      rw [State.core_setCore_self, Core.watchHit_scr]
      exact Memory.get_writeNat_out _ _ _ _ _ (ha off rfl)
    · rw [State.core_setCore_ne _ _ hc]
  | mem pa => exact ⟨fun a ha => Memory.get_writeNat_out _ _ _ _ _ (ha pa rfl), fun _ _ _ => rfl⟩

/-- Settles O53: the timestamps by what the line or the page holds after the access, the bytes by what the write puts in place. -/
theorem homesOrderTheirAccesses : Obligations.HomesOrderTheirAccesses := by
  refine fun s l ts alloc => ⟨fun n v => ⟨s.homeWrite_ts l n v ts alloc, fun held => ?stored, ?bytes, ?outside⟩,
    fun lam => ⟨?wts, fun held => ?leased, ?loaded⟩⟩
  case stored => exact (State.tsAt_homePut ..).trans (State.tsAt_homeStamp held ts)
  case bytes => exact State.peek_homePut ..
  case outside => exact (State.homeStamp_sameBytes ..).keepsOutside (State.homePut_keepsOutside ..)
  case wts => cases l <;> rfl
  case leased => exact State.tsAt_homeRead held ts lam
  case loaded => exact (State.homeRead_sameBytes ..).keepsOutside (.refl ..)

end Sys2Proof.Machine
end

section
/-! SUPPORT. The effects of loads, stores and atomics whose places are accepted (R207-R214). -/

namespace Sys2Proof.Machine

/-- What follows a check that holds. -/
theorem Chk.res_of_ok {α : Type} {c : Chk α} {a : α} {g : α → Res} (h : c = .ok a) : c.res g = g a := by rw [h, Chk.res_ok]

/-- An aligned access is where its address is served (R207). -/
theorem State.access_aligned {s : State} {va n : Nat} {acc : Acc} (h : va % n = 0) : s.access va n acc = s.reach s.cur va n acc := by
  simp [State.access, h]

/-! ## Vector accesses (R209, R210, R211) -/

/-- LDV writes the units loaded where they are active, elsewhere 0 under `.z` and else the units of D. -/
theorem State.ldvValue_eq (s : State) (f : FmtR) (vals : List (Nat × Nat)) :
    let n := esize (s.tyOf f)
    s.ldvValue f vals = ofUnits n (s.part.vw / 8 / n) fun off =>
      if s.unitActive f off then unitBits (s.tyOf f) n ((aget vals off).getD 0)
      else if zBit f then 0 else (s.keepV f.d).toNat / 2 ^ (8 * off) % 2 ^ (8 * n) := by
  simp only [State.ldvValue, Nat.shiftRight_eq_div_pow]

/-- STV stores the unit at each offset of C. -/
theorem stvBody_eq (f : FmtR) (s : State) (e : Eff) :
    let n := esize (s.tyOf f)
    let v := fun off => unitBits (s.tyOf f) n ((s.rv (s.tyOf f) f.c).toNat / 2 ^ (8 * off))
    stvBody f s e = (s.unitPlaces (s.ea f n).toNat n .store (s.activeUnits f n)).res fun ls =>
      if s.deferNow = 3 then startVec s (.stv f) true n (hintOf f) ls (ls.map fun u => (u.1, v u.1)) e
      else .done (s.storeUnits n (hintOf f) v ls) e := by
  simp only [stvBody, Nat.shiftRight_eq_div_pow]

section
variable {f : FmtR} {s : State} {ls : List (Nat × Nat × Loc)} (e : Eff)

theorem ldvBody_whole (hd : s.deferNow ≠ 3)
    (h : s.unitPlaces (s.ea f (esize (s.tyOf f))).toNat (esize (s.tyOf f)) .load (s.activeUnits f (esize (s.tyOf f))) = .ok ls) :
    let r := s.loadUnits (esize (s.tyOf f)) (hintOf f) ls
    ldvBody f s e = .done r.1 (e.vector f.d (s.ldvValue f r.2)) :=
  (Chk.res_of_ok h).trans (if_neg hd)

theorem stvBody_whole (hd : s.deferNow ≠ 3)
    (h : s.unitPlaces (s.ea f (esize (s.tyOf f))).toNat (esize (s.tyOf f)) .store (s.activeUnits f (esize (s.tyOf f))) = .ok ls) :
    stvBody f s e = .done (s.storeUnits (esize (s.tyOf f)) (hintOf f) (fun off =>
      unitBits (s.tyOf f) (esize (s.tyOf f)) ((s.rv (s.tyOf f) f.c).toNat / 2 ^ (8 * off))) ls) e :=
  (stvBody_eq f s e).trans ((Chk.res_of_ok h).trans (if_neg hd))

theorem gthBody_whole (hd : s.deferNow ≠ 3) (h : s.gatherPlaces f .load = .ok ls) :
    let r := s.loadUnits (esize f.ty.toNat) (hintOf f) ls
    gthBody f s e = .done r.1 (e.vector f.d (s.gthValue f r.2)) :=
  (Chk.res_of_ok h).trans (if_neg hd)

theorem sctBody_whole (hd : s.deferNow ≠ 3) (h : s.gatherPlaces f .store = .ok ls) :
    sctBody f s e = .done (s.storeUnits (esize f.ty.toNat) (hintOf f) (elem f.ty.toNat (s.rv f.ty.toNat f.c)) ls) e :=
  (Chk.res_of_ok h).trans (if_neg hd)

end

/-- AMOV of 32 aligned bytes whose active elements are accepted (R214). -/
theorem amovBody_reached {f : FmtR} {s : State} {ls : List (Nat × Nat × Loc)} (e : Eff) (hal : (s.ea f (esize f.ty.toNat)).toNat % 32 = 0)
    (h : let t := f.ty.toNat; let n := esize t
      Chk.all (fun i => (s.reach s.cur ((s.ea f n).toNat + n * i) n .atomic).bind fun l => .ok (i, (s.ea f n).toNat + n * i, l))
        ((List.range (32 / n)).filter (s.active f.pg t)) = .ok ls) :
    let t := f.ty.toNat
    let n := esize t
    let r := s.rmwUnits n (hintOf f) (fun i old => amoNew (amoOp f) t old (elem t (s.rv t f.c) i)) ls
    amovBody f s e = .done r.1 (e.vector f.d (ofElems t ((List.range (32 / n)).map fun i =>
      if s.active f.pg t i then (aget r.2 i).getD 0 else elem t (s.keepV f.d) i))) :=
  (if_neg (by simp [hal])).trans (Chk.res_of_ok h)

/-- Settles O11: each effect is what follows the check of its places; a vector access is made whole, or is left to its units. -/
theorem loadsStoresAndAtomicsComplete : Obligations.LoadsStoresAndAtomicsComplete := by
  refine ⟨fun f s s1 e => ⟨fun l hr hal hl => ?ld, fun l hr hal hl => ?st, fun ls hr hd h => ?ldv, fun ls hr hd h => ?stv,
      fun ls hr hd h => ?gth, fun ls hr hd h => ?sct, fun ls hd => ⟨fun hr h => ?ldvUnits, fun hr h => ?stvUnits, fun hr h => ?gthUnits,
      fun hr h => ?sctUnits⟩⟩,
    fun f s s1 e => ⟨fun l hr hal hl => ?amo, fun l hr hal hl => ?cas, fun ls hr hal h => ?amov⟩⟩
  case ld | st | amo | cas => exact exec_replies hr rfl (Chk.res_of_ok ((State.access_aligned hal).trans hl))
  case ldv => exact exec_replies hr rfl ((ldvBody_whole e hd h).trans (by rw [State.ldvValue_eq]))
  case stv => exact exec_replies hr rfl (stvBody_whole e hd h)
  case gth => exact exec_replies hr rfl (gthBody_whole e hd h)
  case sct => exact exec_replies hr rfl (sctBody_whole e hd h)
  case ldvUnits | gthUnits | sctUnits => exact meaning_sent hr ((Chk.res_of_ok h).trans (if_pos hd))
  case stvUnits => exact meaning_sent hr ((stvBody_eq f s1 e).trans ((Chk.res_of_ok h).trans (if_pos hd)))
  case amov => exact exec_replies hr rfl (amovBody_reached e hal h)

end Sys2Proof.Machine
end

section
/-! SUPPORT. Accesses that are not aligned, or whose page does not permit them (R199-R201, R207, R214, R340-R343, R371). -/

namespace Sys2Proof.Machine

/-- What follows a check that fails. -/
theorem Chk.res_of_bad {α : Type} {c : Chk α} {x : FaultInfo} {g : α → Res} (h : c = .bad x) : c.res g = .fault x := by rw [h, Chk.res_bad]

/-- What follows a check that waits. -/
theorem Chk.res_of_wait {α : Type} {c : Chk α} {w : Wait} {g : α → Res} (h : c = .wait w) : c.res g = .park w := by rw [h, Chk.res_wait]

theorem State.access_misaligned {s : State} {va n : Nat} {acc : Acc} (h : va % n ≠ 0) : s.access va n acc = .bad (flt .align 0 acc.code va) := by
  simp [State.access, h]

/-! ## Places outside the window and the aperture (R199, R207) -/

/-- Where an access with its translation made is served: by its leaf, then by its way. -/
def State.leafPlace (s : State) (acc : Acc) (va : Nat) : Option Leaf → Chk Loc
  | none => .bad (flt .xlate 0 acc.code va)
  | some l =>
    match leafCheck l acc va with
    | some f => .bad f
    | none => s.memReady s.cur (l.pa va) (flt .prot 0 acc.code va)

theorem State.leafPlace_forbidden {s : State} {acc : Acc} {va : Nat} {l : Leaf} {f : FaultInfo} (h : leafCheck l acc va = some f) :
    s.leafPlace acc va (some l) = .bad f := by
  simp only [State.leafPlace, h]

section
variable {s : State} {c k va n : Nat} {acc : Acc} (hc : s.cur = .slot c k) (hout : va < apBase ∨ winBase + 2 ^ 22 ≤ va)
include hc hout

/-- An access of a slot to ordinary memory: its address canonical, then its translation, then its leaf. -/
theorem State.reach_outside : s.reach s.cur va n acc =
    if !canonical va then .bad (flt .xlate 0 acc.code va) else (s.translate s.cur va !acc.path).bind (s.leafPlace acc va) := by
  have hap : apBase < winBase := by decide
  rw [hc, State.reach, if_neg (by omega), if_neg (by omega), ← hc]
  rfl

theorem State.reach_uncanonical (h : canonical va = false) : s.reach s.cur va n acc = .bad (flt .xlate 0 acc.code va) := by
  rw [State.reach_outside hc hout, if_pos (by simp [h])]

variable (h : canonical va = true)
include h

theorem State.reach_untranslated (ht : s.translate s.cur va (!acc.path) = .ok none) :
    s.reach s.cur va n acc = .bad (flt .xlate 0 acc.code va) := by
  rw [State.reach_outside hc hout, if_neg (by simp [h]), ht]
  rfl

theorem State.reach_walked {w : Wait} (ht : s.translate s.cur va (!acc.path) = .wait w) : s.reach s.cur va n acc = .wait w := by
  rw [State.reach_outside hc hout, if_neg (by simp [h]), ht]
  rfl

theorem State.reach_forbidden {l : Leaf} {f : FaultInfo} (ht : s.translate s.cur va (!acc.path) = .ok (some l))
    (hf : leafCheck l acc va = some f) : s.reach s.cur va n acc = .bad f := by
  rw [State.reach_outside hc hout, if_neg (by simp [h]), ht]
  exact State.leafPlace_forbidden hf

end

/-! ## What a leaf forbids (R207, R341) -/

theorem leafCheck_mapRegion {l : Leaf} (acc : Acc) (va : Nat) (h : l.pte.getLsbD 5 = true) :
    leafCheck l acc va = some (flt .mapRegion 0 acc.code va) := by
  simp [leafCheck, h]

theorem leafCheck_prot {l : Leaf} {acc : Acc} (va : Nat) (hacc : acc = .load ∨ acc = .store ∨ acc = .atomic) (hm : l.pte.getLsbD 5 = false)
    (hs : l.pte.getLsbD 6 = false) (h : (acc = .load ∧ l.pte.getLsbD 2 = false) ∨ (acc ≠ .load ∧ l.pte.getLsbD 3 = false)) :
    leafCheck l acc va = some (flt .prot 0 acc.code va) := by
  obtain rfl | rfl | rfl := hacc <;> simp_all [leafCheck]

/-! ## Instructions of the thread path that access one place -/

/-- An instruction whose effect begins with the access of its one place. -/
def AccessesFirst (i : Instr) (acc : Acc) (va : State → Nat) (n : Nat) : Prop :=
  ∃ (w : Option Wait) (g : State → Eff → Loc → Res), ∀ s, exec i s = meaning i w (fun s e => (s.access (va s) n acc).res (g s e)) s

section
variable {i : Instr} {acc : Acc} {va : State → Nat} {n : Nat} {s s1 : State} {e : Eff} (hi : AccessesFirst i acc va n) (hr : Ready i s s1 e)
include hi hr

theorem exec_access_bad {x : FaultInfo} (h : s1.access (va s1) n acc = .bad x) : exec i s = .next (s.fail x) := by
  obtain ⟨w, g, hexec⟩ := hi
  exact (hexec s).trans (meaning_fault hr (Chk.res_of_bad h))

theorem exec_access_wait {x : Wait} (h : s1.access (va s1) n acc = .wait x) : exec i s = .next (s.parkOn x) := by
  obtain ⟨w, g, hexec⟩ := hi
  exact (hexec s).trans (meaning_park hr (Chk.res_of_wait h))

end

theorem accessesFirst_of_mem {f : FmtR} {p : Instr × Acc} (hp : p ∈ [(Instr.ld f, Acc.load), (.st f, .store), (.amo f, .atomic), (.cas f, .atomic)]) :
    AccessesFirst p.1 p.2 (fun s => (s.ea f (esize f.ty.toNat)).toNat) (esize f.ty.toNat)
      ∧ p.2.path = false ∧ (p.2 = .load ∨ p.2 = .store ∨ p.2 = .atomic) := by
  simp only [List.mem_cons, List.not_mem_nil, or_false] at hp
  obtain rfl | rfl | rfl | rfl := hp
  all_goals exact ⟨⟨_, _, fun _ => rfl⟩, rfl, by simp⟩

/-- A fault of alignment leaves no walk behind it. -/
theorem fail_align (s : State) (opnd acc va : Nat) : s.fail (flt .align opnd acc va) = s.raise (flt .align opnd acc va) :=
  fail_raise (by simp [flt]) (by simp [flt, FaultInfo.walked]) rfl

/-- A fault of an address that is not canonical leaves no walk behind it. -/
theorem fail_uncanonical {va : Nat} (s : State) (opnd acc : Nat) (hva : va < 2 ^ 64) (h : canonical va = false) :
    s.fail (flt .xlate opnd acc va) = s.raise (flt .xlate opnd acc va) := by
  have haddr : (BitVec.ofNat 64 va).toNat = va := Nat.mod_eq_of_lt hva
  exact fail_raise (by simp [flt]) (by simp [flt, FaultInfo.walked, -BitVec.toNat_ofNat, haddr, h]) rfl

/-- Settles O52: an access is judged by its alignment, then by its address, its translation and its leaf. -/
theorem memoryAccessesFaultWhereTheyMustNotGo : Obligations.MemoryAccessesFaultWhereTheyMustNotGo := by
  intro f s s1 e n a p hp hr
  obtain ⟨hi, hpath, hacc⟩ := accessesFirst_of_mem hp
  refine ⟨fun hal => ?align, fun hal c k hc hout => ?outside, fun hr hal => ?amov⟩
  case align => rw [exec_access_bad hi hr (State.access_misaligned hal), fail_align]
  case amov => exact (meaning_fault hr (if_pos (by simpa using hal))).trans (by rw [fail_align])
  case outside =>
    have hown : s1.translate s1.cur a (!p.2.path) = s1.translate s1.cur a true := by rw [hpath]; rfl
    have hreach : s1.access a n p.2 = s1.reach s1.cur a n p.2 := State.access_aligned hal
    refine ⟨fun h => ?uncanonical, fun h ht => ?untranslated, fun w h ht => ?walked, fun l h ht => ⟨fun hm => ?mapRegion, fun hm hs hperm => ?prot⟩⟩
    case uncanonical =>
      rw [exec_access_bad hi hr (hreach.trans (State.reach_uncanonical hc hout h)), fail_uncanonical s 0 _ (BitVec.isLt _) h]
    case untranslated => exact exec_access_bad hi hr (hreach.trans (State.reach_untranslated hc hout h (hown.trans ht)))
    case walked => exact exec_access_wait hi hr (hreach.trans (State.reach_walked hc hout h (hown.trans ht)))
    case mapRegion => exact exec_access_bad hi hr (hreach.trans (State.reach_forbidden hc hout h (hown.trans ht) (leafCheck_mapRegion p.2 a hm)))
    case prot => exact exec_access_bad hi hr (hreach.trans (State.reach_forbidden hc hout h (hown.trans ht) (leafCheck_prot a hacc hm hs hperm)))

end Sys2Proof.Machine
end

section
/-! SUPPORT. The binding and unbinding of streams and sibling queues (R215-R218). -/

namespace Sys2Proof.Machine

/-- The state with a stream bound to D of `f`, its base served at `l` (R215). -/
def State.streamBound (s : State) (f : FmtR) (kind : PortKind) (c : Nat) (l : Loc) : State :=
  let s2 := s.noteAccess (s.rs f.a).toNat l
  let s3 := s2.setCore c { s2.core c with bindNext := (s2.core c).bindNext + 1 }
  s3.setThread (s3.thread.bindReg (opName f.d) {
    kind := kind, base := s.rs f.a, stride := s.rs f.b, count := (s.rs f.c).toNat, ty := f.ty.toNat,
    hnt := f.mod.toNat / 2 % 4, pts := s.thread.pts, num := (s.core c).bindNext, conds := ((s.core c).fenced 2).map (Prod.mk 0) })

section
variable {f : FmtR} {s : State} {c k : Nat} (hc : s.cur = .slot c k) (e : Eff)
include hc

/-- A stream of a register with no port, of a count in bounds and an aligned base that is accepted, on a core with a generator left. -/
theorem sbindStream_binds {kind : PortKind} {l : Loc} (hport : s.thread.port (opName f.d) = none)
    (hpos : 0 < (s.rs f.c).toNat) (hmax : (s.rs f.c).toNat ≤ 2 ^ 48) (hal : (s.rs f.a).toNat % esize f.ty.toNat = 0)
    (hgen : (s.core c).generators < 32)
    (hl : s.reach s.cur (s.rs f.a).toNat (esize f.ty.toNat) (if kind == .input then .pathRead else .pathWrite) = .ok l) :
    sbindStream kind f s e = .done (s.streamBound f kind c l) e := by
  unfold sbindStream
  split
  · next c' k' hc' =>
    obtain ⟨rfl, rfl⟩ : c' = c ∧ k' = k := by simpa [hc] using hc'.symm
    dsimp only
    rw [if_neg (by simp [hport]), if_neg (by omega), if_neg (by simp [hal]), if_neg (by omega)]
    exact Chk.res_of_ok hl
  · next hno => exact absurd hc (hno c k)

/-- A queue to a free port register of a sibling. -/
theorem sbindQBody_binds {j q : Nat} (hport : s.thread.port (opName f.d) = none) (ha : (s.rs f.a).toNat = j + 256 * q) (hj : j < 16)
    (hq : 48 ≤ q ∧ q < 64 ∧ opName f.d < 64 ∨ 88 ≤ q ∧ q < 96 ∧ 64 ≤ opName f.d) (hjk : j ≠ k) (hslots : j < (s.core c).nslots)
    (hst : (s.slot c j).st ≠ .idle) (hfree : (s.slot c j).port q = none) :
    let s2 := s.setSlot c j ((s.slot c j).bindReg q { kind := .qrecv, peerSlot := k, peerReg := opName f.d })
    sbindQBody f s e = .done (s2.setThread (s2.thread.bindReg (opName f.d) { kind := .qsend, peerSlot := j, peerReg := q })) e := by
  have hslot : (j + 256 * q) % 16 = j := by omega
  have hreg : (j + 256 * q) / 256 % 128 = q := by omega
  have hregs : (decide (48 ≤ q) && decide (q < 64) || decide (88 ≤ q) && decide (q < 96)) = true
      ∧ (decide (q < 64) == decide (opName f.d < 64)) = true := by
    obtain ⟨h1, h2, h3⟩ | ⟨h1, h2, h3⟩ := hq
    · simp [h1, h2, h3]
    · simp [h1, h2, show ¬q < 64 by omega, show ¬opName f.d < 64 by omega]
  unfold sbindQBody
  split
  · next c' k' hc' =>
    obtain ⟨rfl, rfl⟩ : c' = c ∧ k' = k := by simpa [hc] using hc'.symm
    dsimp only
    rw [ha, hslot, hreg, if_neg]
    simp [hport, hregs, hjk, hslots, hst, hfree]
  · next hno => exact absurd hc (hno c k)

theorem sunbindBody_unbound (hp : s.thread.port (opName f.d) = none) : sunbindBody f s e = .done s e := by
  simp only [sunbindBody, hc, hp]

/-- An output stream whose every append is written (R217). -/
theorem sunbindBody_written {p : Port} (hp : s.thread.port (opName f.d) = some p) (hkind : p.kind = .output) (hbuf : p.buf = []) :
    sunbindBody f s e = .done (s.unbind c k (opName f.d)) { e with pts := max e.pts p.mark } := by
  simp [sunbindBody, hc, hp, hkind, hbuf]

theorem sunbindBody_other {p : Port} (hp : s.thread.port (opName f.d) = some p) (hkind : p.kind ≠ .output) :
    sunbindBody f s e = .done (s.unbind c k (opName f.d)) { e with pts := max e.pts 0 } := by
  simp [sunbindBody, hc, hp, hkind]

end

/-- Settles O13: a stream by the conditions of its binding, a queue by those of its two ends, an unbinding by the port that it finds. -/
theorem streamsComplete : Obligations.StreamsComplete := by
  intro f s s1 e r n base bound
  refine ⟨fun c k l hc hport hpos hmax hal hgen => ⟨fun hr hl => ?input, fun hr hl => ?output⟩,
    fun c k j q hr hc hport ha hj hq hjk hslots hst hfree => exec_done hr rfl (sbindQBody_binds hc e hport ha hj hq hjk hslots hst hfree),
    fun c k hr hc hp => exec_done hr rfl (sunbindBody_unbound hc e hp),
    fun c k p hr hc hp hkind hbuf => exec_done hr rfl (sunbindBody_written hc e hp hkind hbuf),
    fun c k p hr hc hp hkind => exec_done hr rfl (sunbindBody_other hc e hp hkind), ?sstat⟩
  case input => exact exec_replies hr rfl (sbindStream_binds (kind := .input) hc e hport hpos hmax hal hgen hl)
  case output => exact exec_replies hr rfl (sbindStream_binds (kind := .output) hc e hport hpos hmax hal hgen hl)
  case sstat => exact writesScalar_of_doneS (fun _ => rfl) fun _ _ => rfl

end Sys2Proof.Machine
end

section
/-! SUPPORT. Map operations served at their agents, and upserts posted (R255, R257-R259, R262, R263, R269, R270). -/

namespace Sys2Proof.Machine

/-! ## Operations carried to their agent (R255, R259) -/

/-- An operation for a group whose agent's queue is empty stays there, with its clock, when nothing holds it. -/
theorem State.carry_here {s : State} {region g : Nat} {o : MapOp} {m : KMap} (n pts : Nat) (hm : s.kmap? region = some m)
    (hq : (s.fold (m.agentOf g o)).agentQ = []) (hnext : m.next g o m.desc.clearing = g)
    (hheld : m.desc.clearing = true ∨ s.mapHeld m g o = false) : s.carry region o (n + 1) g pts = (s, g, pts, true) := by
  rw [State.carry, hm]
  dsimp only
  rw [if_neg, if_pos hnext]
  obtain h | h := hheld <;> simp [hq, h]

/-- The state and the answer of a blocking operation of clock `pts` served by the agent of group `g`, with its timestamp; its reply comes
from there. -/
def State.servedAt (s : State) (region g pts : Nat) (o : MapOp) : State × MapAns × Nat :=
  let x := s.serveOp region g pts o true (s.mapBusy region)
  (x.1.setFrom (s.agentDev region g o), x.2)

section
variable {s : State} {c : MapCopy} {o : MapOp} {e e' : Eff} {f : FmtR} {keyed : Bool} {ops : State → List MapOp}

/-- A request of one operation that its agents' queues let through is served whole. -/
theorem sendMap_served {sh : MapShape} {region g : Nat} (hd : s.deferNow ≠ 2) (hy : (s.carry region o mostForwards g e.pts).2.2.2 = true) :
    let y := s.carry region o mostForwards g e.pts
    let z := y.1.servedAt region y.2.1 y.2.2.1 o
    sendMap s { who := s.cur, pts := e.pts, region := region, ops := [(g, o)], done := [], ts := 0, shape := sh, eff := e }
      = .done (z.1.count 7) (z.1.mapEff sh e [z.2.1] z.2.2) := by
  unfold sendMap
  rw [if_neg hd]
  simp only [State.serveOps, hy, if_true, List.isEmpty_nil, List.nil_append, Nat.zero_max]
  rfl

/-- A blocking instruction of one operation on a bound map, no posted upsert of the thread left and the way open. -/
theorem mapIssue_served {sh : MapShape} (hops : ops s = [o]) (hc : s.boundMap f keyed = .ok c) (he : s.afterPosted (mapNo f) e = .ok e')
    (hd : s.deferNow ≠ 2) (hy : (s.carry c.region o mostForwards (s.sentTo c o).1 e'.pts).2.2.2 = true)
    (hway : s.mapWay c.region [s.sentTo c o] = .ok ()) :
    let y := s.carry c.region o mostForwards (s.sentTo c o).1 e'.pts
    let z := y.1.servedAt c.region y.2.1 y.2.2.1 o
    mapIssue f keyed sh ops s e = .done (z.1.count 7) (z.1.mapEff sh e' [z.2.1] z.2.2) := by
  unfold mapIssue
  rw [hc, hops, Chk.res_ok, he, Chk.res_ok, List.map_singleton, hway, Chk.res_ok]
  exact sendMap_served hd hy

/-! ## KITER (R269) -/

theorem kiterBody_inUse {m : KMap} (hm : s.kmap? c.region = some m) (hc : s.boundMap f true = .ok c)
    (h : (s.rs f.a).toNat / 2 ^ 32 < m.desc.count) :
    kiterBody f s e = mapIssue f true (.iter f.d f.ty.toNat) (fun s => [opOf f 4 0 (s.rs f.a)]) s e :=
  (Chk.res_of_ok hc).trans (if_neg (by rw [hm]; simpa using h))

/-- A cursor past the groups in use. -/
theorem kiterBody_past {m : KMap} (hm : s.kmap? c.region = some m) (hc : s.boundMap f true = .ok c)
    (he : s.afterPosted (mapNo f) e = .ok e') (h : m.desc.count ≤ (s.rs f.a).toNat / 2 ^ 32) :
    kiterBody f s e = .done (s.count 7) (s.mapEff (.iter f.d f.ty.toNat) e' [iterEnd] e'.pts) :=
  (Chk.res_of_ok hc).trans ((if_pos (by rw [hm]; simpa using h)).trans (Chk.res_of_ok he))

/-! ## Posted upserts (R258) -/

theorem postIssue_posts (hc : s.boundMap f true = .ok c) (hway : ∀ x, s.mapWay c.region ((ops s).map (s.sentTo c)) ≠ .bad x) :
    postIssue f ops s e = .done (s.post (mapNo f) c.region ((ops s).map (s.sentTo c))) e := by
  refine (Chk.res_of_ok hc).trans ?_
  cases h : s.mapWay c.region ((ops s).map (s.sentTo c)) with
  | bad x => exact absurd h (hway x)
  | ok _ | wait _ => simp only [h]

end

/-- The current thread is what it was where slots, contexts and the device are. -/
theorem State.SameSlots.thread_eq {s t : State} (h : SameSlots s t) (hch : t.channels = s.channels) (hdev : t.dev = s.dev) :
    t.thread = s.thread := by
  unfold State.thread
  rw [h.cur, hdev]
  cases s.cur with
  | slot c k => exact h.slot c k
  | ctx ch i => simp only [State.chan, hch]
  | sys n => rfl

/-- Posting leaves the current thread as it is. -/
theorem State.thread_setPosted (s : State) (c n : Nat) (ps : List Posted) :
    State.thread { s.setCore c { s.core c with keyNext := n } with posted := ps } = s.thread :=
  SameSlots.thread_eq (.trans (SameSlots.setCore (s := s) (c := c) (x := { s.core c with keyNext := n }) rfl) (.of_cores rfl rfl)) rfl rfl

/-- What a posted upsert carries to its agent: its group, operation, map, region and clock, and whether it stands in the queue. -/
def Posted.carries (p : Posted) : Nat × MapOp × Nat × Nat × Nat × Bool := (p.grp, p.op, p.mapNo, p.region, p.pts, p.queued)

/-- Upserts posted stand behind the ones before them in order, each with the PTS of the thread. -/
theorem State.post_posted (s : State) (n region : Nat) (os : List (Nat × MapOp)) :
    (s.post n region os).posted.map Posted.carries
      = s.posted.map Posted.carries ++ os.map fun o => (o.1, o.2, n, region, s.thread.pts, false) := by
  induction os generalizing s with
  | nil => simp [State.post]
  | cons o os ih =>
    rw [State.post, ih, State.thread_setPosted]
    simp [Posted.carries]

/-- Settles O14: a blocking operation by its way to the agent that serves it, a posted one by what it leaves behind those posted. -/
theorem keyedMapOperationsComplete : Obligations.KeyedMapOperationsComplete := by
  refine ⟨fun f s s1 e c m e' hm he hd => ?blocking, fun f s s1 e c hc => ?posted⟩
  case blocking =>
    intro served key
    have hcarry := fun o => State.carry_here (s := s1) (region := c.region) (g := (s1.sentTo c o).1) (o := o) 63 e'.pts hm
    have hserved : ∀ (i : Instr) (body : State → Eff → Res) (keyed : Bool) (ops : State → List MapOp) (o : MapOp) (sh : MapShape),
        Ready i s s1 e → exec i s = meaning i (some .reply) body s → body s1 e = mapIssue f keyed sh ops s1 e → ops s1 = [o] →
        s1.boundMap f keyed = .ok c → served i o sh := fun i body keyed ops o sh hr hi hbody hops hc =>
      ⟨hcarry o, fun hy hway => exec_replies hr hi (hbody.trans (mapIssue_served hops hc he hd hy hway))⟩
    refine ⟨fun hc => ⟨fun hr => ?kprb, fun hr => ?kins, fun hr => ?kups, fun hr => ?kdel, fun hr h => ?kiter, fun hr h => ?past⟩,
      fun hc hr => ?kclr⟩
    case kprb | kins | kups | kdel | kclr => exact hserved _ _ _ _ _ _ hr rfl rfl rfl hc
    case kiter => exact hserved _ _ _ _ _ _ hr rfl (kiterBody_inUse hm hc h) rfl hc
    case past => exact exec_replies hr rfl (kiterBody_past hm hc he h)
  case posted =>
    have hposts : ∀ (i : Instr) (ops : State → List MapOp), Ready i s s1 e → exec i s = meaning i none (postIssue f ops) s →
        let os := (ops s1).map (s1.sentTo c)
        (∀ x, s1.mapWay c.region os ≠ .bad x) → exec i s = .next ((s1.post (mapNo f) c.region os).commit e)
          ∧ (s1.post (mapNo f) c.region os).posted.map Posted.carries
            = s1.posted.map Posted.carries ++ os.map fun o => (o.1, o.2, mapNo f, c.region, s1.thread.pts, false) := by
      intro i ops hr hi os hway
      exact ⟨exec_done hr hi (postIssue_posts hc hway), State.post_posted ..⟩
    exact ⟨fun hr => hposts _ _ hr rfl, fun hr => hposts _ _ hr rfl⟩

end Sys2Proof.Machine
end

section
/-! SUPPORT. The effects of the copy engine's instructions, of FENCEX and of CWB (R219-R227). -/

namespace Sys2Proof.Machine

/-! ## Commands and chains (R219, R223) -/

section
variable {f : FmtP} {s : State} (e : Eff)

/-- The command that an instruction gives the engine of its core. -/
def State.copyCmd (s : State) (f : FmtP) (kind : Nat) (l : Line × Line) (w : Option (Word × Word)) : CopyCmd :=
  let x := s.core s.myCore
  { kind := kind, core := s.myCore, num := x.copyNext + 1, slot := s.mySlot, pc := s.thread.pc, src := l.1, dst := l.2,
    aval := s.rs f.a, bval := s.rs f.b, imm := f.imm.toNat, word := w, pts := s.thread.pts, conds := x.fenced 1 }

theorem acceptCopy_accepts {kind : Nat} {l : Line × Line} {w : Option (Word × Word)} (hw : s.wordOf f.d = .ok w)
    (hl : s.buildCopy s.myCore kind f.p1.toNat f.p2.toNat (s.rs f.a) (s.rs f.b) = .ok l) (hroom : (s.core s.myCore).copyEntries < 32) :
    let x := s.core s.myCore
    acceptCopy kind f s e = .done (s.setCore s.myCore { x with cq := x.cq ++ [.cmd (s.copyCmd f kind l w)], copyNext := x.copyNext + 1 }) e := by
  refine (Chk.res_of_ok hw).trans ?_
  rw [hl]
  exact if_neg (Nat.not_le.mpr hroom)

/-- What the commons is to remember of the record that a CPYC appends. -/
def State.chainRecOf (s : State) (f : FmtP) : ChainRec :=
  let x := s.core s.myCore
  { space := s.space s.cur, va := s.rs f.a, core := s.myCore, num := x.copyNext + 1, slot := s.mySlot, pc := s.thread.pc,
    pts := s.thread.pts, conds := x.fenced 1 }

/-- The state with a record's NEXT word, at `la`, cleared and the record remembered. -/
def State.recordAppended (s : State) (f : FmtP) (la : Loc) : State :=
  let x := s.core s.myCore
  ((s.setCore s.myCore { x with copyNext := x.copyNext + 1 }).storeAt (s.rs f.a).toNat la 8 1 0).remember (s.chainRecOf f)

section
variable {la lb : Loc} (ha : (s.rs f.a).toNat % 64 = 0) (hb : (s.rs f.b).toNat % 64 = 0)
  (hla : s.reach s.cur (s.rs f.a).toNat 8 .store = .ok la) (hlb : s.reach s.cur (s.rs f.b).toNat 24 .atomic = .ok lb)
include ha hb hla hlb

/-- CPYC of an idle chain: the descriptor names the record alone, and a walk of it is placed. -/
theorem cpycBody_idle (hidle : imgGet (s.peek lb 24) 16 8 = 0) (hroom : (s.core s.myCore).copyEntries < 32) :
    let a := (s.rs f.a).toNat
    let s2 := ((s.recordAppended f la).rmwAt (s.rs f.b).toNat lb 24 1 fun _ => a + a * 2 ^ 64 + 2 ^ 128).1
    let y := s2.core s.myCore
    cpycBody f s e = .done (s2.setCore s.myCore { y with
      cq := y.cq ++ [CopyEntry.walk (s.rs f.b) s2.mySlot s2.thread.pc s.thread.pts (y.fenced 1)] }) (e.scalar f.d 1) := by
  unfold cpycBody
  dsimp only
  rw [if_neg (by simp [ha]), if_neg (by simp [hb])]
  refine (Chk.res_of_ok hla).trans ((Chk.res_of_ok hlb).trans ?_)
  simp only [hidle, beq_self_eq_true, if_true, Chk.res_ok, true_and]
  exact if_neg (Nat.not_le.mpr hroom)

/-- CPYC of a chain in progress: the record is linked behind the tail, which the descriptor then names. -/
theorem cpycBody_busy {lt : List (Nat × Loc)} (hbusy : imgGet (s.peek lb 24) 16 8 ≠ 0)
    (hlt : s.reachSpan (imgGet (s.peek lb 24) 8 8) 8 .store = .ok lt) :
    let a := (s.rs f.a).toNat
    let s2 := ((s.recordAppended f la).rmwAt (s.rs f.b).toNat lb 24 1 fun old => imgPut old 8 8 a).1
    cpycBody f s e = .done (s2.storeSpan (imgGet (s.peek lb 24) 8 8) lt a) (e.scalar f.d 0) := by
  unfold cpycBody
  dsimp only
  rw [if_neg (by simp [ha]), if_neg (by simp [hb])]
  refine (Chk.res_of_ok hla).trans ((Chk.res_of_ok hlb).trans ?_)
  have hne : (imgGet (s.peek lb 24) 16 8 == 0) = false := by simpa using hbusy
  simp only [hne, Bool.false_eq_true, if_false, false_and, hlt, Chk.res_ok]
  rfl

end

theorem ewaitBody_reached (h : (s.rs f.a).toNat ≤ (s.core s.myCore).eseq) :
    ewaitBody f s e = .done s { e with pts := max e.pts ((aget (s.core s.myCore).emarks (s.rs f.a).toNat).getD 0) } :=
  if_neg (Nat.not_lt.mpr h)

end

/-! ## FENCEX (R226) and CWB (R227) -/

section
variable {f : FmtR} {s : State} (e : Eff)

/-- What a FENCEX of a slot does: with class2 `thread` it waits for what is left of X, else it lays that on the later work of class2. -/
theorem fencexBody_slot {c k : Nat} (hc : s.cur = .slot c k) :
    let c1 := f.imm.toNat % 8
    let c2 := f.imm.toNat / 16 % 8
    let cs := s.fenceConds c c1 s.thread.pts
    let e2 := { e with pts := max e.pts (s.fenceMark c c1 s.thread.pts) }
    fencexBody f s e =
      if c2 = 0 then (if s.condsDone cs then .done s e2 else .sent (s.setThread { s.thread with reply := some e2 }) (.fence cs))
      else .done (s.setCore c ((s.core c).addFence c2 cs)) e := by
  simp only [fencexBody, hc]

/-- CWB of a range outside the local window and the remote aperture. -/
theorem cwbBody_outside (h : let first := (s.rs f.a).toNat / 64 * 64
      let count := if (s.rs f.b).toNat = 0 then 0 else ((s.rs f.a).toNat + (s.rs f.b).toNat - first + 63) / 64
      s.isSys = true ∨ count = 0 ∨ winBase + 2 ^ 22 ≤ first ∨ first + 64 * count ≤ apBase) :
    let first := (s.rs f.a).toNat / 64 * 64
    let count := if (s.rs f.b).toNat = 0 then 0 else ((s.rs f.a).toNat + (s.rs f.b).toNat - first + 63) / 64
    let r := s.cwbFrom (f.mod.getLsbD 0) first count
    cwbBody f s e = .done r.1 (e.scalar f.d (BitVec.ofNat 64 r.2)) := by
  refine if_neg fun hwindow => ?_
  simp only [Bool.and_eq_true, Bool.not_eq_true', decide_eq_true_eq] at hwindow
  obtain ⟨⟨⟨hsys, hcount⟩, hfirst⟩, hlast⟩ := hwindow
  obtain h | h | h | h := h
  · exact absurd hsys (by simp [h])
  · exact absurd hcount (by simp [h])
  · exact absurd hfirst (Nat.not_lt.mpr h)
  · exact absurd hlast (Nat.not_lt.mpr h)

end

/-- Settles O22: commands by their acceptance, CPYC by whether its chain is idle, FENCEX by its class2 and what is left of X. -/
theorem copyAndFenceInstructionsComplete : Obligations.CopyAndFenceInstructionsComplete := by
  refine ⟨fun f s s1 e => ?copy, fun f s s1 e => ⟨fun c k hr hc => ?fencex, fun hr h => exec_replies hr rfl (cwbBody_outside e h)⟩⟩
  case copy =>
    intro c x a b accepted r appended
    have haccepted : ∀ (i : Instr) (kind : Nat), (∀ s, exec i s = meaning i none (acceptCopy kind f) s) → accepted i kind :=
      fun i kind hi l w hr hw hl hroom => exec_done hr (hi s) (acceptCopy_accepts e hw hl hroom)
    refine ⟨haccepted _ 0 fun _ => rfl, haccepted _ 1 fun _ => rfl, haccepted _ 2 fun _ => rfl,
      fun la lb hr ha hb hla hlb => ⟨fun hidle hroom => exec_replies hr rfl (cpycBody_idle e ha hb hla hlb hidle hroom),
        fun lt hbusy hlt => exec_replies hr rfl (cpycBody_busy e ha hb hla hlb hbusy hlt)⟩,
      writesScalar_of_doneS (fun _ => rfl) fun _ _ => rfl, fun hr => ?go, fun hr => ?drop,
      fun hr h => exec_done hr rfl (ewaitBody_reached e h)⟩
    case go | drop => exact exec_done hr rfl rfl
  case fencex =>
    have hbody := fencexBody_slot (f := f) e hc
    exact ⟨fun h2 hd => exec_done hr rfl (hbody.trans ((if_pos h2).trans (if_pos hd))),
      fun h2 hd => meaning_sent hr (hbody.trans ((if_pos h2).trans (if_neg (by simp [hd])))),
      fun h2 => exec_done hr rfl (hbody.trans (if_neg h2))⟩

end Sys2Proof.Machine
end

section
/-! SUPPORT. The events of copy engines and of field sequencers (R219, R220, R222-R224, R230, R233, R236, R237, R239, R370, R372). -/

namespace Sys2Proof.Machine

/-! ## Copy engines -/

section
variable {s : State} {c : Nat}

/-- With no choice of the environment left, the engine goes on with the first requested chunk of the command that completes next. -/
theorem State.copyMove_first {r : CopyRun} (hrun : (s.core c).crun = some r) (hpick : s.env.pick = []) (h : r.chunks = [] ∨ 0 < r.sent) :
    s.copyMove c = some (none, 0) := by
  have hfirst : (List.range (if r.chunks.isEmpty then 1 else r.sent))[0]? = some 0 := by
    refine List.getElem?_range ?_
    obtain h | h := h
    · simp [h]
    · split <;> omega
  have hmoves : (s.core c).copyMoves[0]? = some (none, 0) := by
    rw [Core.copyMoves, hrun]
    dsimp only
    rw [List.getElem?_append_left (by obtain ⟨h', -⟩ := List.getElem?_eq_some_iff.mp hfirst; simpa using h'), List.getElem?_map, hfirst]
    rfl
  rw [State.copyMove, hpick]
  simpa using hmoves

/-- The end of a command whose completion word is stored. -/
theorem State.copyEnd_ok {s3 : State} {r : CopyRun} {mark : Nat} (h : s.copyWord c r.cmd r.mark = .ok (s3, mark)) :
    s.copyEnd c r = s3.copyRetire c mark := by
  rw [State.copyEnd, h]

variable (hhalted : (s.core c).chalted = false)
include hhalted

theorem copyCommandStart_starts {s2 : State} (h : s.copyStart c = .ok s2) : exec (.copyCommandStart c) s = .next s2 := by
  simp only [exec, execCopyCommandStart, answer, hhalted, h, Bool.false_eq_true, if_false]

section
variable {r : CopyRun} {i : Nat} (hrun : (s.core c).crun = some r) (hmove : s.copyMove c = some (none, i))
include hrun hmove

theorem copyCommandCompletion_ends (hnone : r.chunks = []) : exec (.copyCommandCompletion c) s = .next (s.popPick.copyEnd c r) := by
  simp only [exec, execCopyCommandCompletion, answer, hhalted, hmove, hrun, hnone, List.isEmpty_nil, Bool.false_eq_true, if_false, if_true]

/-- The command that completes next goes on with a chunk; an RFILL that has none left then ends. -/
theorem copyCommandCompletion_goes {q : State × CopyRun} (hsome : r.chunks ≠ []) (hstep : s.popPick.copyStep c r i = .ok q) :
    let s2 := q.1.setCore c (Core.grant { q.1.core c with crun := some q.2 })
    exec (.copyCommandCompletion c) s = .next (if r.cmd.kind = 2 && q.2.chunks.isEmpty then s2.copyEnd c q.2 else s2) := by
  have hne : r.chunks.isEmpty = false := by simpa using hsome
  simp only [exec, execCopyCommandCompletion, answer, hhalted, hmove, hrun, hne, hstep, Bool.false_eq_true, if_false]

end

theorem copyCommandCompletion_later {i j : Nat} {r : CopyRun} {q : State × CopyRun} (hmove : s.copyMove c = some (some j, i))
    (hr : (s.core c).cover[j]? = some r) (h : s.popPick.copyStep c r i = .ok q) :
    exec (.copyCommandCompletion c) s = .next (q.1.setCore c (Core.grant { q.1.core c with cover := (s.core c).cover.set j q.2 })) := by
  simp only [exec, execCopyCommandCompletion, answer, hhalted, hmove, hr, Option.map_some, h, Bool.false_eq_true, if_false]

theorem chainWalkStep_asks {w : Walk} {s2 : State} (hrun : (s.core c).crun = none) (hwalk : (s.core c).cwalk = some w) (hfresh : w.fresh = false)
    (h : s.walkAsk c w = .ok s2) : exec (.chainWalkStep c) s = .next s2 := by
  simp [exec, execChainWalkStep, answer, hhalted, hrun, hwalk, hfresh, h]

theorem copyEngineFault_halts {f : FaultInfo} {slot ts n : Nat} {pc : Word} (h : s.copyFault c = some (f, slot, pc, ts, n)) :
    let info := BitVec.ofNat 64 (n % 2 ^ 32 + ((s.core c).eseq + 1) % 2 ^ 32 * 2 ^ 32)
    let s2 := s.noteFault (.slot c slot) f
    exec (.copyEngineFault c) s = .next ((s2.setCore c { s2.core c with chalted := true }).enterRecord c
      (FaultInfo.toRec { f with step := 0 } 2 slot pc (s2.slot c slot).hold.isSome info) ts) := by
  simp only [exec, execCopyEngineFault, answer, hhalted, h, Bool.false_eq_true, if_false]

end

/-! ## Field sequencers -/

theorem State.laneAt_cmd (s : State) (f n : Nat) (r : FieldRun) : (s.laneAt f r n).cmd = r.cmd := by
  induction n generalizing r with
  | zero => rfl
  | succ n ih =>
    unfold State.laneAt
    split
    · split
      · exact ih _
      · rfl
    · rfl

theorem State.fieldAt_cmd (s : State) (f : Nat) (r : FieldRun) : (s.fieldAt f r).cmd = r.cmd := State.laneAt_cmd ..

section
variable {s : State} {f : Nat} (hhalted : (s.fold f).fhalted = false)
include hhalted

theorem fieldCommandStart_starts {m : FieldCmd} {ms : List FieldCmd} (hrun : (s.fold f).frun = none) (hq : (s.fold f).fq = m :: ms)
    (hconds : s.condsDone m.conds = true) (hf : f < 2 ^ 21) :
    let x := s.fold f
    exec (.fieldCommandStart f) s = .next (s.setFold f { x with
      fq := ms,
      frun := some { cmd := { m with pts := max (s.afterConds m.pts m.conds) (if x.gmark = 0 then 0 else x.gmark + 1) }, lane := 0, mark := 0,
                     due := s.ac + m.kind.cycles } }) := by
  simp only [exec, execFieldCommandStart, answer, hrun, hq]
  exact congrArg _ (if_neg (by simp [hhalted, hconds]; omega))

variable {r : FieldRun} (hrun : (s.fold f).frun = some r)
include hrun

theorem fieldCommandCompletion_op {sub : Nat} {g : FmtF} (hk : r.cmd.kind = .op sub g) :
    exec (.fieldCommandCompletion f) s = .next (if s.ac < r.due then s
      else (s.setFold f ((s.fold f).rowOp sub g).1).fieldRetire f 0 ((s.fold f).rowOp sub g).2) := by
  simp only [exec, execFieldCommandCompletion, answer, hrun, hhalted, hk, Bool.false_eq_true, if_false]

/-- FDMODE gives its ways and answers its thread with those before. -/
theorem fieldCommandCompletion_mode {m c k : Nat} {e : Eff} {d : BitVec 8} (hk : r.cmd.kind = .mode m c k e d)
    (hwaits : ((s.setWays f m).fieldRetire f 0 0).awaits (.slot c k) = true) :
    exec (.fieldCommandCompletion f) s = .next ((((s.setWays f m).fieldRetire f 0 0).as (.slot c k)).land
      { e with writes := e.writes ++ wrS d (BitVec.ofNat 64 (s.fold f).ways) }) := by
  simp only [exec, execFieldCommandCompletion, answer, hrun, hhalted, hk, Bool.false_eq_true, if_false, hwaits, if_true]

theorem fieldCommandCompletion_transfer (hop : ∀ sub g, r.cmd.kind ≠ .op sub g) (hmode : ∀ m c k e d, r.cmd.kind ≠ .mode m c k e d) :
    let r' := s.fieldAt f r
    let n := s.lanesLeft f r'
    let q := s.fieldLanes f r' (r'.together n)
    exec (.fieldCommandCompletion f) s = .next (if n = 0 then s.fieldRetire f r'.mark 0 else q.1.setFold f { q.1.fold f with frun := some q.2 }) := by
  cases hk : r.cmd.kind with
  | op sub g => exact absurd hk (hop sub g)
  | mode m c k e d => exact absurd hk (hmode m c k e d)
  | fin | fout => simp only [exec, execFieldCommandCompletion, answer, hrun, hhalted, hk, Bool.false_eq_true, if_false]

theorem fieldFault_halts {g : FaultInfo} {l0 : Nat} (hk : ∃ l o a b, r.cmd.kind = .fin l o l0 a b ∨ r.cmd.kind = .fout l o l0 a b)
    (hleft : s.lanesLeft f (s.fieldAt f r) ≠ 0) (hbad : s.fieldLane f (s.fieldAt f r) = .bad g) :
    let r' := s.fieldAt f r
    let info := BitVec.ofNat 64 ((l0 + r'.lane) % 2 ^ 32 + r.cmd.ticket % 2 ^ 32 * 2 ^ 32)
    let s2 := (s.setFold f { s.fold f with fhalted := true, frun := some r' }).noteFault (.slot r.cmd.core r.cmd.slot) g
    exec (.fieldFault f) s = .next (s2.enterRecord r.cmd.core
      (FaultInfo.toRec { g with step := 0 } 3 r.cmd.slot r.cmd.pc (s2.slot r.cmd.core r.cmd.slot).hold.isSome info) (max r.cmd.pts r'.mark)) := by
  have hgoes : ¬((s.fold f).fhalted || s.lanesLeft f (s.fieldAt f r) == 0) = true := by simp [hhalted, hleft]
  obtain ⟨l, o, a, b, hk | hk⟩ := hk
  all_goals simp only [exec, execFieldFault, answer, hrun, if_neg hgoes, hbad, State.fieldAt_cmd, hk]

end

/-- Settles O36, each event by the case of its meaning that its conditions select. -/
theorem copyEnginesAndFieldSequencersAdvance : Obligations.CopyEnginesAndFieldSequencersAdvance := by
  refine ⟨fun s c hh => ⟨fun s2 => copyCommandStart_starts hh, fun r => State.copyMove_first, fun r i hrun hmove => ?oldest,
      fun i j r q => copyCommandCompletion_later hh, fun w s2 => chainWalkStep_asks hh, fun f slot pc ts n => copyEngineFault_halts hh⟩,
    fun s f hh => ⟨fun m ms => fieldCommandStart_starts hh, fun r hrun => ⟨fun sub g hk hdue => ?early, fun sub g hk hdue => ?due,
      fun m c k e d hk => fieldCommandCompletion_mode hh hrun hk, fieldCommandCompletion_transfer hh hrun,
      fun g l0 hk hleft hbad => fieldFault_halts hh hrun hk hleft hbad⟩⟩⟩
  case oldest =>
    refine ⟨fun hnone s3 mark hword => ?ends, fun q hsome hstep => ?goes⟩
    case ends => rw [copyCommandCompletion_ends hh hrun hmove hnone, State.copyEnd_ok hword]
    case goes =>
      have hexec := copyCommandCompletion_goes hh hrun hmove hsome hstep
      refine ⟨fun hmore => hexec.trans (congrArg _ (if_neg ?_)), fun hkind hdone s3 mark hword => hexec.trans ?_⟩
      · obtain h | h := hmore <;> simp [h]
      · exact congrArg _ ((if_pos (by simp [hkind, hdone])).trans (State.copyEnd_ok hword))
  case early => rw [fieldCommandCompletion_op hh hrun hk, if_pos hdue]
  case due => rw [fieldCommandCompletion_op hh hrun hk, if_neg (Nat.not_lt.mpr hdue)]

end Sys2Proof.Machine
end

section
/-! SUPPORT. Spans of rows written, and the row operations of a field on its lanes (R231, R232, R240, R245). -/

namespace Sys2Proof.Machine

/-! ## Spans (R231) -/

/-- The bits above a span do not depend on what stands in it. -/
theorem testBit_above_span (x v : Nat) {r w i : Nat} (h : r + w ≤ i) :
    (2 ^ r * (2 ^ w * (x >>> r >>> w) + v % 2 ^ w) + x % 2 ^ r).testBit i = x.testBit i := by
  rw [Nat.testBit_two_pow_mul_add _ (Nat.mod_lt _ (Nat.two_pow_pos r)), if_neg (by omega),
    Nat.testBit_two_pow_mul_add _ (Nat.mod_lt _ (Nat.two_pow_pos w)), if_neg (by omega), Nat.testBit_shiftRight, Nat.testBit_shiftRight,
    show r + (w + (i - r - w)) = i by omega]

section
variable {x : BitVec 256} {r w : Nat} (v : Nat) (h : r + w ≤ 256)
include h

/-- A span replaced, as the rows above it, its own and those below it. -/
theorem spanPut_toNat :
    (spanPut x r w v).toNat = 2 ^ r * (2 ^ w * (x.toNat >>> r >>> w) + v % 2 ^ w) + x.toNat % 2 ^ r := by
  have hput : x.toNat - spanGet x r w * 2 ^ r + v % 2 ^ w * 2 ^ r
      = 2 ^ r * (2 ^ w * (x.toNat >>> r >>> w) + v % 2 ^ w) + x.toNat % 2 ^ r := by
    have hx : 2 ^ r * (2 ^ w * (x.toNat >>> r >>> w) + spanGet x r w) + x.toNat % 2 ^ r = x.toNat := by
      rw [spanGet, Nat.shiftRight_eq_div_pow _ w, Nat.div_add_mod, Nat.shiftRight_eq_div_pow, Nat.div_add_mod]
    simp only [Nat.mul_add, Nat.mul_comm _ (2 ^ r)] at hx ⊢
    omega
  have hlt : 2 ^ r * (2 ^ w * (x.toNat >>> r >>> w) + v % 2 ^ w) + x.toNat % 2 ^ r < 2 ^ 256 := by
    refine Nat.lt_pow_two_of_testBit _ fun i hi => ?_
    rw [testBit_above_span _ v (h.trans hi)]
    exact Nat.testBit_lt_two_pow (x.isLt.trans_le (Nat.pow_le_pow_right (by decide) hi))
  rw [spanPut, BitVec.toNat_ofNat, hput, Nat.mod_eq_of_lt hlt]

/-- A span replaced reads as the low bits of what replaced it. -/
theorem spanGet_spanPut : spanGet (spanPut x r w v) r w = v % 2 ^ w := by
  rw [spanGet, spanPut_toNat v h, Nat.shiftRight_eq_div_pow, Nat.mul_add_div (Nat.two_pow_pos r),
    Nat.div_eq_of_lt (Nat.mod_lt _ (Nat.two_pow_pos r)), Nat.add_zero, Nat.mul_add_mod, Nat.mod_mod]

/-- A span replaced leaves every row outside it. -/
theorem spanPut_getLsbD_outside {i : Nat} (hi : i < r ∨ r + w ≤ i) : (spanPut x r w v).getLsbD i = x.getLsbD i := by
  rw [BitVec.getLsbD, BitVec.getLsbD, spanPut_toNat v h]
  obtain hbelow | habove := hi
  · rw [Nat.testBit_two_pow_mul_add _ (Nat.mod_lt _ (Nat.two_pow_pos r)), if_pos hbelow, Nat.testBit_mod_two_pow,
      decide_eq_true hbelow, Bool.true_and]
  · exact testBit_above_span _ v habove

end

/-! ## Row operations (R232, R240, R245) -/

section
variable {sub : Nat} {f : FmtF} {x : BitVec 256}

theorem laneOp_selected (h : laneSelected sub f x = true) :
    laneOp sub f x = (spanPut x f.drow.toNat (spanWidth f.dw) (fieldValue sub f x).1, (fieldValue sub f x).2) := if_pos h

theorem laneOp_unselected (h : laneSelected sub f x = false) : laneOp sub f x = (x, 0) := if_neg (by simp [h])

end

/-- An entry of a list whose values are mapped. -/
theorem aget_map_val {α β : Type} (g : α → β) (l : List (Nat × α)) (j : Nat) :
    aget (l.map fun p => (p.1, g p.2)) j = (aget l j).map g := by
  induction l with
  | nil => rfl
  | cons p l ih =>
    obtain ⟨k, a⟩ := p
    simp only [List.map_cons, aget, ih]
    split <;> rfl

/-- An operation of a fold is the lane's own operation in every lane, listed or not. -/
theorem Fold.rowOp_lane (y : Fold) (sub : Nat) (f : FmtF) (j : Nat) :
    (y.rowOp sub f).1.lane j = (laneOp sub f (y.lane j)).1 := by
  have hlanes : (y.rowOp sub f).1.lanes = y.lanes.map fun l => (l.1, (laneOp sub f l.2).1) := List.map_map ..
  rw [Fold.lane, hlanes, aget_map_val fun x => (laneOp sub f x).1, Fold.lane]
  cases aget y.lanes j with
  | none => rfl
  | some x => rfl

/-- Settles O24: a selected lane has its span replaced, and the lanes of a fold, listed or not, are mapped alike. -/
theorem rowOperationsActOnSelectedLanesOnly : Obligations.RowOperationsActOnSelectedLanesOnly := by
  refine ⟨fun sub f x hspan => ⟨fun hsel => ?selected, laneOp_unselected⟩, Fold.rowOp_lane⟩
  case selected =>
    rw [laneOp_selected hsel]
    exact ⟨spanGet_spanPut _ hspan, rfl, fun i => spanPut_getLsbD_outside _ hspan⟩

end Sys2Proof.Machine
end

section
/-! SUPPORT. The effects of the instructions of the field sequencers (R228, R230, R233-R240). -/

namespace Sys2Proof.Machine

section
variable {s : State} {c k : Nat} (hcur : s.cur = .slot c k) (hg : s.isGateway c = false)
include hcur hg

/-- A core that is no gateway core has the sequencer of its fold (R228). -/
theorem State.fieldFold_res (go : Nat → Res) : s.fieldFold.res go = go (foldOf c) :=
  Chk.res_of_ok (by simp [State.fieldFold, hcur, hg])

section
variable (hroom : (s.fold (foldOf c)).fieldEntries < 16)
include hroom

/-- A command issued while its fold's queue has room comes to its own checks (R233). -/
theorem fieldIssue_room (go : Nat → Fold → Res) : fieldIssue s go = go (foldOf c) (s.fold (foldOf c)) :=
  (State.fieldFold_res hcur hg _).trans (if_neg (Nat.not_le.mpr hroom))

theorem fdmodeBody_sent (f : FmtR) (e : Eff) :
    let r := s.acceptField (foldOf c) (.mode (f.imm.toNat % 16) c k e f.d)
    fdmodeBody f s e = .sent (r.1.setFold (foldOf c) { r.1.fold (foldOf c) with qways := f.imm.toNat % 16 }) .served := by
  rw [fdmodeBody, fieldIssue_room hcur hg hroom, State.myCore, State.mySlot, hcur]

/-- FDIN or FDOUT whose checks pass answers its ticket (R233, R239). -/
theorem transferIssue_accepts {f : FmtP} {l : Line} (hcheck : s.transferCheck (s.fold (foldOf c)) f = .ok l)
    (kind : Line → Word → Nat → Nat → Nat → FieldKind) (e : Eff) :
    let r := s.acceptField (foldOf c) (kind l (s.rs f.a) (s.rs f.b).toNat (f.imm.toNat % 256) (f.imm.toNat / 256))
    transferIssue f kind s e = .done r.1 (e.scalar f.d (BitVec.ofNat 64 r.2)) :=
  (fieldIssue_room hcur hg hroom _).trans (Chk.res_of_ok hcheck)

/-- A row operation whose spans and widths are as they must be, in a field that has ways, is accepted (R240). -/
theorem rowIssue_accepts {sub : Nat} {f : FmtF} (hways : (s.fold (foldOf c)).qways ≠ 0) (hbad : fieldOperandBad sub f = none) (e : Eff) :
    rowIssue sub f s e = .done (s.acceptField (foldOf c) (.op sub f)).1 e := by
  rw [rowIssue, fieldIssue_room hcur hg hroom, hbad]
  exact if_neg hways

end

theorem fdwaitBody_reached {f : FmtR} (h : (s.rs f.a).toNat ≤ (s.fold (foldOf c)).fseq) (e : Eff) :
    fdwaitBody f s e = .done s { e with pts := max e.pts ((aget (s.fold (foldOf c)).gmarks (s.rs f.a).toNat).getD 0) } :=
  (State.fieldFold_res hcur hg _).trans (if_neg (Nat.not_lt.mpr h))

end

/-- FDSTAT's answer, the flags cleared where its MOD says so (R238). -/
theorem fdstatRead_done (f : FmtR) (i : Nat) (s : State) (e : Eff) :
    fdstatRead f i s e = .done (if f.mod.getLsbD 2 then s.setFold i { s.fold i with fflags := 0 } else s)
      (e.scalar f.d (BitVec.ofNat 64 (if f.mod.getLsbD 3 then (s.fold i).fseq else (s.fold i).status))) := rfl

/-- The row operations under the numbers by which `fieldValue` tells them apart. -/
def rowOperations (f : FmtF) : List (Nat × Instr) :=
  [(0, .fdadd f), (1, .fdsub f), (2, .fdmul f), (3, .fdcmp f), (4, .fdsel f), (5, .fdbit f), (6, .fdmin f), (7, .fdmax f),
    (8, .fdlmul f), (9, .fdrq f), (10, .fdpop f)]

/-- Every row operation has the one meaning of its format, with its number. -/
theorem exec_rowOperations (f : FmtF) : ∀ p ∈ rowOperations f, ∀ s, exec p.2 s = meaning p.2 none (rowIssue p.1 f) s := by
  simp only [rowOperations, List.forall_mem_cons]
  exact ⟨fun _ => rfl, fun _ => rfl, fun _ => rfl, fun _ => rfl, fun _ => rfl, fun _ => rfl, fun _ => rfl, fun _ => rfl, fun _ => rfl,
    fun _ => rfl, fun _ => rfl, List.forall_mem_nil _⟩

/-- Settles O23: commands by their acceptance in a queue with room, FDWAIT by the number reached, FDSTAT by what it reads after
resuming or abandoning. -/
theorem fieldInstructionsComplete : Obligations.FieldInstructionsComplete := by
  rintro s s1 e _ c k hcur hg rfl x
  refine ⟨fun f => ⟨fun hr hroom => meaning_sent hr (fdmodeBody_sent hcur hg hroom f e),
      fun hr hreached => exec_done hr rfl (fdwaitBody_reached hcur hg hreached e), ?reads⟩,
    fun f l hroom hcheck => ?transfers, fun f hroom hways p hp hr hbad => ?rows⟩
  case reads =>
    exact ⟨fun hr => exec_done hr rfl ((State.fieldFold_res hcur hg _).trans (fdstatRead_done ..)),
      fun hr => exec_done hr rfl ((State.fieldFold_res hcur hg _).trans (fdstatRead_done ..)),
      fun hr => exec_done hr rfl ((State.fieldFold_res hcur hg _).trans (fdstatRead_done ..))⟩
  case transfers =>
    exact ⟨fun hr => ⟨exec_done hr rfl (transferIssue_accepts hcur hg hroom hcheck .fin e), rfl⟩,
      fun hr => ⟨exec_done hr rfl (transferIssue_accepts hcur hg hroom hcheck .fout e), rfl⟩⟩
  case rows => exact exec_done hr (exec_rowOperations f p hp s) (rowIssue_accepts hcur hg hroom hways hbad e)

end Sys2Proof.Machine
end

section
/-! SUPPORT. What operations on a key and splits leave in the groups of a map (R252, R253, R259, R263). -/

namespace Sys2Proof.Machine

/-! ## Groups replaced -/

namespace KMap

variable (m : KMap)

@[simp] theorem group_setGroup_self (g : Nat) (x : MapGroup) : (m.setGroup g x).group g = x := by
  simp [group, setGroup]

theorem group_setGroup_ne {g g' : Nat} (x : MapGroup) (h : g' ≠ g) : (m.setGroup g x).group g' = m.group g' := by
  unfold group setGroup
  rw [aget_aset_ne _ _ h]
  rfl

/-! ## Splits (R259) -/

/-- The half of group S whose hashes have bit L as `bit` says, in the overflow lines `chain`. -/
def half (bit : Bool) (chain : List Nat) : MapGroup :=
  let x := m.group m.desc.s
  { level := m.desc.level + 1, wts := x.rts + 1, rts := x.rts + 1, chain := chain,
    entries := x.entries.filter fun e => (m.desc.hashOf e.1).testBit m.desc.level == bit }

/-- The overflow lines that a half needs. -/
def halfLines (bit : Bool) : Nat := m.desc.linesFor (m.half bit []).entries.length

/-- The half that stays in group S, and the one for the new group, each with the overflow lines that it needs. -/
def lowHalf : MapGroup := m.half false ((m.group m.desc.s).chain.take (m.halfLines false))

@[inherit_doc lowHalf]
def highHalf : MapGroup := m.half true (((m.group m.desc.s).chain.drop (m.halfLines false)).take (m.halfLines true))

theorem group_split (g : Nat) :
    m.split.group g = ((m.setGroup m.desc.s m.lowHalf).setGroup m.desc.count m.highHalf).group g := by
  simp only [lowHalf, highHalf, halfLines, half, beq_false, beq_true]
  unfold split
  simp only [List.partition_eq_filter_filter]
  rfl

end KMap

/-- Settles O38: of the two halves the second is put into another group than the first. -/
theorem aSplitDividesItsGroup : Obligations.ASplitDividesItsGroup := by
  intro m d gNew hne
  have hlow : m.split.group d.s = m.lowHalf := by
    rw [KMap.group_split, KMap.group_setGroup_ne _ _ hne, KMap.group_setGroup_self]
  have hhigh : m.split.group gNew = m.highHalf := by rw [KMap.group_split, KMap.group_setGroup_self]
  rw [hlow, hhigh]
  refine ⟨?clear, ?set, ?all, rfl, rfl, rfl, rfl, fun g hs hg => ?other⟩
  case clear => simp [KMap.lowHalf, KMap.half, d]
  case set => simp [KMap.highHalf, KMap.half, d]
  case all =>
    have hlen := (m.group d.s).entries.length_eq_length_filter_add fun e => (d.hashOf e.1).testBit d.level
    simp [KMap.lowHalf, KMap.highHalf, KMap.half, d] at hlen ⊢
    omega
  case other => rw [KMap.group_split, KMap.group_setGroup_ne _ _ hg, KMap.group_setGroup_ne _ _ hs]

/-! ## The value of a key in a group (R263) -/

namespace MapGroup

variable {x y : MapGroup} {k : BitVec 128} {v : Word}

/-- A key that was absent is found at the end of the group. -/
theorem find_append (h : y.entries = x.entries ++ [(k, v)]) (habs : x.find k = none) (k' : BitVec 128) :
    y.find k' = if k' = k then some v else x.find k' := by
  have hcut : y.find k' = (x.find k').or (if k = k' then some v else none) := by
    unfold find
    rw [h, List.find?_append]
    by_cases hk : k = k' <;> cases x.entries.find? fun e => e.1 == k' <;> simp [hk]
  rw [hcut]
  by_cases hk : k' = k
  · subst hk; simp [habs]
  · simp [hk, Ne.symm hk]

/-- Every entry of a key bears its new value. -/
theorem find_replace (h : y.entries = x.entries.map fun e => if e.1 == k then (k, v) else e) (k' : BitVec 128) :
    y.find k' = if k' = k then (x.find k).map fun _ => v else x.find k' := by
  have hkey : ((fun e => e.1 == k') ∘ fun e : BitVec 128 × Word => if e.1 == k then (k, v) else e) = fun e => e.1 == k' := by
    funext e
    by_cases he : e.1 = k <;> simp [he]
  unfold find
  rw [h, List.find?_map, hkey]
  by_cases hk : k' = k
  · subst hk
    cases hf : x.entries.find? fun e => e.1 == k' with
    | none => simp
    | some e => simp [show e.1 = k' by simpa using List.find?_some hf]
  · cases hf : x.entries.find? fun e => e.1 == k' with
    | none => simp [hk]
    | some e => simp [hk, show e.1 = k' by simpa using List.find?_some hf]

/-- A key that was removed is absent. -/
theorem find_remove (h : y.entries = x.entries.filter fun e => e.1 != k) (k' : BitVec 128) :
    y.find k' = if k' = k then none else x.find k' := by
  unfold find
  rw [h, List.find?_filter]
  by_cases hk : k' = k
  · simp [hk]
  · rw [if_neg hk]
    congr 2
    funext e
    by_cases he : e.1 = k' <;> simp [he, hk]

end MapGroup

/-! ## Operations on a key (R252, R253, R263) -/

namespace KMap

variable {m m' : KMap} {g : Nat} {k : BitVec 128} {v : Word} {w : Option Word}

/-- `m'` differs from `m`, as probes tell, in the value `w` of key `k` of group `g` alone. -/
structure Binds (m : KMap) (g : Nat) (k : BitVec 128) (w : Option Word) (m' : KMap) : Prop where
  find : ∀ k', (m'.group g).find k' = if k' = k then w else (m.group g).find k'
  group : ∀ g', g' ≠ g → m'.group g' = m.group g'

namespace Binds

theorem refl (m : KMap) (g : Nat) (k : BitVec 128) : Binds m g k ((m.group g).find k) m :=
  ⟨fun k' => by split <;> simp_all, fun _ _ => rfl⟩

theorem find_self (h : Binds m g k w m') : (m'.group g).find k = w := (h.find k).trans (if_pos rfl)

theorem find_other (h : Binds m g k w m') {g' : Nat} {k' : BitVec 128} (hne : g' ≠ g ∨ k' ≠ k) :
    (m'.group g').find k' = (m.group g').find k' := by
  by_cases hg : g' = g
  · subst hg
    exact (h.find k').trans (if_neg (hne.resolve_left (by simp)))
  · rw [h.group g' hg]

end Binds

/-- A line taken leaves every group and what absent keys read. -/
theorem takeLine_keeps {r : KMap × Nat} (h : m.takeLine = some r) : (∀ g, r.1.group g = m.group g) ∧ r.1.desc.dflt = m.desc.dflt := by
  unfold takeLine at h
  split at h
  · cases h
    exact ⟨fun _ => rfl, rfl⟩
  · split at h
    · cases h
    · cases h
      exact ⟨fun _ => rfl, rfl⟩

theorem room_keeps {r : KMap × List Nat} (h : m.room g = some r) : (∀ g', r.1.group g' = m.group g') ∧ r.1.desc.dflt = m.desc.dflt := by
  unfold room at h
  dsimp only at h
  split at h
  · cases h
    exact ⟨fun _ => rfl, rfl⟩
  · obtain ⟨q, hq, rfl⟩ := Option.map_eq_some_iff.mp h
    exact takeLine_keeps hq

theorem insertKey_binds (h : m.insertKey g k v = some m') (habs : (m.group g).find k = none) :
    Binds m g k (some v) m' ∧ m'.desc.dflt = m.desc.dflt := by
  obtain ⟨r, hr, rfl⟩ := Option.map_eq_some_iff.mp h
  obtain ⟨hgroup, hdflt⟩ := room_keeps hr
  refine ⟨⟨MapGroup.find_append (x := m.group g) ?_ habs, fun g' hne => ?_⟩, hdflt⟩
  · rw [← hgroup g]
    exact congrArg MapGroup.entries (group_setGroup_self r.1 g _)
  · exact (group_setGroup_ne r.1 _ hne).trans (hgroup g')

theorem replaceKey_binds (hpres : ((m.group g).find k).isSome = true) : Binds m g k (some v) (m.replaceKey g k v) := by
  refine ⟨fun k' => ?_, fun g' hne => group_setGroup_ne m _ hne⟩
  rw [MapGroup.find_replace (x := m.group g) (congrArg MapGroup.entries (group_setGroup_self m g _))]
  obtain ⟨old, hold⟩ := Option.isSome_iff_exists.mp hpres
  rw [hold, Option.map_some]

theorem removeKey_binds (m : KMap) (g : Nat) (k : BitVec 128) : Binds m g k none (m.removeKey g k) :=
  ⟨MapGroup.find_remove (congrArg MapGroup.entries (group_setGroup_self m g _)), fun _ hne => group_setGroup_ne m _ hne⟩

/-- The ways in which an insertion ends: the key present, inserted, or without room. -/
theorem kins_cases (m : KMap) (g : Nat) (k : BitVec 128) (v : Word) :
    (∃ old, (m.group g).find k = some old ∧ m.kins g k v = (m, { val := old, ms := msPresent }))
    ∨ (m.group g).find k = none ∧ ((∃ m', Binds m g k (some v) m' ∧ m.kins g k v = (m', { val := m.desc.dflt, ms := msMiss }))
      ∨ m.kins g k v = (m, { val := m.desc.dflt, ms := msFull })) := by
  cases hf : (m.group g).find k with
  | some old => exact .inl ⟨old, rfl, by simp only [kins, hf]⟩
  | none =>
    refine .inr ⟨rfl, ?_⟩
    cases hi : m.insertKey g k v with
    | none => exact .inr (by simp only [kins, hf, hi])
    | some m' =>
      obtain ⟨hb, hd⟩ := insertKey_binds hi hf
      exact .inl ⟨m', hb, by simp only [kins, hf, hi, hd]⟩

theorem kins_miss (h : (m.kins g k v).2.ms = msMiss) : ((m.kins g k v).1.group g).find k = some v ∧ (m.group g).find k = none := by
  obtain ⟨old, -, hr⟩ | ⟨hf, ⟨m', hb, hr⟩ | hr⟩ := m.kins_cases g k v <;> rw [hr] at h ⊢
  · cases h
  · exact ⟨hb.find_self, hf⟩
  · cases h

/-- What an insertion answers of a present key, and of an absent one. -/
theorem kins_answers (m : KMap) (g : Nat) (k : BitVec 128) (v : Word) : let r := m.kins g k v
    (∀ old, (m.group g).find k = some old → r.1 = m ∧ r.2.val = old ∧ r.2.ms = msPresent)
    ∧ ((m.group g).find k = none → r.2.val = m.desc.dflt ∧ (r.2.ms = msMiss ∨ r.2.ms = msFull)) := by
  obtain ⟨old, hf, hr⟩ | ⟨hf, ⟨m', hb, hr⟩ | hr⟩ := m.kins_cases g k v <;> rw [hr, hf]
  · exact ⟨fun _ h => ⟨rfl, Option.some.inj h, rfl⟩, nofun⟩
  · exact ⟨nofun, fun _ => ⟨rfl, .inl rfl⟩⟩
  · exact ⟨nofun, fun _ => ⟨rfl, .inr rfl⟩⟩

/-- What any operation on a key may leave: the key's value alone changed, in a map that keeps no values to 0 or none; and the whole map
where it answers that the key is present or finds no room. -/
def OnKey (m : KMap) (g : Nat) (k : BitVec 128) (r : KMap × MapAns) : Prop :=
  ∃ w, Binds m g k w r.1 ∧ (m.desc.valw = 0 → ∀ v, w = some v → v = 0 ∨ (m.group g).find k = some v)
    ∧ (r.2.ms = msPresent ∨ r.2.ms = msFull → r.1 = m)

theorem OnKey.refl (m : KMap) (g : Nat) (k : BitVec 128) (a : MapAns) : OnKey m g k (m, a) :=
  ⟨_, .refl m g k, fun _ _ hv => .inr hv, fun _ => rfl⟩

/-- An answer of hit or miss tells of a key's value alone changed. -/
theorem Binds.onKey (h : Binds m g k w m') (hzero : m.desc.valw = 0 → ∀ v, w = some v → v = 0) {a : MapAns}
    (hms : a.ms = msHit ∨ a.ms = msMiss) : OnKey m g k (m', a) :=
  ⟨w, h, fun hz v hv => .inl (hzero hz v hv), by obtain hms | hms := hms <;> simp [hms, msHit, msMiss, msPresent, msFull]⟩

theorem kins_onKey (hv : m.desc.valw = 0 → v = 0) : OnKey m g k (m.kins g k v) := by
  obtain ⟨old, -, hr⟩ | ⟨-, ⟨m', hb, hr⟩ | hr⟩ := m.kins_cases g k v <;> rw [hr]
  · exact .refl ..
  · exact hb.onKey (fun hz x hx => (Option.some.inj hx).symm.trans (hv hz)) (.inr rfl)
  · exact .refl ..

variable {o : MapOp}

theorem apply_probe (h : o.kind = 0) (m : KMap) (g : Nat) :
    m.apply g o = (m, { val := ((m.group g).find o.key).getD m.desc.dflt,
                        ms := if ((m.group g).find o.key).isSome then msHit else msMiss }) := by
  simp only [apply, h]

/-- An insertion, and an upsert where the map keeps no values, insert a key that is absent. -/
theorem apply_insert (h : o.kind = 1) (m : KMap) (g : Nat) : m.apply g o = m.kins g o.key (if m.desc.valw = 0 then 0 else o.x) := by
  simp only [apply, h]

@[inherit_doc apply_insert]
theorem apply_upsert_keysOnly (h : o.kind = 2) (hv : m.desc.valw = 0) (g : Nat) : m.apply g o = m.kins g o.key 0 := by
  simp only [apply, h, hv, if_true]

/-- The ways in which an upsert of a value ends: the key present or absent with room, and no room. -/
theorem apply_upsert_cases (h : o.kind = 2) (hv : m.desc.valw ≠ 0) (g : Nat) :
    let old := ((m.group g).find o.key).getD m.desc.dflt
    (∃ m' ms, Binds m g o.key (some (comb o.comb o.signed old o.x)) m' ∧ (ms = msHit ∨ ms = msMiss)
      ∧ m.apply g o = (m', { val := old, ms := ms }))
    ∨ m.apply g o = (m, { val := m.desc.dflt, ms := msFull }) := by
  intro old
  cases hf : (m.group g).find o.key with
  | some v =>
    refine .inl ⟨_, _, replaceKey_binds (hf ▸ rfl), .inl rfl, ?_⟩
    simp [apply, h, hv, hf, old]
  | none =>
    have hold : old = m.desc.dflt := by simp [old, hf]
    cases hi : m.insertKey g o.key (comb o.comb o.signed old o.x) with
    | some m' => exact .inl ⟨m', _, (insertKey_binds hi hf).1, .inr rfl, by simp [apply, h, hv, hf, hold, hold ▸ hi]⟩
    | none => exact .inr (by simp [apply, h, hv, hf, hold ▸ hi])

theorem apply_delete (h : o.kind = 3) (m : KMap) (g : Nat) :
    Binds m g o.key none (m.apply g o).1 ∧ (m.apply g o).2.ms = if ((m.group g).find o.key).isSome then msHit else msMiss := by
  cases hf : (m.group g).find o.key with
  | some v =>
    simp only [apply, h, hf, Option.isSome_some, if_true]
    exact ⟨removeKey_binds m g o.key, trivial⟩
  | none =>
    simp only [apply, h, hf, Option.isSome_none, Bool.false_eq_true, if_false]
    exact ⟨hf ▸ Binds.refl m g o.key, trivial⟩

theorem apply_onKey (h : o.kind ≤ 3) (m : KMap) (g : Nat) : OnKey m g o.key (m.apply g o) := by
  obtain h0 | h1 | h2 | h3 : o.kind = 0 ∨ o.kind = 1 ∨ o.kind = 2 ∨ o.kind = 3 := by omega
  · exact apply_probe h0 m g ▸ .refl ..
  · exact apply_insert h1 m g ▸ kins_onKey fun hz => if_pos hz
  · by_cases hz : m.desc.valw = 0
    · exact apply_upsert_keysOnly h2 hz g ▸ kins_onKey fun _ => rfl
    · obtain ⟨m', ms, hb, hms, hr⟩ | hr := apply_upsert_cases h2 hz g <;> rw [hr]
      · exact hb.onKey (fun h => absurd h hz) hms
      · exact .refl ..
  · obtain ⟨hb, hms⟩ := apply_delete h3 m g
    have hor : (m.apply g o).2.ms = msHit ∨ (m.apply g o).2.ms = msMiss := hms ▸ ite_eq_or_eq _ _ _
    exact hb.onKey (fun _ => nofun) hor

end KMap

/-- Settles O17: each operation by the ways in which it ends, the rest by what any of them may leave. -/
theorem anUpsertIsWhatALaterProbeFinds : Obligations.AnUpsertIsWhatALaterProbeFinds := by
  intro m g o hk r find keep
  obtain ⟨w, hb, hzero, hsame⟩ := KMap.apply_onKey hk m g
  have hinsert : o.kind = 1 → r = m.kins g o.key (keep o.x) := fun h => KMap.apply_insert h m g
  have hkeys : o.kind = 2 → m.desc.valw = 0 → r = m.kins g o.key 0 := fun h hv => KMap.apply_upsert_keysOnly h hv g
  have hms : ∀ b : Bool, (if b then msHit else msMiss) = msHit ↔ b = true := by decide
  refine ⟨fun h => ?probe, fun h hms => ?insert, fun h hv hms => ?upsert, fun h => ?answers, fun h hv hms => ?keysOnly,
    fun hv hall k v hf => ?zero, fun h => ?delete, hsame, fun g' k hne => hb.find_other hne⟩
  case probe =>
    rw [show r = _ from KMap.apply_probe h m g]
    exact ⟨rfl, rfl, hms _⟩
  case insert =>
    rw [hinsert h] at hms ⊢
    exact KMap.kins_miss hms
  case upsert =>
    obtain ⟨m', ms, hb, -, hr⟩ | hr := KMap.apply_upsert_cases h hv g <;> rw [show r = _ from hr] at hms ⊢
    · exact ⟨rfl, hb.find_self⟩
    · simp [msFull, msMiss, msHit] at hms
  case answers =>
    obtain ⟨v, hv⟩ : ∃ v, r = m.kins g o.key v := h.elim (fun h => ⟨_, hinsert h⟩) fun h => ⟨_, hkeys h.1 h.2⟩
    rw [hv]
    exact m.kins_answers g o.key v
  case keysOnly =>
    rw [hkeys h hv] at hms ⊢
    exact (KMap.kins_miss hms).symm
  case zero =>
    by_cases hkey : k = o.key
    · subst hkey
      exact (hzero hv v (hb.find_self.symm.trans hf)).elim id (hall _ v)
    · exact hall k v ((hb.find_other (.inr hkey)).symm.trans hf)
  case delete =>
    obtain ⟨hb, hans⟩ := KMap.apply_delete h m g
    refine ⟨hb.find_self, ?_⟩
    rw [show r.2.ms = _ from hans]
    exact hms _

end Sys2Proof.Machine
end

section
/-! SUPPORT. Vector map operations served lane by lane (R258, R264). -/

namespace Sys2Proof.Machine

section
variable {s : State} {c : MapCopy} {e e' : Eff} {f : FmtR} {keyed : Bool} {ops : State → List MapOp} {x : State × List MapAns × Nat}

theorem serveAll_cons {region pts g : Nat} {o : MapOp} {os : List (Nat × MapOp)} (h : serveAll s region pts ((g, o) :: os) = some x) :
    let y := s.carry region o mostForwards g pts
    let z := y.1.servedAt region y.2.1 y.2.2.1 o
    y.2.2.2 = true ∧ ∃ q, serveAll z.1 region pts os = some q ∧ x = (q.1, z.2.1 :: q.2.1, max z.2.2 q.2.2) := by
  rw [serveAll] at h
  dsimp only at h
  split at h
  · next hy =>
    obtain ⟨q, hq, rfl⟩ := Option.map_eq_some_iff.mp h
    exact ⟨hy, q, hq, rfl⟩
  · cases h

theorem State.serveOps_served {r : MapReq} {g : Nat} {o : MapOp} (os : List (Nat × MapOp))
    (hy : (s.carry r.region o mostForwards g r.pts).2.2.2 = true) :
    let y := s.carry r.region o mostForwards g r.pts
    let z := y.1.servedAt r.region y.2.1 y.2.2.1 o
    s.serveOps r ((g, o) :: os) = z.1.serveOps { r with done := r.done ++ [z.2.1], ts := max r.ts z.2.2 } os := by
  rw [State.serveOps]
  exact if_pos hy

/-- Where every operation of a list is served whole, a request is answered in full. -/
theorem State.serveOps_all {r : MapReq} {os : List (Nat × MapOp)} (h : serveAll s r.region r.pts os = some x) :
    s.serveOps r os = (x.1, { r with done := r.done ++ x.2.1, ts := max r.ts x.2.2, ops := [] }) := by
  induction os generalizing s r x with
  | nil =>
    cases h
    simp [State.serveOps]
  | cons o os ih =>
    obtain ⟨g, o⟩ := o
    obtain ⟨hy, q, hq, rfl⟩ := serveAll_cons h
    refine (State.serveOps_served os hy).trans (Eq.trans (ih (x := q) ?rest) ?_)
    case rest => exact hq
    rw [List.append_assoc, max_assoc]
    rfl

theorem sendMap_all {sh : MapShape} {region : Nat} {os : List (Nat × MapOp)} (hd : s.deferNow ≠ 2)
    (h : serveAll s region e.pts os = some x) :
    sendMap s { who := s.cur, pts := e.pts, region := region, ops := os, done := [], ts := 0, shape := sh, eff := e }
      = .done (x.1.count 7) (x.1.mapEff sh e x.2.1 x.2.2) := by
  unfold sendMap
  rw [if_neg hd, State.serveOps_all h]
  simp

/-- A blocking instruction on a bound map, no posted upsert of the thread left and every way open, whose operations are all served whole. -/
theorem mapIssue_all {sh : MapShape} (hc : s.boundMap f keyed = .ok c) (he : s.afterPosted (mapNo f) e = .ok e') (hd : s.deferNow ≠ 2)
    (hway : s.mapWay c.region ((ops s).map (s.sentTo c)) = .ok ())
    (h : serveAll s c.region e'.pts ((ops s).map (s.sentTo c)) = some x) :
    mapIssue f keyed sh ops s e = .done (x.1.count 7) (x.1.mapEff sh e' x.2.1 x.2.2) := by
  unfold mapIssue
  rw [hc, Chk.res_ok, he, Chk.res_ok, hway, Chk.res_ok]
  exact sendMap_all hd h

end

/-- Settles O15: the request that the lanes make is served as their operations are in order. -/
theorem vectorMapOperationsServeTheirLanesInOrder : Obligations.VectorMapOperationsServeTheirLanesInOrder :=
  fun _ _ _ _ _ _ hc he hd => ⟨fun hr _ hway hx => exec_replies hr rfl (mapIssue_all hc he hd hway hx),
    fun hr _ hway hx => exec_replies hr rfl (mapIssue_all hc he hd hway hx)⟩

end Sys2Proof.Machine
end

section
/-! SUPPORT. Maps created, bound and inspected (R251, R253, R265-R268). -/

namespace Sys2Proof.Machine

/-! ## Sources read after the device of a reply is noted (R118) -/

section
variable (s : State) (t : Slot)

@[simp] theorem State.setThread_launch? (l : Nat) : (s.setThread t).launch? l = s.launch? l := by
  unfold State.setThread; split <;> (try split) <;> rfl

@[simp] theorem State.setThread_namedCore (c : Nat) : (s.setThread t).namedCore c = s.namedCore c := by
  simp only [State.namedCore, State.setThread_launch?]

/-- What a context of a channel bears beside its thread stands when its thread is replaced. -/
theorem State.setThread_ctx {α : Type} {ch i : Nat} (hc : s.cur = .ctx ch i) (p : Ctx → α) (hp : ∀ x t, p { x with thread := t } = p x) :
    (aget ((s.setThread t).chan ch).ctxs i).map p = (aget (s.chan ch).ctxs i).map p := by
  cases hx : aget (s.chan ch).ctxs i with
  | none => simp [State.setThread, hc, hx]
  | some x => simp [State.setThread, hc, hx, hp]

@[simp] theorem State.setThread_myCore : (s.setThread t).myCore = s.myCore := by
  unfold State.myCore
  rw [State.setThread_cur]
  cases hc : s.cur with
  | slot c k => rfl
  | ctx ch i => exact congrArg (Option.getD · 0) (s.setThread_ctx t hc _ fun _ _ => rfl)
  | sys n => simp [State.setThread, hc]

@[simp] theorem State.setThread_mySlot : (s.setThread t).mySlot = s.mySlot := by
  unfold State.mySlot
  rw [State.setThread_cur]
  cases hc : s.cur with
  | slot c k => rfl
  | ctx ch i => exact congrArg (Option.getD · 0) (s.setThread_ctx t hc _ fun _ _ => rfl)
  | sys n => rfl

theorem State.rs_setFrom (d : Nat) (b : BitVec 8) : (s.setFrom d).rs b = s.rs b := by
  have hread : (s.setFrom d).thread.read = s.thread.read := by
    obtain h | h := s.thread_setThread_cases { s.thread with peer := some d }
    · rw [State.setFrom, h]
      rfl
    · rw [State.setFrom, h]
  have hctx : (s.setFrom d).isCtx = s.isCtx := by rw [State.setFrom, State.isCtx, State.setThread_cur, State.isCtx]
  have hcore : (s.setFrom d).namedCore (s.setFrom d).myCore = s.namedCore s.myCore := by simp [State.setFrom]
  have hslot : (s.setFrom d).mySlot = s.mySlot := s.setThread_mySlot _
  unfold State.rs
  rw [hread, hctx, hcore, hslot]

theorem State.rk_setFrom (d ty : Nat) (b : BitVec 8) : (s.setFrom d).rk ty b = s.rk ty b := by
  simp only [State.rk, State.rs_setFrom]

theorem State.kmap?_setFrom (d region : Nat) : (s.setFrom d).kmap? region = s.kmap? region := by
  simp [State.kmap?, State.setFrom]

end

/-! ## KSTAT, KHASH (R268) -/

section
variable {f : FmtR} {s : State} {e e' : Eff} {c : MapCopy} {m : KMap} (hm : s.kmap? c.region = some m)
  (he : s.afterPosted (mapNo f) e = .ok e') (hway : s.descWay c.region = .ok ())
include hm he hway

theorem kstatBody_reads (hc : s.boundMap f false = .ok c) (hi : (s.rs f.a).toNat < 16) :
    kstatBody f s e = doneS ((s.setFrom (homeFold (c.region / 64) / 128)).count 7) e' f.d (BitVec.ofNat 64 (m.desc.word (s.rs f.a).toNat)) := by
  unfold kstatBody
  rw [hc, Chk.res_ok]
  dsimp only
  rw [if_neg (Nat.not_le.mpr hi), he, Chk.res_ok, hway, Chk.res_ok, State.kmap?_setFrom, hm]
  rfl

theorem khashBody_hashes (hc : s.boundMap f true = .ok c) :
    khashBody f s e = doneS ((s.setFrom (homeFold (c.region / 64) / 128)).count 7) e' f.d
      (BitVec.ofNat 64 (m.placement (s.rk f.ty.toNat f.a) (f.imm.getLsbD 8))) := by
  unfold khashBody
  rw [hc, Chk.res_ok, he, Chk.res_ok, hway, Chk.res_ok]
  dsimp only
  rw [State.kmap?_setFrom, State.rk_setFrom, hm]
  rfl

end

/-! ## KBIND (R267) -/

section
variable {f : FmtR} {s : State} {e e' : Eff} {l : Nat} (hl : s.myLaunch = some l) (he : s.afterPosted (mapNo f) e = .ok e')
  (hready : (s.rs f.a).toNat ≠ 0 → (s.rs f.a).toNat % 65536 = 0 → s.mapReady (s.rs f.a).toNat = .ok ())
  (hway : s.bindWay l (s.rs f.a).toNat = .ok ())

/-- The state in which KBIND reads the map at a region's address: its translation is entered where there is one. -/
def State.bindRead (s : State) (a : Nat) : State :=
  (if a ≠ 0 ∧ a % 65536 = 0 ∧ canonical a then s.tlbEnter s.cur a else s).count 7

/-- The map at a region's address, with its region. -/
def State.mapToBind (s : State) (a : Nat) : Option (Nat × KMap) :=
  (if a % 65536 = 0 then s.mapPage a else none).bind fun r => (s.kmap? r).map fun m => (r, m)

theorem State.mapToBind_eq_some {r : Nat} {m : KMap} {a : Nat} :
    s.mapToBind a = some (r, m) ↔ a % 65536 = 0 ∧ s.mapPage a = some r ∧ s.kmap? r = some m := by
  unfold State.mapToBind
  split
  · next h =>
    simp only [Option.bind_eq_some_iff, Option.map_eq_some_iff, Prod.mk.injEq, h, true_and]
    exact ⟨fun ⟨_, hp, _, hm, hr, hx⟩ => hr ▸ hx ▸ ⟨hp, hm⟩, fun ⟨hp, hm⟩ => ⟨r, hp, m, hm, rfl, rfl⟩⟩
  · next h => simp [h]

include hl he hready hway in
theorem kbindBody_binds : let a := (s.rs f.a).toNat; let s0 := s.bindRead a
    (a = 0 → kbindBody f s e = doneS (s0.bindMap l (mapNo f) none) e' f.d 0)
    ∧ (∀ r m, a ≠ 0 → s0.mapToBind a = some (r, m) → m.desc.valid = true →
      kbindBody f s e = doneS (s0.bindMap l (mapNo f) (some (m.copy r))) e' f.d 0)
    ∧ (a ≠ 0 → (∀ r m, s0.mapToBind a = some (r, m) → m.desc.valid = false) → kbindBody f s e = doneS s0 e' f.d 1) := by
  intro a s0
  have hchk : (if a ≠ 0 ∧ a % 65536 = 0 then s.mapReady a else .ok ()) = .ok () := by
    split
    · next h => exact hready h.1 h.2
    · rfl
  unfold kbindBody
  simp only [hl, he, Chk.res_ok]
  rw [hchk, Chk.res_ok, hway, Chk.res_ok]
  refine ⟨fun h => if_pos h, fun r m h hm hv => (if_neg h).trans ?_, fun h hno => (if_neg h).trans ?_⟩
  · split
    · next r' m' hfound =>
      cases Option.some.inj (hfound.symm.trans hm)
      exact if_pos hv
    · next hnone => cases hnone.symm.trans hm
  · split
    · next r m hfound => exact if_neg (by simp [hno r m hfound])
    · rfl

end

/-! ## KNEW (R266) -/

theorem Chk.bind_eq_ok {α β : Type} {c : Chk α} {g : α → Chk β} {b : β} (h : c.bind g = .ok b) : ∃ a, c = .ok a ∧ g a = .ok b := by
  cases c with
  | ok a => exact ⟨a, rfl, h⟩
  | bad _ | wait _ => cases h

/-- The pages found of a region are those its addresses translate to in turn, and no page follows them where they are too few. -/
theorem State.mapPages_ok {s : State} {n a : Nat} {pages : List Nat} (h : s.mapPages n a = .ok pages) :
    (∀ i p, pages[i]? = some p → s.mapPage (a + 65536 * i) = some p)
    ∧ (pages.length < n → s.mapPage (a + 65536 * pages.length) = none) := by
  induction n generalizing a pages with
  | zero =>
    cases h
    exact ⟨nofun, nofun⟩
  | succ n ih =>
    obtain ⟨-, -, h⟩ := Chk.bind_eq_ok h
    cases hp : s.mapPage a with
    | none =>
      simp only [hp] at h
      cases h
      exact ⟨nofun, fun _ => hp⟩
    | some p =>
      simp only [hp] at h
      obtain ⟨ps, hps, h⟩ := Chk.bind_eq_ok h
      cases h
      obtain ⟨hin, hend⟩ := ih hps
      have hstep (i : Nat) : a + 65536 * (i + 1) = a + 65536 + 65536 * i := by omega
      refine ⟨fun i q hq => ?_, fun hlt => ?_⟩
      · cases i with
        | zero => exact hp.trans hq
        | succ i => rw [hstep]; exact hin i q hq
      · rw [List.length_cons, hstep]
        exact hend (Nat.lt_of_succ_lt_succ hlt)

/-- The state after KNEW has read a creation record at `b` in these places, the region's address being `a`; and the record. -/
def State.creationRead (s : State) (a b : Nat) (ls : List (Nat × Loc)) : State × Nat := (s.tlbEnter s.cur a).loadSpan b ls

/-- The pages that KNEW looks for: those of the region of a valid record, else the first alone. -/
def recPages (r : Nat) : Nat := if recValid r then regionPages (recField r 8 4) else 1

/-- Whether the current launch has a map number bound to a region. -/
def State.mapUsed (s : State) (region : Nat) : Bool :=
  ((s.myLaunch.bind s.launch?).map fun l => l.maps.any fun x => x.2.region == region).getD false

section
variable {f : FmtR} {s : State} {region : Nat} {ls : List (Nat × Loc)} {pages : List Nat} (e : Eff)
  (halign : (s.rs f.a).toNat % 65536 = 0) (hready : s.mapReady (s.rs f.a).toNat = .ok ()) (hpage : s.mapPage (s.rs f.a).toNat = some region)
  (hrec : (s.rs f.b).toNat % 64 = 0) (hspan : s.reachSpan (s.rs f.b).toNat 64 .load = .ok ls)
include halign hready hpage hrec hspan

/-- KNEW once its region and its record are reached. -/
theorem knewBody_reached : let a := (s.rs f.a).toNat; let r := s.creationRead a (s.rs f.b).toNat ls; let n := recPages r.2
    r.1.mapPages n a = .ok pages → let s2 := r.1.enterPages (min n (pages.length + 1)) a
    s2.waysTo (devOf s2.myCore) (flt .prot 0 7) ((region :: pages).map fun p => homeFold (p / 64) / 128) = .ok () →
    let q := s2.createMap r.2 region s2.thread.pts pages
    knewBody f s e = if !recValid r.2 then doneS (s2.count 7) e f.d 2
      else if pages.length < n then doneS (s2.count 7) e f.d 1
      else if s2.mapUsed region then doneS (s2.count 7) e f.d 3
      else doneS (q.1.count 7) { e with pts := max e.pts q.2 } f.d 0 := by
  intro a r n hpages s2 hways q
  have hused : (match s2.myLaunch.bind s2.launch? with
      | some l => l.maps.any fun x => x.2.region == region
      | none => false) = s2.mapUsed region := by
    unfold State.mapUsed
    cases s2.myLaunch.bind s2.launch? <;> rfl
  unfold knewBody
  simp only [halign, hready, hpage, hrec, hspan, Chk.res_ok, bne_self_eq_false, Bool.false_eq_true, if_false]
  refine (Chk.res_of_ok hpages).trans ((Chk.res_of_ok hways).trans ?_)
  rw [← hused]
  rfl

end

theorem State.createMap_kmap? (s : State) (r region pts : Nat) (pages : List Nat) :
    let q := s.createMap r region pts pages
    q.1.kmap? region = some { kmapOf r pages q.2 with
      base := (s.storeGroups (s.createTs region) pts (kmapOf r pages 0).agents).2.1 } := by
  simp [State.createMap, State.kmap?, State.setKmap]

/-- Settles O16: KNEW by what its checks find, KBIND by the map at the address, KSTAT and KHASH by the descriptor. -/
theorem mapsAreMadeBoundAndRead : Obligations.MapsAreMadeBoundAndRead := by
  intro f s s1 e a b
  refine ⟨?knew, ?kbind, ?kstatKhash⟩
  case knew =>
    intro region ls pages hr halign hready hpage hrec hspan r n hpages s2 hways used ends
    have hbody := knewBody_reached e halign hready hpage hrec hspan hpages hways
    have hends : ∀ {s3 : State} {e2 : Eff} {v : Word}, knewBody f s1 e = doneS (s3.count 7) e2 f.d v → ends s3 e2 v := fun h =>
      exec_replies hr rfl h
    obtain ⟨hin, hend⟩ := State.mapPages_ok hpages
    refine ⟨hin, hend, fun hv => hends (hbody.trans (if_pos (show (!recValid r.2) = true by rw [hv]; rfl))),
      fun hv hlt => ?few, fun hv hle hused => ?used, fun hv hle hused => ⟨?made, State.createMap_kmap? ..⟩⟩
    all_goals have hvalid := hbody.trans (if_neg (show ¬(!recValid r.2) = true by rw [hv]; decide))
    case few => exact hends (hvalid.trans (if_pos hlt))
    case used => exact hends (hvalid.trans ((if_neg (Nat.not_lt.mpr hle)).trans (if_pos hused)))
    case made => exact hends (hvalid.trans ((if_neg (Nat.not_lt.mpr hle)).trans (if_neg (ne_true_of_eq_false hused))))
  case kbind =>
    intro l e' hr hl he hready hway s0 ends
    have hends : ∀ {s2 : State} {v : Word}, kbindBody f s1 e = doneS s2 e' f.d v → ends s2 v := fun h => exec_replies hr rfl h
    obtain ⟨hnone, hbinds, hno⟩ := kbindBody_binds hl he hready hway
    refine ⟨fun h => hends (hnone h), fun r m h hal hp hm hv => hends (hbinds r m h ?found hv), fun h hout => hends (hno h fun r m hfound => ?out),
      fun r h hal hp hinv => hends (hno h fun r' m hfound => ?invalid)⟩
    case found => exact State.mapToBind_eq_some.mpr ⟨hal, hp, hm⟩
    case out =>
      obtain ⟨hal, hp, -⟩ := State.mapToBind_eq_some.mp hfound
      exact hout.elim (absurd hal) fun hnone => nomatch hnone.symm.trans hp
    case invalid =>
      obtain ⟨-, hp', hm⟩ := State.mapToBind_eq_some.mp hfound
      cases hp.symm.trans hp'
      exact hinv m hm
  case kstatKhash =>
    intro c m e' hm he hway ends
    exact ⟨fun hr hc hi => exec_replies hr rfl (kstatBody_reads hm he hway hc hi),
      fun hr hc => exec_replies hr rfl (khashBody_hashes hm he hway hc)⟩

end Sys2Proof.Machine
end

section
/-! SUPPORT. The events of key-addressed maps (R255, R257-R259, R263, R269, R270). -/

namespace Sys2Proof.Machine

/-! ## Where an operation is found to be for (R255, R259, R269) -/

section
variable {m : KMap} {g : Nat} {o : MapOp} {busy : Bool}

theorem KMap.next_busy : m.next g o true = g := rfl

theorem KMap.next_key (h : o.kind ≤ 3) : m.next g o false = m.desc.hashOf o.key % 2 ^ (m.group g).level := by
  simp [KMap.next, h]

theorem KMap.next_iter_on (h : o.kind = 4) (hnone : (m.iterAt g o.x).2 = none) (hg : g + 1 < m.desc.count) : m.next g o false = g + 1 := by
  simp [KMap.next, h, hnone, hg]

theorem KMap.next_iter_here (h : o.kind = 4) (hend : (m.iterAt g o.x).2.isSome = true ∨ m.desc.count ≤ g + 1) : m.next g o busy = g := by
  obtain hs | hg := hend
  · cases busy <;> simp [KMap.next, h, Option.isSome_iff_ne_none.mp hs]
  · cases busy <;> simp [KMap.next, h, Nat.not_lt.mpr hg]

theorem KMap.next_clear (h : o.kind = 5) : m.next g o busy = g := by
  cases busy <;> simp [KMap.next, h]

end

theorem State.kmap?_setKmap_self (s : State) (region : Nat) (m : KMap) : (s.setKmap region m).kmap? region = some m := aget_aset_self ..

/-- Publication sends updates and changes no more of the map. -/
theorem State.kmap?_publish {s : State} {region : Nat} {m : KMap} (hm : s.kmap? region = some m) :
    ∃ stale, (s.publish region).kmap? region = some { m with stale := stale } := by
  simp only [State.publish, hm]
  exact ⟨_, State.kmap?_setKmap_self ..⟩

/-! ## Operations served (R257, R263, R269, R270) -/

section
variable {s : State} {region g : Nat} {m : KMap} {o : MapOp} {blocking : Bool} (pts : Nat) (hm : s.kmap? region = some m)
include hm

theorem State.serveOp_busy : s.serveOp region g pts o blocking true =
    (s.setKmap region (m.countBad msBusy blocking), { val := m.desc.dflt, cursor := BitVec.allOnes 64, ms := msBusy }, pts) := by
  simp only [State.serveOp, hm, if_true]

theorem State.serveOp_key (h : o.kind ≤ 3) : s.serveOp region g pts o blocking false =
    let a := m.apply g o
    let s1 := s.setKmap region (a.1.countBad a.2.ms blocking)
    let z := if o.kind = 0 then s1.groupLoad region g pts else s1.groupStore region g pts
    (z.1.askSplit region g (m.group g).entries.length, a.2, z.2) := by
  have hkey : s.serveOp region g pts o blocking false = s.serveKey region g pts o blocking := by
    simp only [State.serveOp, hm, Bool.false_eq_true, if_false]
    split
    · omega
    · omega
    · rfl
  rw [hkey]
  simp only [State.serveKey, hm]

theorem State.serveOp_iter (h : o.kind = 4) : s.serveOp region g pts o blocking false = s.serveIter region g pts o.x := by
  simp only [State.serveOp, hm, h, Bool.false_eq_true, if_false]

/-- A KCLR that has begun is done. -/
theorem State.serveOp_clear (h : o.kind = 5) (hc : m.desc.clearing = true) : s.serveOp region g pts o blocking false =
    let z := s.clearMap region pts
    (z.1, { val := BitVec.ofNat 64 m.desc.entries, ms := msHit }, z.2.2) := by
  have hbusy : s.mapBusy region = true := by simp [State.mapBusy, hm, hc]
  simp only [State.serveOp, hm, h, Bool.false_eq_true, if_false, State.serveClear, hbusy, if_true]
  simp only [State.clearMap, hm]

theorem State.serveIter_found {cursor : Word} {i : Nat} {x : BitVec 128 × Word} (hg : g < m.desc.count) (hx : m.iterAt g cursor = (i, some x)) :
    let z := s.groupLoad region g pts
    s.serveIter region g pts cursor
      = (z.1, { val := x.2, key := x.1, cursor := BitVec.ofNat 64 (g * 2 ^ 32 + i + 1), ms := msHit }, z.2) := by
  simp only [State.serveIter, hm, hx]
  exact if_neg (Nat.not_le.mpr hg)

theorem State.serveIter_none {cursor : Word} (hg : g < m.desc.count) (hx : (m.iterAt g cursor).2 = none) :
    let z := s.groupLoad region g pts
    s.serveIter region g pts cursor = (z.1, iterEnd, z.2) := by
  simp only [State.serveIter, hm, hx]
  exact if_neg (Nat.not_le.mpr hg)

theorem State.serveIter_past (cursor : Word) (hg : m.desc.count ≤ g) : s.serveIter region g pts cursor = (s, iterEnd, pts) := by
  simp only [State.serveIter, hm]
  exact if_pos hg

theorem State.forward_key (g' : Nat) (h : o.kind ≤ 3) : s.forward region g g' pts o
    = ((s.setKmap region { m with desc := { m.desc with forwards := m.desc.forwards + 1 } }).countFold 8 (m.agent g') 1, pts) := by
  simp only [State.forward, hm]
  exact if_neg (by omega)

theorem State.forward_iter (g' : Nat) (h : o.kind = 4) : s.forward region g g' pts o = s.groupLoad region g pts := by
  simp only [State.forward, hm, h, if_true]

theorem State.startClear_unsplit (h : m.desc.splitting = false) : s.startClear region = s.setKmap region
    { m with desc := { m.desc with clearing := true, splits := 0, forwards := 0, combined := 0, refused := 0, fulls := 0 } } := by
  have hsplit : s.doSplit region = s := by simp only [State.doSplit, hm, h, Bool.false_and, Bool.false_eq_true, if_false]
  have hpublish : s.publishSplit region = s := by simp only [State.publishSplit, hm, h, Bool.false_and, Bool.false_eq_true, if_false]
  rw [State.startClear, hsplit, hpublish]
  simp only [State.beginClear, hm]

/-- What KCLR leaves of its map: no group, the initial level, and the clock above every timestamp (R270). -/
theorem State.clearMap_leaves {n : KMap} (hn : (s.clearMap region pts).1.kmap? region = some n) :
    n.groups = [] ∧ n.desc.entries = 0 ∧ n.desc.level = m.desc.level0 ∧ n.desc.s = 0 ∧ n.desc.clearing = false ∧ n.desc.splitting = false
      ∧ n.desc.refused = m.desc.refused ∧ n.desc.wts = (s.clearMap region pts).2.2 := by
  simp only [State.clearMap, hm] at hn ⊢
  obtain ⟨stale, hstale⟩ := State.kmap?_publish (State.kmap?_setKmap_self (s.storeGroups m.topAt pts m.agents).1 region _)
  cases hstale.symm.trans hn
  exact ⟨rfl, rfl, rfl, rfl, rfl, rfl, rfl, rfl⟩

end

/-! ## The request at the head of an agent's queue (R255) -/

section
variable {s : State} {f : Nat} {r : MapReq} {rs : List MapReq} {g : Nat} {o : MapOp} {os : List (Nat × MapOp)} {m : KMap}

/-- An operation that is no upsert, or one where the environment combines none, is served alone. -/
theorem State.combineNow_alone (hops : r.ops = (g, o) :: os) (h : o.kind ≠ 2 ∨ r.busy = true ∨ s.env.combine = []) :
    s.combineNow r rs = (s, [], rs) := by
  simp only [State.combineNow, hops]
  obtain h | h | h := h
  · simp [h]
  · simp [h]
  · have hnone : combinable r.region o.key rs 0 = ([], rs) := by cases rs <;> rfl
    simp only [h, List.takeWhile_nil, List.length_nil, Nat.min_zero, List.drop_nil, hnone, ite_self]
    rw [← h]
    simp

variable (hq : (s.fold f).agentQ = r :: rs) (hops : r.ops = (g, o) :: os) (hm : (s.setAgentQ f rs).kmap? r.region = some m)
include hq hops hm

theorem mapRequestService_held (hbusy : r.busy = false) (h : (s.setAgentQ f rs).mapHeld m g o = true) :
    exec (.mapRequestService f) s = .next s := by
  simp only [exec, execMapRequestService, answer, State.serveHead, hq, hops, hm, hbusy, h, Bool.not_false, Bool.and_self, if_true]

theorem mapRequestService_begins (hbusy : r.busy = false) (hheld : (s.setAgentQ f rs).mapHeld m g o = false) (hk : o.kind = 5)
    (hc : m.desc.clearing = false) : exec (.mapRequestService f) s = .next (s.startClear r.region) := by
  simp [exec, execMapRequestService, answer, State.serveHead, hq, hops, hm, hbusy, hheld, hk, hc]

/-- An operation for another group goes on to its agent, where there is a way. -/
theorem mapRequestService_forwards {g' : Nat} (hbusy : r.busy = false) (hheld : (s.setAgentQ f rs).mapHeld m g o = false) (hk : o.kind ≠ 5)
    (hnext : m.next g o false = g') (hne : g' ≠ g) {x : State × Nat} (hx : (s.setAgentQ f rs).forward r.region g g' r.pts o = x) :
    exec (.mapRequestService f) s
      = .next (if s.agentRouted m g g' then x.1.enqueueMap { r with pts := x.2, ops := (g', o) :: os } else s) := by
  subst hx
  cases hway : s.agentRouted m g g' <;>
    simp [exec, execMapRequestService, answer, State.serveHead, hq, hops, hm, hbusy, hheld, hk, hnext, hne, hway]

/-- An operation for this group is served, where nothing is combined with it. -/
theorem mapRequestService_serves (hheld : r.busy = true ∨ (s.setAgentQ f rs).mapHeld m g o = false)
    (hclear : r.busy = true ∨ o.kind ≠ 5 ∨ m.desc.clearing = true) (hnext : m.next g o r.busy = g)
    (halone : o.kind ≠ 2 ∨ r.busy = true ∨ s.env.combine = []) {x : State × MapAns × Nat}
    (hx : (s.setAgentQ f rs).serveOp r.region g r.pts o r.blocking r.busy = x) :
    exec (.mapRequestService f) s = .next (x.1.passOn (f / 128) r x.2.1 x.2.2) := by
  subst hx
  have hstays : (!r.busy && (s.setAgentQ f rs).mapHeld m g o) = false := by
    obtain h | h := hheld <;> simp [h]
  have hbegun : ¬(o.kind = 5 ∧ (!r.busy) = true ∧ (!m.desc.clearing) = true) := by
    obtain h | h | h := hclear <;> simp [h]
  simp only [exec, execMapRequestService, answer, State.serveHead, hq, hops, hm, hstays, hbegun, hnext, ne_eq, not_true,
    Bool.false_eq_true, if_false, State.combineNow_alone hops halone, List.isEmpty_nil, if_true]
  rfl

end

/-! ## Answers (R26, R258) -/

theorem Slot.noteFence_posted (t : Slot) (mine : Cond → Bool) (w : Nat) : (t.noteFence mine w).posted = t.posted := by
  unfold Slot.noteFence
  split
  · split <;> rfl
  · rfl

theorem Core.noteFence_posted (c : Core) (mine : Cond → Bool) (w k : Nat) : ((c.noteFence mine w).slot k).posted = (c.slot k).posted := by
  unfold Core.noteFence Core.slot
  dsimp only
  rw [Vector.getElem?_map]
  cases c.slots[k]? with
  | none => rfl
  | some t => exact Slot.noteFence_posted t mine w

theorem State.count_cur (s : State) (ev : Nat) : (s.count ev).cur = s.cur := by unfold State.count; split <;> rfl

theorem State.count_dev (s : State) (ev : Nat) : (s.count ev).dev = s.dev := by unfold State.count; split <;> rfl

/-- A request of a thread that waits is answered with its instruction's effect, where a route leads back. -/
theorem State.answerMap_blocking {s : State} {r : MapReq} {d : Nat} (hb : r.blocking = true) (hw : s.awaits r.who = true)
    (hway : s.routed d (s.standsOn r.who) = true) :
    let s1 := (s.as r.who).count 7
    s.answerMap r d = s1.land (s1.mapEff r.shape r.eff r.done r.ts) := by
  intro s1
  have hdev : s1.dev = s.dev := (s.as r.who).count_dev 7
  have hopen : s1.routed d (s1.standsOn s1.cur) = true := by
    have hstands : s1.standsOn r.who = s.standsOn r.who := by unfold State.standsOn; rw [hdev]
    rw [show s1.cur = r.who from (s.as r.who).count_cur 7, hstands, ← hway]
    unfold State.routed
    rw [hdev]
  have hanswer : s.answerMap r d = s1.deliverReply d (s1.mapEff r.shape r.eff r.done r.ts) := by
    unfold State.answerMap
    split
    · next num n c k hshape hwho => simp [MapReq.blocking, hshape] at hb
    · exact if_pos hw
  exact hanswer.trans (if_pos hopen)

/-- A posted upsert that is done stands no more, and its thread's mark is at least its timestamp. -/
theorem State.answerMap_posted {s : State} {r : MapReq} {d c k num n : Nat} (hwho : r.who = .slot c k) (hshape : r.shape = .posted num n)
    (hk : k < 16) :
    aget ((s.answerMap r d).slot c k).posted n = some (max ((aget (s.slot c k).posted n).getD 0) r.ts)
    ∧ (s.answerMap r d).posted = s.posted.filter fun p => !(p.core == c && p.num == num) := by
  simp only [State.answerMap, hwho, hshape]
  refine ⟨?_, rfl⟩
  rw [State.slot, State.core_setCore_self, Core.noteFence_posted]
  refine (congrArg (fun t => aget (Slot.posted t) n) (State.slot_setSlot_self _ c _ hk)).trans ?_
  exact aget_aset_self ..

theorem State.passOn_eq (s : State) (d : Nat) (r : MapReq) (a : MapAns) (ts : Nat) :
    let r' := { r with done := r.done ++ [a], ts := max r.ts ts, ops := r.ops.tail }
    s.passOn d r a ts = if r.ops.tail = [] then s.answerMap r' d else s.enqueueMap r' := by
  simp only [State.passOn, List.isEmpty_iff]

/-! ## Posted upserts (R255, R258) -/

theorem foldl_posted {α : Type} (f : State → α → State) (h : ∀ s x, (f s x).posted = s.posted) (l : List α) (s : State) :
    (l.foldl f s).posted = s.posted := by
  induction l generalizing s with
  | nil => rfl
  | cons x l ih => exact (ih _).trans (h s x)

theorem State.skewFold_posted (s : State) (f : Nat) : (s.skewFold f).posted = s.posted := by
  exact foldl_posted (fun s c => s.setCore c ((s.core c).addFixed 13 1)) (fun _ _ => rfl) ..

theorem State.groupLoad_posted (s : State) (region g pts : Nat) : (s.groupLoad region g pts).1.posted = s.posted := by
  unfold State.groupLoad State.clampFold
  split
  · rfl
  · dsimp only
    split
    · rfl
    · exact State.skewFold_posted ..

theorem State.countFold_posted (s : State) (ev f n : Nat) : (s.countFold ev f n).posted = s.posted := by
  refine foldl_posted _ (fun s c => ?_) _ s
  rfl

theorem State.forward_posted (s : State) (region g g' pts : Nat) (o : MapOp) : (s.forward region g g' pts o).1.posted = s.posted := by
  unfold State.forward
  split
  · rfl
  · split
    · exact State.groupLoad_posted ..
    · exact State.countFold_posted ..

/-- An operation on its way leaves the posted upserts as they stand. -/
theorem State.carry_posted (s : State) (region : Nat) (o : MapOp) (n g pts : Nat) : (s.carry region o n g pts).1.posted = s.posted := by
  induction n generalizing s g pts with
  | zero => rfl
  | succ n ih =>
    unfold State.carry
    dsimp only
    split
    · rfl
    · split
      · rfl
      · split
        · rfl
        · split
          · rfl
          · exact (ih ..).trans (State.forward_posted ..)

/-- A posted upsert, number `i` of those of `s`, as it joins its agent's queue in `t`, by the environment's choice or behind others. -/
def State.postedQueued (s : State) (i : Nat) (p : Posted) (t : State) (r : MapReq) : State :=
  { t.popDefer.enqueueMap r with posted := s.posted.set i { p with queued := true } }

section
variable {s : State} {i : Nat} {p : Posted} {m : KMap} (hp : s.posted[i]? = some p) (hm : s.kmap? p.region = some m)
  (hconds : s.condsDone p.conds = true) (hnew : p.queued = false) (hway : s.routed (devOf p.core) (m.agentOf p.grp p.op / 128) = true)
  (hfirst : ∀ q ∈ s.posted.take i, ¬(q.core = p.core ∧ q.slot = p.slot ∧ q.region = p.region ∧ q.op.key = p.op.key
    ∧ s.standsAt (m.agentOf p.grp p.op) q = false))
include hp hm hconds hnew hway hfirst

/-- A posted upsert that may take effect is carried to the agent that serves it, or joins the queue of the one that it reaches. -/
theorem postedUpsertApply_due :
    let r := p.req (s.afterConds p.pts p.conds)
    let y := s.carry p.region p.op mostForwards p.grp r.pts
    let x := y.1.serveOp p.region y.2.1 r.pts p.op false (y.1.mapBusy p.region)
    exec (.postedUpsertApply i) s = .next (if s.deferNow = 2 then s.postedQueued i p s r
      else if y.2.2.2 then x.1.popDefer.passOn (m.agentOf p.grp p.op / 128) r x.2.1 x.2.2
      else s.postedQueued i p y.1 { r with ops := [(y.2.1, p.op)] }) := by
  intro r y x
  have holder : ((s.posted.take i).any fun q => q.core == p.core && q.slot == p.slot && q.region == p.region && q.op.key == p.op.key
      && !s.standsAt (m.agentOf p.grp p.op) q) = false :=
    List.any_eq_false.mpr fun q hq => by simpa [and_assoc] using hfirst q hq
  simp only [exec, execPostedUpsertApply, answer, hp, hm, holder, hnew, hconds, hway, Bool.not_true, Bool.or_self, Bool.false_eq_true, if_false]
  refine congrArg Host.Outcome.next ?_
  by_cases hd : s.deferNow = 2
  · rw [if_pos hd, if_pos hd]
    rfl
  · rw [if_neg hd, if_neg hd, State.postedQueued, ← s.carry_posted p.region p.op mostForwards p.grp r.pts]
    rfl

end

/-- An operation that finds others in the queue of its agent stays behind them. -/
theorem State.carry_queued {s : State} {region g : Nat} {o : MapOp} {m : KMap} (n pts : Nat) (hm : s.kmap? region = some m)
    (hq : (s.fold (m.agentOf g o)).agentQ ≠ []) : s.carry region o (n + 1) g pts = (s, g, pts, false) := by
  rw [State.carry, hm]
  exact if_pos (by simp [hq])

/-! ## Splits (R259) -/

theorem splitRequest_orders {s : State} {i region asker : Nat} {m : KMap} (hr : s.splitReqs[i]? = some (region, asker))
    (hm : s.kmap? region = some m) (hway : s.routed (m.agent asker / 128) (m.descAgent / 128) = true) (hsplit : m.desc.splitting = false)
    (hclear : m.desc.clearing = false) (hth : m.desc.threshold ≠ 0) (hmax : m.desc.count < m.desc.maxgroups)
    (hroom : 128 + 512 * (m.desc.count + 1) ≤ 64 * m.lowest) :
    exec (.splitRequest i) s = .next
      (State.setKmap { s with splitReqs := dropAt s.splitReqs i } region { m with desc := { m.desc with splitting := true } }) := by
  simp [exec, execSplitRequest, answer, hr, hm, hway, hsplit, hclear, hth, hmax, hroom]

theorem split_made {s : State} {region : Nat} {m : KMap} (hm : s.kmap? region = some m) (hsplit : m.desc.splitting = true)
    (hway : s.splitRouted m = true) (hnew : m.splitMade = false) (hclean : ∀ ln ∈ m.lines m.desc.s, s.dev.poisoned.contains ln = false) :
    let ts := (m.split.group m.desc.s).rts
    exec (.split region) s = .next (((s.setKmap region m.split).noteTs (m.agent m.desc.s) ts).noteTs (m.split.agent m.desc.count) ts) := by
  have hok : (m.lines m.desc.s).any s.dev.poisoned.contains = false := List.any_eq_false.mpr fun ln h => by rw [hclean ln h]; nofun
  simp [exec, execSplit, answer, State.doSplit, hm, hsplit, hway, hnew, hok]

theorem splitPublication_publishes {s : State} {region : Nat} {m : KMap} (hm : s.kmap? region = some m) (hsplit : m.desc.splitting = true)
    (hway : s.splitRouted m = true) (hmade : m.splitMade = true) :
    exec (.splitPublication region) s = .next ((s.setKmap region { m with desc := m.desc.advance }).publish region) := by
  simp [exec, execSplitPublication, answer, State.publishSplit, hm, hsplit, hway, hmade]

theorem mapCopyUpdate_arrives {s : State} {f l n : Nat} {e : MapCopy} {m : KMap} {u : Nat × Nat} {rest : List (Nat × Nat × Nat × Nat × Nat)}
    (hl : (s.fold f).launch = some l) (he : aget (s.fold f).maps n = some e) (hm : s.kmap? e.region = some m)
    (hu : takeStale f l n m.stale = some (u, rest)) (hway : s.routed (m.descAgent / 128) (f / 128) = true) :
    exec (.mapCopyUpdate f l n) s = .next ((s.setKmap e.region { m with stale := rest }).setFold f
      { s.fold f with maps := aset (s.fold f).maps n { e with level := u.1, s := u.2 } }) := by
  simp [exec, execMapCopyUpdate, answer, hl, he, hm, hu, hway]

/-- Settles O37, each event by the case of its meaning that its conditions select. -/
theorem mapAgentsAdvance : Obligations.MapAgentsAdvance := by
  refine ⟨?heads, fun s d r a ts => ⟨s.passOn_eq d r a ts, fun hb hw hway => State.answerMap_blocking hb hw hway,
      fun c k num n hwho hshape hk => State.answerMap_posted hwho hshape hk⟩, ?posted,
    fun s i region asker m hr hm hway hsplit hclear hth hmax hroom => splitRequest_orders hr hm hway hsplit hclear hth hmax hroom,
    fun s region m hm hsplit hway => ⟨fun hnew hclean => split_made hm hsplit hway hnew hclean,
      fun hmade => splitPublication_publishes hm hsplit hway hmade⟩,
    fun s f l n e m u rest hl he hm hu hway => mapCopyUpdate_arrives hl he hm hu hway⟩
  case heads =>
    intro s f r rs g o os m hq hops s0 becomes home d hm
    refine ⟨fun hb => ?busy, fun hb hheld => mapRequestService_held hq hops hm hb hheld, fun hb hheld => ?due⟩
    case busy =>
      exact mapRequestService_serves hq hops hm (.inl hb) (.inl hb) (by rw [hb, KMap.next_busy]) (.inr (.inl hb))
        (by rw [hb, State.serveOp_busy _ hm])
    have hserves : ∀ {x : State × MapAns × Nat}, o.kind ≠ 5 ∨ m.desc.clearing = true → m.next g o false = g →
        o.kind ≠ 2 ∨ s.env.combine = [] → s0.serveOp r.region g r.pts o r.blocking false = x → becomes (x.1.passOn d r x.2.1 x.2.2) := fun hclear hnext halone hx =>
      mapRequestService_serves hq hops hm (.inr hheld) (.inr hclear) (by rw [hb, hnext]) (halone.imp_right .inr) (by rw [hb, hx])
    have hforwards := fun {g'} {x} => mapRequestService_forwards hq hops hm (g' := g') (x := x) hb hheld
    refine ⟨fun hk hhome halone => ?key, fun hk hhome hway => ?forward, fun hk hhome hway => ?noWay, fun hk => ?iter,
      fun hk hclear hsplit => ?begin, fun hk hclear => ?clear⟩
    case key => exact hserves (.inl (by omega)) ((KMap.next_key hk).trans hhome) (.inr halone) (State.serveOp_key _ hm hk)
    case forward =>
      exact (hforwards (by omega) (KMap.next_key hk) hhome (State.forward_key _ hm _ hk)).trans (congrArg _ (if_pos hway))
    case noWay => exact (hforwards (by omega) (KMap.next_key hk) hhome rfl).trans (congrArg _ (if_neg (ne_true_of_eq_false hway)))
    case iter =>
      intro z
      have hreads : ∀ {x : State × MapAns × Nat}, (m.iterAt g o.x).2.isSome = true ∨ m.desc.count ≤ g + 1 →
          s0.serveIter r.region g r.pts o.x = x → becomes (x.1.passOn d r x.2.1 x.2.2) := fun hend hx =>
        hserves (.inl (by omega)) (KMap.next_iter_here hk hend) (.inl (by omega)) ((State.serveOp_iter _ hm hk).trans hx)
      refine ⟨fun i x hg hx => ?found, fun hnone hg => ?next, fun hnone hg => ?last, fun hg => ?past⟩
      case found => exact hreads (.inl (by rw [hx]; rfl)) (State.serveIter_found _ hm hg hx)
      case next => exact hforwards (by omega) (KMap.next_iter_on hk hnone hg) (Nat.succ_ne_self g) (State.forward_iter _ hm _ hk)
      case last => exact hreads (.inr hg.ge) (State.serveIter_none _ hm (by omega) hnone)
      case past => exact hreads (.inr (by omega)) (State.serveIter_past _ hm _ hg)
    case begin =>
      exact (mapRequestService_begins hq hops hm hb hheld hk hclear).trans (congrArg _ (State.startClear_unsplit (s := s) hm hsplit))
    case clear =>
      exact ⟨hserves (.inr hclear) (KMap.next_clear hk) (.inl (by omega)) (State.serveOp_clear _ hm hk hclear),
        fun n hn => State.clearMap_leaves _ hm hn⟩
  case posted =>
    intro s i p m hp hm hconds hnew hway a r y hfirst later
    have hexec := postedUpsertApply_due hp hm hconds hnew hway hfirst
    refine ⟨fun hd hy => hexec.trans (congrArg _ ((if_neg hd).trans (if_pos hy))),
      fun hd hy => hexec.trans (congrArg _ ((if_neg hd).trans (if_neg (ne_true_of_eq_false hy)))), fun hd => hexec.trans (congrArg _ (if_pos hd)),
      fun hq hnext hheld => State.carry_here _ _ hm hq hnext hheld, fun hq => State.carry_queued _ _ hm hq⟩

end Sys2Proof.Machine
end

section
/-! SUPPORT. A fault as it is taken by a slot, and the return from one (R131, R368, R370, R371, R373-R375). -/

namespace Sys2Proof.Machine

/-! ## What slots updated leave of their core and of one another -/

/-- What a core keeps of its faults: its scratchpad, where its queue stands, the records that wait, and those for the escalation. -/
def Core.faults (c : Core) : Memory × List FaultRec × List FaultRec := (c.scr, c.waitingRecs, c.escal)

theorem Core.setSlot_faults (c : Core) (k : Nat) (t : Slot) : (c.setSlot k t).faults = c.faults := rfl

theorem State.setSlot_faults (s : State) (c d k : Nat) (t : Slot) : ((s.setSlot c k t).core d).faults = (s.core d).faults := by
  unfold State.setSlot
  by_cases h : d = c
  · subst h
    rw [State.core_setCore_self, Core.setSlot_faults]
  · rw [State.core_setCore_ne _ _ h]

theorem State.dropFollowers_faults (s : State) (c k d : Nat) : ((s.dropFollowers c k).core d).faults = (s.core d).faults := by
  refine foldl_keeps (fun s : State => (s.core d).faults) (fun s x => ?_) _ s
  dsimp only
  split
  · exact State.setSlot_faults ..
  · split
    · exact State.setSlot_faults ..
    · rfl

theorem Core.watchHit_faults (c : Core) (off n ts : Nat) : (c.watchHit off n ts).faults = c.faults := by
  refine foldl_keeps Core.faults (fun c w => ?_) _ c
  dsimp only
  split <;> rfl

theorem Core.addFixed_faults (c : Core) (i n : Nat) : (c.addFixed i n).faults = c.faults := by
  unfold Core.addFixed
  split <;> rfl

/-- A store changes the scratchpad alone of what a core keeps of its faults. -/
theorem Core.scrStore_faults (c : Core) (off n v ts : Nat) :
    (c.scrStore off n v ts).1.faults = (c.scr.writeNat off n v, c.waitingRecs, c.escal) := by
  have hskew : ∀ b : Prop, ∀ [Decidable b], (if b then c else c.skewed).faults = c.faults := fun b _ => by
    split
    · rfl
    · exact Core.addFixed_faults c 13 1
  obtain ⟨hscr, hwait, hescal⟩ : _ ∧ _ ∧ _ := by simpa [Core.faults] using hskew (clampTs (c.pageTsOf (off / 4096)).2 ts = ts)
  refine (Core.watchHit_faults ..).trans ?_
  simp only [Core.faults, hscr, hwait, hescal]

/-- A part of a slot that following does not touch stands as followers leave. -/
theorem State.dropFollowers_slot {α : Type} {p : Slot → α} (hf : ∀ t : Slot, p { t.setFollow false with followBuf := [], bell := none } = p t)
    (hb : ∀ t : Slot, p { t with bell := none } = p t) (s : State) (c k d j : Nat) : p ((s.dropFollowers c k).slot d j) = p (s.slot d j) := by
  refine foldl_keeps (fun s : State => p (s.slot d j)) (fun s x => ?_) _ s
  have hset : ∀ t : Slot, p t = p (s.slot x k) → p ((s.setSlot x k t).slot d j) = p (s.slot d j) := fun t ht => by
    obtain h | ⟨⟨rfl, rfl⟩, h⟩ := State.slot_setSlot_cases s d j x k t
    · rw [h]
    · rw [h, ht]
  dsimp only
  split
  · exact hset _ (hf _)
  · split
    · exact hset _ (hb _)
    · rfl

section
variable {α : Type} {p : Slot → α} (hp : ∀ (t : Slot) (ts : Nat), p { t with ready := true, readyTs := ts } = p t)
include hp

theorem Core.setReady_slot (c : Core) (k ts j : Nat) :
    p ((c.setSlot k { c.slot k with ready := true, readyTs := ts }).slot j) = p (c.slot j) := by
  obtain h | ⟨rfl, h⟩ := c.slot_setSlot_cases j k { c.slot k with ready := true, readyTs := ts }
  · rw [h]
  · rw [h, hp]

/-- A part of a slot that ready bits do not touch stands after a store, -/
theorem Core.scrStore_slot (c : Core) (off n v ts j : Nat) : p ((c.scrStore off n v ts).1.slot j) = p (c.slot j) := by
  unfold Core.scrStore Core.watchHit
  refine (foldl_keeps (fun c : Core => p (c.slot j)) (fun c w => ?_) _ _).trans ?_
  · dsimp only
    split
    · exact Core.setReady_slot hp ..
    · rfl
  · rw [Core.slot, Core.slot]
    split
    · rfl
    · exact congrArg (fun v : Vector Slot 16 => p ((v[j]?).getD Slot.initial)) (Core.addFixed_slots c 13 1)

/-- and after a record has entered the queue. -/
theorem Core.enterRecord_slot (c : Core) (r : FaultRec) (ts j : Nat) : p ((c.enterRecord r ts).slot j) = p (c.slot j) := by
  unfold Core.enterRecord
  split
  · exact (Core.setReady_slot hp ..).trans (Core.scrStore_slot hp ..)
  · exact Core.scrStore_slot hp ..

end

/-! ## A record enters the queue (R370, R373) -/

theorem FaultRec.toNat_lt (r : FaultRec) : r.toNat < 2 ^ 256 := by
  have h1 := add_shiftLeft_lt r.pc.isLt r.addr.isLt
  have h2 := add_shiftLeft_lt h1 r.info.isLt
  have h3 := add_shiftLeft_lt h2 r.code.isLt
  have h4 := add_shiftLeft_lt h3 r.kind.isLt
  have h5 := add_shiftLeft_lt h4 r.sflags.isLt
  exact add_shiftLeft_lt h5 r.detail.isLt

/-- With room the record stands at TAIL, TAIL is raised and slot 0's ready bit set. -/
theorem Core.enterRecord_room {c : Core} (r : FaultRec) (ts : Nat) (h : c.frq.1 - c.frq.2.1 < 16) :
    (c.enterRecord r ts).scr.readNat (frqOff + 64 + 32 * (c.frq.1 % 16)) 32 = r.toNat
    ∧ (c.enterRecord r ts).scr.readNat frqOff 8 = (c.frq.1 + 1) % 2 ^ 64
    ∧ (c.enterRecord r ts).scr.readNat (frqOff + 8) 8 = c.frq.2.1 ∧ ((c.enterRecord r ts).slot 0).ready = true := by
  have henter : c.enterRecord r ts = c.placeRecord r ts := if_pos h
  have hscr : (c.enterRecord r ts).scr
      = (c.scr.writeNat (frqOff + 64 + 32 * (c.frq.1 % 16)) 32 r.toNat).writeNat frqOff 8 (c.frq.1 + 1) := by
    rw [henter]
    exact congrArg (·.1) (Core.scrStore_faults ..)
  refine ⟨?_, ?_, ?_, ?_⟩
  · rw [hscr, Memory.readNat_writeNat_out _ _ _ _ _ _ (by omega), Memory.readNat_writeNat, Nat.mod_eq_of_lt r.toNat_lt]
  · rw [hscr, Memory.readNat_writeNat]
  · rw [hscr, Memory.readNat_writeNat_out _ _ _ _ _ _ (by omega), Memory.readNat_writeNat_out _ _ _ _ _ _ (by omega)]
    rfl
  · rw [henter, Core.placeRecord, Core.slot_setSlot_self _ _ (by decide)]

/-- Without room it waits, and WAITING is raised. -/
theorem Core.enterRecord_full {c : Core} (r : FaultRec) (ts : Nat) (h : 16 ≤ c.frq.1 - c.frq.2.1) :
    (c.enterRecord r ts).scr.readNat (frqOff + 16) 8 = (c.frq.2.2 + 1) % 2 ^ 64 ∧ (c.enterRecord r ts).waitingRecs = c.waitingRecs ++ [r] := by
  have henter : c.enterRecord r ts = c.holdRecord r ts := if_neg (by omega)
  have hfaults := Core.scrStore_faults c (frqOff + 16) 8 (c.frq.2.2 + 1) ts
  simp only [Core.faults, Prod.mk.injEq] at hfaults
  obtain ⟨hscr, hwait, -⟩ := hfaults
  rw [henter]
  refine ⟨?_, congrArg (· ++ [r]) hwait⟩
  exact (congrArg (fun m => Memory.readNat m (frqOff + 16) 8) hscr).trans (Memory.readNat_writeNat ..)

/-! ## A slot that faults (R368, R375) -/

/-- A slot as it faults, with nothing of its instruction left to perform. -/
def Slot.faultedAt (t : Slot) (f : FaultInfo) : Slot :=
  { (t.setFollow false).raisePort f.port with
    st := .faulted, wait := none, followBuf := [], bell := none, stopReq := false, entry := false, again := none, vec := none }

/-- A fault, no breakpoint, of a slot that holds no capsule: the record enters the queue, or for slot 0 waits for the escalation. -/
theorem State.faultSlot_plain {s : State} {c k : Nat} {f : FaultInfo} (kind : Nat) (info : Word) (hbrk : f.brk = false) (hk : k < 16)
    (hhold : (s.slot c k).hold = none) : let s1 := s.setSlot c k ((s.slot c k).faultedAt f)
    s.faultSlot c k f kind info = State.dropFollowers
      (if k = 0 then
        let r := f.toRec 5 k (s.slot c k).pc false f.info
        s1.setCore c { s1.core c with escal := (s1.core c).escal ++ [r], broke := k :: (s1.core c).broke }
      else s1.enterRecord c (f.toRec kind k (s.slot c k).pc false info) (s.slot c k).pts) c k := by
  intro s1
  have hset : s1.setCore c (s1.core c) = s1 := by
    rw [show s1 = s.setCore c ((s.core c).setSlot k ((s.slot c k).faultedAt f)) from rfl, State.core_setCore_self, State.setCore_setCore_self]
  have hmark : ∀ r, s1.setCore c ((s1.core c).markBay k r) = s1 := fun r => by
    have hbay : (s1.core c).heldBay k = none := by
      rw [Core.heldBay, ← State.slot, State.slot_setSlot_self _ _ _ hk]
      exact hhold
    rw [Core.markBay, hbay, hset]
  unfold State.faultSlot
  extract_lets t debug caps kd r x s2 s3 y s4 r5
  have hdebug : debug = false := by simp [debug, hbrk]
  have hs3 : s3 = s1 := hmark r
  refine congrArg (fun z : State => z.dropFollowers c k) ?_
  simp only [s4, y, hs3, r, kd, caps, t, hdebug, hhold, Bool.false_or, decide_eq_true_eq, Bool.false_eq_true, if_false, Option.isSome_none]
  split
  · rfl
  · rfl

/-- Nothing of the instruction is left to perform. -/
theorem State.faultSlot_restart {s : State} {c k : Nat} (hk : k < 16) (f : FaultInfo) (kind : Nat) (info : Word) :
    let u := (s.faultSlot c k f kind info).slot c k
    u.again = none ∧ u.vec = none := by
  let p : Slot → Option Bundle × Option VecRun := fun t => (t.again, t.vec)
  have hp : p ((s.faultSlot c k f kind info).slot c k) = (none, none) := by
    unfold State.faultSlot
    extract_lets t debug caps kd r x s1 s2 y s3
    have h1 : p (s1.slot c k) = (none, none) := by rw [State.slot_setSlot_self _ _ _ hk]
    have h2 : p (s2.slot c k) = p (s1.slot c k) := by
      rw [State.slot, State.core_setCore_self, Core.slot, Core.markBay_slots]
      rfl
    have h3 : p (s3.slot c k) = p (s2.slot c k) := by
      simp only [s3]
      split
      · rw [State.slot, State.core_setCore_self]
        rfl
      · rw [State.enterRecord, State.slot, State.core_setCore_self]
        split
        · rfl
        · split
          · exact Core.scrStore_slot (p := p) (fun _ _ => rfl) ..
          · exact Core.enterRecord_slot (p := p) (fun _ _ => rfl) ..
    exact (State.dropFollowers_slot (p := p) (fun _ => rfl) (fun _ => rfl) ..).trans (h3.trans (h2.trans h1))
  exact Prod.mk.inj hp

section
variable {s : State} {c k : Nat} {f : FaultInfo} (hbrk : f.brk = false) (hk : k < 16) (hhold : (s.slot c k).hold = none)
include hbrk hk hhold

/-- The record of a slot other than 0 enters the queue of its core, where no line is poisoned (R373). -/
theorem State.faultSlot_enters (hne : k ≠ 0) (hclean : s.dev.poisoned = []) :
    let t := s.slot c k
    let u := s.faultSlot c k f 1 f.info
    let y := ((s.core c).setSlot k (t.faultedAt f)).enterRecord (f.toRec 1 k t.pc false f.info) t.pts
    (u.core c).faults = y.faults ∧ (u.slot c 0).ready = (y.slot 0).ready := by
  intro t u y
  let s1 := s.setSlot c k (t.faultedAt f)
  have hu : u = (s1.setCore c y).dropFollowers c k := by
    refine (State.faultSlot_plain 1 f.info hbrk hk hhold).trans ?_
    rw [if_neg hne, State.enterRecord_clean (s := s1) hclean, show s1.core c = (s.core c).setSlot k (t.faultedAt f) from State.core_setCore_self ..]
  rw [hu]
  refine ⟨(State.dropFollowers_faults ..).trans (by rw [State.core_setCore_self]), ?_⟩
  refine (State.dropFollowers_slot (p := Slot.ready) (fun _ => rfl) (fun _ => rfl) ..).trans ?_
  rw [State.slot, State.core_setCore_self]

/-- That of slot 0 waits for the escalation (R375). -/
theorem State.faultSlot_shepherd (h0 : k = 0) :
    ((s.faultSlot c k f 1 f.info).core c).faults = ((s.core c).scr, (s.core c).waitingRecs,
      (s.core c).escal ++ [f.toRec 5 k (s.slot c k).pc false f.info]) := by
  rw [State.faultSlot_plain 1 f.info hbrk hk hhold, if_pos h0, State.dropFollowers_faults, State.core_setCore_self]
  obtain ⟨hscr, hwait, hescal⟩ : _ ∧ _ ∧ _ := by simpa [Core.faults] using s.setSlot_faults c c k ((s.slot c k).faultedAt f)
  simp only [Core.faults, hscr, hwait, hescal]

end

/-! ## The return (R131, R374) -/

/-- A thread that was not relocated goes on from its state, its PTS raised (R131, R374). -/
theorem State.returnSlot_home {s : State} {c k : Nat} (pts : Nat) (hk : k < 16) (hreloc : (s.slot c k).reloc = none) :
    (s.returnSlot c k pts).slot c k = { s.slot c k with
      pts := max (s.slot c k).pts pts, wait := none, again := none, entry := false, wakeAt := s.ac + 1,
      ports := (s.slot c k).ports.map fun p => (p.1, p.2.retry), st := .runnable } := by
  unfold State.returnSlot
  extract_lets t x s1 t'
  have hac : s1.ac = s.ac := by
    simp only [s1]
    split <;> rfl
  have hreloc' : t'.reloc = none := hreloc
  rw [hreloc']
  simp only
  rw [State.slot_setSlot_self _ _ _ hk]
  simp only [t', t, hac]

/-- Settles O49: the fault by what a record that enters the queue, or waits, leaves of the core; the return by the slot it leaves. -/
theorem aFaultIsTakenAndReturnedFrom : Obligations.AFaultIsTakenAndReturnedFrom := by
  refine ⟨fun s f c k hcur hk hbrk hhold => ?_, fun s c k pts hk hreloc => ?_⟩
  · intro t x u tail head
    have hu : u = s.faultSlot c k f 1 f.info := by simp only [u, State.raise, hcur]
    have hrec : (x.setSlot k (t.faultedAt f)).frq = (tail, head, x.scr.readNat (frqOff + 16) 8) := rfl
    obtain ⟨hagain, hvec⟩ := State.faultSlot_restart (s := s) (c := c) hk f 1 f.info
    refine ⟨State.raise_faulted hcur hk f, by rw [hu]; exact hagain, by rw [hu]; exact hvec, (s.raise_keepsSlots f).slot c k, State.raise_mem s f,
      fun hne hclean hroom => ?room, fun hne hclean hfull => ?full, fun h0 => ?shepherd⟩
    case room =>
      obtain ⟨hfaults, hready⟩ := State.faultSlot_enters hbrk hk hhold hne hclean
      obtain ⟨hrec, htail, hhead, hbit⟩ := Core.enterRecord_room (c := x.setSlot k (t.faultedAt f)) (f.toRec 1 k t.pc false f.info) t.pts hroom
      have hscr := congrArg (·.1) hfaults
      simp only [Core.faults] at hscr
      rw [hu, hscr]
      exact ⟨hrec, htail, hhead, hready.trans hbit⟩
    case full =>
      obtain ⟨hfaults, -⟩ := State.faultSlot_enters hbrk hk hhold hne hclean
      obtain ⟨hcount, hwait⟩ := Core.enterRecord_full (c := x.setSlot k (t.faultedAt f)) (f.toRec 1 k t.pc false f.info) t.pts hfull
      simp only [Core.faults, Prod.mk.injEq] at hfaults
      obtain ⟨hscr, hrecs, -⟩ := hfaults
      rw [hu, hscr, hrecs]
      exact ⟨hcount, hwait⟩
    case shepherd =>
      have hfaults := State.faultSlot_shepherd hbrk hk hhold h0
      simp only [Core.faults, Prod.mk.injEq] at hfaults
      obtain ⟨hscr, -, hescal⟩ := hfaults
      rw [hu]
      exact ⟨hescal, hscr⟩
  · intro t u
    have hu : u = _ := State.returnSlot_home pts hk hreloc
    rw [hu]
    exact ⟨rfl, rfl, rfl, rfl, rfl, rfl, rfl, rfl, State.returnSlot_mem ..⟩

end Sys2Proof.Machine
end

section
/-! SUPPORT. The effects of the instructions of near-memory work (R272, R276, R277, R280-R283). -/

namespace Sys2Proof.Machine

section
variable {f : FmtR} {s : State} (e : Eff)

/-- The packet that XUPD or XNRM of core `c` sends to a place. -/
def State.nearPacket (s : State) (f : FmtR) (c : Nat) (atMemory : Bool) (pa : Nat) : Packet :=
  { atMemory := atMemory, core := c, slot := s.mySlot, num := (s.core c).nearNext + 1, pts := s.thread.pts, pa := pa,
    ty := f.ty.toNat, op := amoOp f, x := s.rs f.c, conds := (s.core c).fenced 6 }

/-- XUPD and XNRM of an aligned place in memory, outside the aperture and the window. -/
theorem nearIssue_sends {pa : Nat} (atMemory : Bool) (hal : (s.ea f (esize f.ty.toNat)).toNat % esize f.ty.toNat = 0)
    (hout : (s.ea f (esize f.ty.toNat)).toNat < apBase ∨ winBase + 2 ^ 22 ≤ (s.ea f (esize f.ty.toNat)).toNat)
    (hl : s.reach s.cur (s.ea f (esize f.ty.toNat)).toNat (esize f.ty.toNat) .near = .ok (.mem pa)) :
    let c := s.myCore
    let s2 := s.noteAccess (s.ea f (esize f.ty.toNat)).toNat (.mem pa)
    let s3 := s2.setCore c { s2.core c with nearNext := (s2.core c).nearNext + 1 }
    nearIssue atMemory f s e = .done { s3 with packets := s3.packets ++ [s2.nearPacket f c atMemory pa] } e := by
  unfold nearIssue
  dsimp only
  rw [if_neg (by simp [hal]), if_neg (by omega), hl]
  rfl

/-- XMIG waits for a context with the values that it has read. -/
theorem xmigBody_waits {pa : Nat} (hpa : s.nearPa (s.rs f.a).toNat 2 = .ok pa) :
    let s2 := s.tlbEnter s.cur (s.rs f.a).toNat
    xmigBody f s e = .sent (s2.setThread { s2.thread with
      reply := some { e with writes := s2.thread.liveValues (liveMask f) }, shipTo := some (channelPa pa),
      reloc := some (channelPa pa, 0, liveMask f) }) .near := by
  unfold xmigBody
  rw [hpa]
  rfl

theorem xovlBody_sets {pa : Nat} {src : List Nat} (hpa : s.nearPa (s.rs f.b).toNat 3 = .ok pa)
    (hsrc : Chk.all (fun i => s.codeLine ((s.rs f.a).toNat / 4096 * 4096 + 64 * i)) (List.range 64) = .ok src) :
    let base := (s.rs f.a).toNat / 4096 * 4096
    let r := (s.chan (channelPa pa)).overlay (f.imm.toNat % 2) (BitVec.ofNat 64 base) s.launchNo src
    xovlBody f s e = doneS (((s.tlbEnter s.cur (s.rs f.b).toNat).tlbEnter s.cur base).setChan (channelPa pa) r.1) e f.d (BitVec.ofNat 64 r.2) := by
  unfold xovlBody
  rw [hpa]
  exact Chk.res_of_ok hsrc

theorem xretBody_returns {ch i : Nat} {x : Ctx} (hc : s.cur = .ctx ch i) (hx : aget (s.chan ch).ctxs i = some x) :
    xretBody f s e = .sent (s.setChan ch { s.chan ch with ctxs := aset (s.chan ch).ctxs i { x with returning := true } }) .packets := by
  simp only [xretBody, hc, hx]

section
variable {ch me row : Nat} (hrow : s.myRow (s.rs f.a).toNat = .ok (ch, me, row))
include hrow

/-- XRLK of a row that the thread's context holds. -/
theorem xrlkBody_mine (hmine : ((s.chan ch).locks.find? fun l => l.1 == row).map (·.2.1) = some me) :
    xrlkBody f s e = doneS s e f.d 0 := by
  obtain ⟨l, hl, hme⟩ := Option.map_eq_some_iff.mp hmine
  unfold xrlkBody
  rw [hrow]
  simp only [Chk.res_ok, hl, hme, if_true]

/-- XRLK of a row that nobody holds. -/
theorem xrlkBody_free (hfree : ((s.chan ch).locks.find? fun l => l.1 == row).map (·.2.1) = none) :
    xrlkBody f s e = if 16 ≤ (s.chan ch).locks.length then doneS s e f.d 1
      else doneS (s.setChan ch { s.chan ch with locks := (s.chan ch).locks ++ [(row, me, s.launchNo)] }) e f.d 0 := by
  unfold xrlkBody
  rw [hrow]
  simp only [Chk.res_ok, Option.map_eq_none_iff.mp hfree]

theorem xrulBody_frees :
    xrulBody f s e = .done (if (s.chan ch).locks.any fun l => l.1 == row && l.2.1 == me then s.freeRow ch row else s) e := by
  unfold xrulBody
  rw [hrow]
  rfl

end
end

/-- Settles O25, each instruction by its effect with its checks passed. -/
theorem nearMemoryInstructionsComplete : Obligations.NearMemoryInstructionsComplete := by
  intro f s s1 e n a c
  refine ⟨fun pa hal hout hl => ?near, fun pa hr hpa => ?xmig, fun pa src hr hpa hsrc => ?xovl, fun ch i x hr hc hx => ?xret,
    fun ch me row hrow => ⟨fun hr => ⟨fun hmine => ?mine, fun hfree hfull => ?full, fun hfree hroom => ?free⟩, fun hr => ?xrul⟩⟩
  case near =>
    exact ⟨fun hr => exec_replies hr rfl (nearIssue_sends e true hal hout hl), fun hr => exec_replies hr rfl (nearIssue_sends e false hal hout hl)⟩
  case xmig => exact meaning_sent hr (xmigBody_waits e hpa)
  case xovl => exact exec_replies hr rfl (xovlBody_sets e hpa hsrc)
  case xret => exact meaning_sent hr (xretBody_returns e hc hx)
  case mine => exact exec_done hr rfl (xrlkBody_mine e hrow hmine)
  case full => exact exec_done hr rfl ((xrlkBody_free e hrow hfree).trans (if_pos hfull))
  case free => exact exec_done hr rfl ((xrlkBody_free e hrow hfree).trans (if_neg (Nat.not_le.mpr hroom)))
  case xrul => exact exec_done hr rfl (xrulBody_frees e hrow)

end Sys2Proof.Machine
end

section
/-! SUPPORT. Why the statement on the events of channel cores fails for a thread that returns to a context it had (O40, R278, R279): a
register of its live set that is bound to an input stream is shipped as the stream's next element, not as it stands. -/

namespace Sys2Proof.Machine

/-- A slot that TRET sends back to channel 0 with the live register g1, which holds 0 and is bound to an input stream whose next element,
5, has arrived: XMIG has shipped an element before. -/
def streamShipped : Slot :=
  { Slot.initial with
    st := .parked, wait := some .near, shipTo := some 0, reloc := some (0, 0, 2),
    ports := [(1, { kind := .input, buf := [{ val := 5, ts := 0 }] })] }

/-- The device at reset with that thread in slot 1 of core 0. -/
def streamReturns : State := State.reset.setSlot 0 1 streamShipped

theorem streamReturns_slot : streamReturns.slot 0 1 = streamShipped := State.slot_setSlot_self _ _ _ (by decide)

theorem streamReturns_way : streamReturns.routed (devOf 0) (0 / 256) = true ∧ (streamReturns.chan 0).freeCtx = some 0 := by decide +kernel

/-- The state that CONTEXT_TAKE leaves. -/
def streamTaken : State :=
  match execContextTake 0 1 streamReturns with
  | .next t => t
  | _ => streamReturns

theorem streamTaken_exec : exec (.contextTake 0 1) streamReturns = .next streamTaken := rfl

theorem streamTaken_g1 : ((aget (streamTaken.chan 0).ctxs 0).map fun x => x.thread.gr 1) = some 5 := by decide +kernel

/-- Refutes O40: the context that takes the thread back holds 5 in g1, the element that waits in the stream, where g1 is 0 as it stands. -/
theorem not_contextsAndPacketsMove : ¬ Obligations.ContextsAndPacketsMove := by
  intro h
  obtain ⟨hway, hfree⟩ := streamReturns_way
  have htakes := h.1 streamReturns 0 1 0 0 0 0 2 (by rw [streamReturns_slot]; rfl) (by rw [streamReturns_slot]; rfl) hway hfree
  obtain ⟨s2, x, hexec, hx, -, -, -, -, -, -, -, -, hregs⟩ := htakes.2 (by rw [streamReturns_slot]; rfl)
  obtain rfl : streamTaken = s2 := Host.Outcome.next.inj (streamTaken_exec.symm.trans hexec)
  have hshipped : x.thread.gr 1 = 5 := by simpa [hx] using streamTaken_g1
  have hstands : x.thread.gr 1 = 0 := (hregs 1 (by decide)).trans (by rw [streamReturns_slot]; rfl)
  exact absurd (hshipped.symm.trans hstands) (by decide)

end Sys2Proof.Machine
end

section
/-! SUPPORT. The effects of SEND, SEND.r, SEND.far, RECV, LBACK and ISTAT (R293-R295, R297-R301). -/

namespace Sys2Proof.Machine

section
variable {f : FmtR} {s : State} (e : Eff)

/-- SEND to a core that accepts the message at once. -/
theorem sendBody_accepted {t : Nat} (ht : (s.target f.a).bind s.sendTo = .ok t) (hd : (s.setFrom (devOf t)).deferNow ≠ 2)
    (hacc : (s.setFrom (devOf t)).accepts t = true) :
    let s2 := s.setFrom (devOf t)
    let m : Msg := { data := message (s2.rv 0 f.c) f.imm 1 s2.mySlot s2.myCore, ts := s2.thread.pts }
    sendBody f s e = doneS (s2.arrive { core := t, msg := m, sender := none }) e f.d 0 :=
  (Chk.res_of_ok ht).trans ((if_neg hd).trans (if_pos hacc))

/-- The register of a fill is judged between the core that SEND.r names and whether it may be sent to. -/
theorem State.target_fill {r t : Nat} (hr : r < 96) (ht : (s.target f.a).bind s.sendTo = .ok t) :
    ((s.target f.a).bind fun t => if 95 < r then .bad (flt .illegalOperand 7) else .ok t).bind s.sendTo = .ok t := by
  rw [← ht]
  cases s.target f.a with
  | ok c => simp [Chk.bind, show ¬95 < r by omega]
  | bad _ => rfl
  | wait _ => rfl

/-- SEND.r of a register that takes the fill, or whose holder does. -/
theorem sendRBody_filled {t : Nat} {s3 : State} (hr : f.imm.toNat / 256 % 128 < 96) (ht : (s.target f.a).bind s.sendTo = .ok t)
    (hd : (s.setFrom (devOf t)).deferNow ≠ 2)
    (hport : ((s.setFrom (devOf t)).slot t (f.imm.toNat % 16)).port (f.imm.toNat / 256 % 128) = none)
    (hfill : (s.setFrom (devOf t)).fillReg t (f.imm.toNat % 16) (f.imm.toNat / 256 % 128)
      (if f.imm.toNat / 256 % 128 < 64 then ((s.setFrom (devOf t)).rs f.c).setWidth 2048 else (s.setFrom (devOf t)).rv 0 f.c)
      (s.setFrom (devOf t)).thread.pts = some s3) :
    sendRBody f s e = doneS s3 e f.d (if ((s.setFrom (devOf t)).slot t (f.imm.toNat % 16)).st = .idle then 2 else 0) := by
  refine (Chk.res_of_ok (State.target_fill hr ht)).trans ?_
  simp only [hport, hd, hfill, Option.isSome_none, Bool.false_eq_true, if_false]

/-- SEND.far leaves the message, which names no sender, with the gateway (log entry 91). -/
theorem sendFarBody_leaves {t : Nat} (ht : s.target f.a = .ok t) (hb : (s.rs f.b).toNat < 2048) :
    let m : Msg := { data := message (s.rv 0 f.c) f.imm 1 s.mySlot (2 ^ 20 - 1), ts := s.thread.pts }
    sendFarBody f s e = doneS { s with far := s.far ++ [{ commons := (s.rs f.b).toNat, core := t, msg := m }] } e f.d
      (Config.farStatus s.ac s.myCore s.mySlot) :=
  (Chk.res_of_ok ht).trans (if_neg (Nat.not_le.mpr hb))

theorem recvForm_takes {m : Msg} {ms : List Msg} (nw : Bool) (hin : (s.core s.myCore).inbox = m :: ms)
    (hclean : s.spanClean s.myCore inboxOff 24 = .ok ()) :
    recvForm nw f s e = doneV (s.takeMessage s.myCore ms (max s.thread.pts m.ts)) { e with pts := max e.pts m.ts } f.d (m.data.setWidth 2048) := by
  unfold recvForm
  simp only [hin]
  exact Chk.res_of_ok hclean

theorem recvNwBody_none (hin : (s.core s.myCore).inbox = []) : recvNwBody f s e = doneV s e f.d 0 := by
  simp only [recvNwBody, recvForm, hin, if_true]

/-- LBACK into an inbox with room; held senders enter after it. -/
theorem lbackBody_enters (hroom : (s.core s.myCore).inbox.length < 32) (hclean : s.spanClean s.myCore inboxOff 24 = .ok ()) :
    let m : Msg := { data := message (s.rv 0 f.c) f.imm 3 s.mySlot s.myCore, ts := s.thread.pts }
    let s2 := s.setThread { s.thread with wait := none, st := .runnable }
    let y := (s2.core s.myCore).enterInbox m (f.mod.getLsbD 0)
    let y := if y.inbox.length = 32 ∧ !y.heldMsgs.isEmpty then y.wakeOverflow else y
    lbackBody f s e = .done ((s2.setCore s.myCore y).admitHeld s.myCore y.heldMsgs) e :=
  (if_neg (Nat.not_le.mpr hroom)).trans (Chk.res_of_ok hclean)

theorem istatBody_clean (hclean : s.spanClean s.myCore inboxOff 24 = .ok ()) :
    istatBody f s e = doneS s e f.d (BitVec.ofNat 64 (s.core s.myCore).istat) := Chk.res_of_ok hclean

end

/-- Settles O26, each instruction by its effect with its checks passed. -/
theorem messageInstructionsComplete : Obligations.MessageInstructionsComplete := by
  intro f s s1 e
  refine ⟨fun t hr ht hd hacc => exec_replies hr rfl (sendBody_accepted e ht hd hacc),
    fun t s3 hr hreg ht hd hport hfill => exec_replies hr rfl (sendRBody_filled e hreg ht hd hport hfill),
    fun t hr ht hb => exec_replies hr rfl (sendFarBody_leaves e ht hb), fun m ms hin => ?recv,
    fun hin hr => exec_done hr rfl (recvNwBody_none e hin), fun hr hroom hclean => exec_done hr rfl (lbackBody_enters e hroom hclean),
    fun hr hclean => exec_done hr rfl (istatBody_clean e hclean)⟩
  case recv =>
    intro i hi hr hclean
    obtain rfl | rfl : i = .recv f ∨ i = .recvNw f := by simpa using hi
    · exact exec_done hr rfl (recvForm_takes e false hin hclean)
    · exact exec_done hr rfl (recvForm_takes e true hin hclean)

end Sys2Proof.Machine
end

section
/-! SUPPORT. The effects of the instructions of tasks, of general queues, of the gateway block queue and of LNCH (R302-R309, R312). -/

namespace Sys2Proof.Machine

/-! ## A request that its controller answers at once -/

section
variable {f : FmtR} {s : State} (e : Eff)

/-- A request that finds nothing queued, and that the environment does not hold back, is answered in its issue. -/
theorem queueIssue_answers {fi : Nat} {op : QueueOp} {s2 : State} {a : QueueAns} (hd : (s.setFrom (fi / 128)).deferNow ≠ 2)
    (hq : ((s.setFrom (fi / 128)).fold fi).qctlQ = [])
    (ha : (s.setFrom (fi / 128)).serveQueue (s.setFrom (fi / 128)).cur (s.setFrom (fi / 128)).myCore (s.setFrom (fi / 128)).thread.pts e op
      = .answer s2 a) : queueIssue fi op s e = .done s2 (a.eff e) := by
  have hempty : (!((s.setFrom (fi / 128)).fold fi).qctlQ.isEmpty) = false := by rw [hq]; rfl
  simp only [queueIssue, hd, hempty, ha, Bool.false_eq_true, if_false]

/-! ## Tasks (R303-R306) -/

theorem spawnBody_answered (hdeque : s.hasDeque = true) (htarget : s.targetFault (s.rs f.a) = none) :
    let s2 := (s.targetFetch (s.rs f.a)).setFrom (foldOf s.myCore / 128)
    s2.deferNow ≠ 2 → (s2.fold (foldOf s.myCore)).qctlQ = [] →
      let r := s2.serveSpawn s2.myCore s2.thread.pts (s.rs f.a) (s.rs f.b) (succPc s.thread.pc 1) f.d
      spawnBody f s e = .done r.1 (r.2.eff e) := by
  intro s2 hd hq r
  have hissue : spawnBody f s e = queueIssue (foldOf s.myCore) (.spawn (s.rs f.a) (s.rs f.b) (succPc s.thread.pc 1) f.d)
      (s.targetFetch (s.rs f.a)) e := by
    simp [spawnBody, htarget, hdeque]
  exact hissue.trans (queueIssue_answers e hd hq rfl)

theorem tnextBody_answered (hdeque : s.hasDeque = true) (hd : s.deferNow ≠ 2) (hidle : s.searchIdle s.myCore = true) :
    let r := s.serveTnext s.myCore s.thread.pts f.d
    tnextBody f s e = .done r.1 (r.2.eff e) := by
  simp [tnextBody, hdeque, hd, hidle]

theorem stealBody_answered (hdeque : s.hasDeque = true) (hv : s.isCompute (s.rs f.a).toNat = true)
    (hplaced : (s.core (s.rs f.a).toNat).launch.isSome = true) (hmine : (s.core (s.rs f.a).toNat).launch = s.myLaunch)
    (hpast : pastureOf (s.rs f.a).toNat = pastureOf s.myCore) :
    let v := (s.rs f.a).toNat
    let s2 := s.setFrom (foldOf v / 128)
    s2.deferNow ≠ 2 → (s2.fold (foldOf v)).qctlQ = [] →
      let r := s2.takeTop v s2.thread.pts
      stealBody f s e = .done r.1 ((taskAns f.d r.2.1 r.2.2).eff e) := by
  intro v s2 hd hq r
  have hissue : stealBody f s e = queueIssue (foldOf v) (.steal v f.d) s e :=
    if_pos (by rw [hmine] at hplaced; simp [hdeque, hv, hplaced, hmine, hpast])
  exact hissue.trans (queueIssue_answers e hd hq rfl)

/-- JOIN of an accepted frame, whose continuation the last join answers. -/
theorem joinBody_adds {l : Loc} (hl : s.access (s.rs f.a).toNat 32 .atomic = .ok l) :
    let r := s.rmwAt (s.rs f.a).toNat l 32 1 fun old => joinFrame old f.imm.toInt
    let last := wrapNat 64 (sxInt 64 (imgGet r.2 0 8) + f.imm.toInt) = 0 ∧ imgGet r.2 8 8 ≠ 0
    joinBody f s e = .done r.1 { e with
      writes := e.writes ++ wrS f.d (BitVec.ofNat 64 (if last then imgGet r.2 8 8 else 0))
        ++ wrS (f.d + 1) (BitVec.ofNat 64 (if last then imgGet r.2 16 8 else 0)) } := by
  refine (Chk.res_of_ok hl).trans ?_
  simp only [Bool.and_eq_true, beq_iff_eq, bne_iff_ne]

/-! ## General queues (R307, R308) -/

theorem qpubBody_reached {fi : Nat} (h : s.queueAt f .atomic = .ok fi) : qpubBody f s e
    = queueIssue fi (.qpub (s.rs f.a) (s.rs f.b) (f.imm.toNat % 4) f.d) (s.tlbEnter s.cur (s.rs f.a).toNat) e := Chk.res_of_ok h

theorem qclmBody_reached {fi : Nat} (h : s.queueAt f .atomic = .ok fi) : qclmBody f s e
    = queueIssue fi (.qclm (s.rs f.a) (f.mod.getLsbD 0) f.d) (s.tlbEnter s.cur (s.rs f.a).toNat) e := Chk.res_of_ok h

theorem qstatBody_reached {fi : Nat} (h : s.queueAt f .load = .ok fi) : qstatBody f s e
    = queueIssue fi (.qstat (s.rs f.a) f.d) (s.tlbEnter s.cur (s.rs f.a).toNat) e := Chk.res_of_ok h

/-! ## The gateway block queue (R309) -/

/-- QPUB.gw: the block enters its place, or that place is taken or too far from the next to be claimed. -/
theorem qpubGwBody_published {d : Nat} (h : s.gwDie f = .ok d) :
    let s0 := s.setFrom (d / 4)
    let x := s0.die d; let v := s.rs f.b; let i := v.toNat / 2 ^ 49; let r := s0.gwStore d s0.thread.pts; let y := r.1.die d
    qpubGwBody f s e = if (aget x.gwq i).isSome = true ∨ 1024 ≤ (i + 32768 - x.gwNext) % 32768
      then doneS r.1 { e with pts := max e.pts r.2 } f.d 1
      else doneS ((r.1.setDie d { y with gwq := aset y.gwq i v }).serveGw d r.2 y.gwClaims.length) { e with pts := max e.pts r.2 } f.d 0 :=
  Chk.res_of_ok h

theorem qstatGwBody_reads {d : Nat} (h : s.gwDie f = .ok d) :
    let s0 := s.setFrom (d / 4)
    qstatGwBody f s e = doneS s0 e f.d (BitVec.ofNat 64 ((s0.die d).gwq.length * 2 ^ 16 + (s0.die d).gwNext)) := Chk.res_of_ok h

section
variable {c k : Nat} (hc : s.cur = .slot c k) (hgw : s.isGateway c = true)
include hc hgw

/-- QCLM.gw of a queue with its next block there and no claim that waits. -/
theorem qclmGwBody_takes {v : Word} : let d := dieOf c; let r := s.gwStore d s.thread.pts; let x := r.1.die d
    x.gwClaims = [] → aget x.gwq x.gwNext = some v →
      qclmGwBody f s e = .done (r.1.setDie d { x with gwq := adel x.gwq x.gwNext, gwNext := (x.gwNext + 1) % 32768 })
        { e with writes := e.writes ++ wrS f.d v ++ wrS (f.d + 1) 0, pts := max e.pts r.2 } := by
  intro d r x hclaims hv
  unfold qclmGwBody
  rw [hc]
  simp only [hgw, Bool.not_true, Bool.false_eq_true, if_false]
  rw [show (((s.gwStore (dieOf c) s.thread.pts).1.die (dieOf c)).gwClaims) = [] from hclaims]
  simp only [List.isEmpty_nil, if_true]
  rw [show aget _ _ = some v from hv]

/-- QCLM.gw under `.nw` of one whose next block has not come. -/
theorem qclmGwBody_noWait : let d := dieOf c; let r := s.gwStore d s.thread.pts; let x := r.1.die d
    aget x.gwq x.gwNext = none → f.mod.getLsbD 0 = true →
      qclmGwBody f s e = .done r.1 { e with writes := e.writes ++ wrS f.d 0 ++ wrS (f.d + 1) (BitVec.allOnes 64), pts := max e.pts r.2 } := by
  intro d r x hnone hnw
  have hnext : (if x.gwClaims.isEmpty = true then aget x.gwq x.gwNext else none) = none := by
    rw [hnone]
    exact ite_self _
  unfold qclmGwBody
  rw [hc]
  simp only [hgw, Bool.not_true, Bool.false_eq_true, if_false, hnw, if_true]
  rw [show (if ((s.gwStore (dieOf c) s.thread.pts).1.die (dieOf c)).gwClaims.isEmpty = true then _ else none) = none from hnext]

end

/-! ## LNCH (R312) -/

/-- Where the second word of a place stands. -/
def Loc.word1 : Loc → Loc
  | .mem pa => .mem (pa + 8)
  | .scr c o => .scr c (o + 8)

section
variable {la lb : Loc} (ha : (s.rs f.a).toNat % 64 = 0) (hb : (s.rs f.b).toNat % 64 = 0)
  (hlb : s.reach s.cur (s.rs f.b).toNat 64 .load = .ok lb) (hla : s.reach s.cur (s.rs f.a).toNat 64 .atomic = .ok la)
include ha hb hlb hla

/-- LNCH to a full ring reads the header and its record. -/
theorem lnchBody_full (hfull : let h := s.peek la 64; (imgGet h 8 8 + 2 ^ 64 - imgGet h 0 8) % 2 ^ 64 = imgGet h 16 4) :
    lnchBody f s e = doneS ((s.loadAt (s.rs f.b).toNat lb 64 1).1.rmwAt (s.rs f.a).toNat la 0 1 id).1 e f.d (BitVec.allOnes 64) := by
  unfold lnchBody
  dsimp only at hfull ⊢
  rw [if_neg (by simp [ha]), if_neg (by simp [hb])]
  refine (Chk.res_of_ok hlb).trans ((Chk.res_of_ok hla).trans ?_)
  simp only [hfull, beq_self_eq_true, if_true, Chk.res_ok]

/-- LNCH to a ring with room: TAIL rises above the record's place, and the record is stored at the timestamp that it took. -/
theorem lnchBody_appends {ls : Loc} : let h := s.peek la 64; let tail := imgGet h 8 8; let size := imgGet h 16 4
    let slot := (s.rs f.a + BitVec.ofNat 64 (64 + 64 * (if size = 0 then 0 else tail % size))).toNat
    (tail + 2 ^ 64 - imgGet h 0 8) % 2 ^ 64 ≠ size → s.reach s.cur slot 64 .store = .ok ls →
      let r := s.loadAt (s.rs f.b).toNat lb 64 1
      let s2 := ((r.1.raisePts ((r.1.tsAt ls).2 + 1)).rmwAt ((s.rs f.a).toNat + 8) la.word1 8 1 (· + 1)).1
      lnchBody f s e = doneS (s2.storeAt slot ls 64 1 (imgPut r.2 17 1 1)) e f.d (BitVec.ofNat 64 tail) := by
  intro h tail size slot hroom hls r s2
  have hfull : ((tail + 2 ^ 64 - imgGet h 0 8) % 2 ^ 64 == size) = false := by simpa using hroom
  unfold lnchBody
  dsimp only
  rw [if_neg (by simp [ha]), if_neg (by simp [hb])]
  refine (Chk.res_of_ok hlb).trans ((Chk.res_of_ok hla).trans ?_)
  rw [show ((imgGet (s.peek la 64) 8 8 + 2 ^ 64 - imgGet (s.peek la 64) 0 8) % 2 ^ 64 == imgGet (s.peek la 64) 16 4) = false from hfull]
  simp only [Bool.false_eq_true, if_false]
  exact Chk.res_of_ok hls

end
end

/-- Settles O27, each instruction by what its controller, die or ring answers. -/
theorem taskAndQueueInstructionsComplete : Obligations.TaskAndQueueInstructionsComplete := by
  refine ⟨fun f s s1 e hdeque => ?tasks, fun f s s1 e => ?queues⟩
  case tasks =>
    intro c ends
    exact ⟨fun hr htarget hd hq => exec_replies hr rfl (spawnBody_answered e hdeque htarget hd hq),
      fun hr hd hidle => exec_replies hr rfl (tnextBody_answered e hdeque hd hidle),
      fun hd hq hr hv hplaced hmine hpast => exec_replies hr rfl (stealBody_answered e hdeque hv hplaced hmine hpast hd hq),
      fun l hr hl => exec_replies hr rfl (joinBody_adds e hl)⟩
  case queues =>
    intro pts
    refine ⟨fun fi s2 a hd hq => ?answers, fun d hdie => ?gateway, fun c k hr hc hgw => ?claims, fun la lb hr ha hb hlb hla => ?lnch⟩
    case answers =>
      exact ⟨fun hr hfi ha => exec_replies hr rfl ((qpubBody_reached e hfi).trans (queueIssue_answers e hd hq ha)),
        fun hr hfi ha => exec_replies hr rfl ((qclmBody_reached e hfi).trans (queueIssue_answers e hd hq ha)),
        fun hr hfi ha => exec_replies hr rfl ((qstatBody_reached e hfi).trans (queueIssue_answers e hd hq ha))⟩
    case gateway =>
      exact ⟨fun hr => ⟨fun hfull => exec_replies hr rfl ((qpubGwBody_published e hdie).trans (if_pos hfull)),
        fun hroom => exec_replies hr rfl ((qpubGwBody_published e hdie).trans (if_neg hroom))⟩,
        fun hr => exec_replies hr rfl (qstatGwBody_reads e hdie)⟩
    case claims =>
      exact ⟨fun v hclaims hv => exec_replies hr rfl (qclmGwBody_takes e hc hgw hclaims hv),
        fun hnone hnw => exec_replies hr rfl (qclmGwBody_noWait e hc hgw hnone hnw)⟩
    case lnch =>
      exact ⟨fun hfull => exec_replies hr rfl (lnchBody_full e ha hb hlb hla hfull),
        fun ls hroom hls => exec_replies hr rfl (lnchBody_appends e ha hb hlb hla hroom hls)⟩

end Sys2Proof.Machine
end

section
/-! SUPPORT. In-network reduction: the contribution, a router's combination, and the total delivered (R310, R311, R338, R339). -/

namespace Sys2Proof.Machine

/-- NRED of a member that has not contributed to the open round. -/
theorem nredBody_contributes {f : FmtR} {s : State} {c k i : Nat} {t : Tree} (e : Eff) (hc : s.cur = .slot c k)
    (ht : aget s.dev.trees (f.imm.toNat % 64) = some t) (hty : t.ty = f.ty.toNat) (hmem : t.member c k = some i) (hnew : aget t.contribs i = none)
    (hway : i = 0 ∨ ∀ x, s.wayTo (devOf s.myCore) (devOf (t.node (t.node i).1).2.2) (flt .prot) ≠ .bad x) :
    nredBody f s e = .done (s.setTree (f.imm.toNat % 64) { t with
      contribs := aset t.contribs i (s.rv t.ty f.a), ts := max t.ts s.thread.pts }) e := by
  have hup : ∀ x, (if i = 0 then .ok () else s.wayTo (devOf s.myCore) (devOf (t.node (t.node i).1).2.2) (flt .prot)) ≠ Chk.bad x := fun x => by
    obtain h | h := hway
    · rw [if_pos h]; nofun
    · split
      · nofun
      · exact h x
  simp only [nredBody, ht, hty, hc, hmem, hnew, ne_eq, not_true, if_false, Option.isSome_none, Bool.false_eq_true]

/-- A router with its contribution and a way from every child's partial combines them, in ascending CORE. -/
theorem reductionCombine_combines {s : State} {n i : Nat} {x : Tree} {v : VReg} (hx : aget s.dev.trees n = some x) (hi : i < x.nodes.length)
    (hv : aget x.contribs i = some v) (hnew : aget x.partials i = none)
    (hkids : ∀ j ∈ x.children i, (aget x.partials j).isSome = true ∧ s.routed (devOf (x.node j).2.2) (devOf (x.node i).2.2) = true) :
    let r := (x.children i).foldl (fun a j => treeStep s.part.vw x.ty x.op a ((aget x.partials j).getD 0)) v
    exec (.reductionCombine n i) s = .next (s.setTree n { x with
      partials := aset x.partials i r, total := if i = 0 then some r else x.total }) := by
  have hps : ((x.children i).map fun j => if s.routed (devOf (x.node j).2.2) (devOf (x.node i).2.2) = true then aget x.partials j else none)
      = (x.children i).map fun j => aget x.partials j :=
    List.map_congr_left fun j hj => if_pos (hkids j hj).2
  have hall : (((x.children i).map fun j => aget x.partials j).any (·.isNone)) = false := by
    rw [List.any_eq_false]
    intro p hp
    obtain ⟨j, hj, rfl⟩ := List.mem_map.mp hp
    simpa [Option.isNone_iff_eq_none, Option.isSome_iff_ne_none] using (hkids j hj).1
  simp only [exec, execReductionCombine, answer, hx, hv, hnew, hps, hall, Nat.not_le.mpr hi, List.foldl_map, Option.isSome_none, Bool.or_self,
    decide_false, Bool.false_eq_true, if_false]

/-- The total fills a root register to which no port is bound, and the round closes. -/
theorem reductionTotalDelivery_fills {s s2 : State} {n : Nat} {x : Tree} {v : VReg} (hx : aget s.dev.trees n = some x) (hv : x.total = some v)
    (hport : (s.slot (x.node 0).2.2 (x.node 0).2.1).port x.rootreg = none)
    (hfill : (s.setTree n { x with contribs := [], partials := [], ts := 0, total := none }).fillReg (x.node 0).2.2 (x.node 0).2.1 x.rootreg v x.ts
      = some s2) : exec (.reductionTotalDelivery n) s = .next s2 := by
  simp only [exec, execReductionTotalDelivery, answer, hx, hv, hport, hfill, Option.isSome_none, Bool.false_eq_true, if_false]

/-- Settles O28. -/
theorem reductionsCombineAndDeliver : Obligations.ReductionsCombineAndDeliver :=
  ⟨fun _ _ _ e _ _ _ _ hr hc ht hty hmem hnew hway => exec_replies hr rfl (nredBody_contributes e hc ht hty hmem hnew hway),
    fun _ _ _ _ _ hx hi hv hnew hkids => reductionCombine_combines hx hi hv hnew hkids,
    fun _ _ _ _ _ hx hv hport hfill => reductionTotalDelivery_fills hx hv hport hfill⟩

end Sys2Proof.Machine
end

section
/-! SUPPORT. Pre-emption and resumption of a core and of a launch (R313, R378, R381). -/

namespace Sys2Proof.Machine

section
variable {f : FmtR} {s : State} (e : Eff)

/-! ## One core -/

theorem prmtBody_absent (h : s.ownCore (s.rs f.a) = none) : prmtBody f s e = doneS s e f.d 3 := by
  rw [prmtBody, h]

theorem prmtBody_core {c : Nat} (h : s.ownCore (s.rs f.a) = some c) : prmtBody f s e =
    if (s.core c).saved then doneS s e f.d 2
    else if s.coreEnding c then doneS s e f.d 1
    else if s.quietCore c then doneS (s.saveCore c) e f.d 0
    else .sent ((s.stopCores [c]).spillHeld c) (.quiet [c]) := by
  rw [prmtBody, h]

theorem resmBody_absent (h : s.ownCore (s.rs f.a) = none) : resmBody f s e = doneS s e f.d 3 := by
  rw [resmBody, h]

section
variable {c : Nat} (h : s.ownCore (s.rs f.a) = some c)
include h

theorem resmBody_running (hs : (s.core c).saved = false) : resmBody f s e = doneS s e f.d 2 := by
  simp only [resmBody, h, hs, Bool.not_false, if_true]

theorem resmBody_aborted (hs : (s.core c).saved = true) (ha : s.coreAborted c = true) : resmBody f s e = doneS s e f.d 3 := by
  simp only [resmBody, h, hs, ha, Bool.not_true, Bool.false_eq_true, if_false, if_true]

section
variable (hs : (s.core c).saved = true) (ha : s.coreAborted c = false)
include hs ha

/-- RESM of a saved core whose launch is none that there is. -/
theorem resmBody_restores (hl : ((s.resumeCore c).core c).launch.bind (s.resumeCore c).launch? = none) :
    resmBody f s e = doneS (s.resumeCore c) e f.d 0 := by
  simp only [resmBody, h, hs, ha, Bool.not_true, Bool.false_eq_true, if_false]
  cases hn : ((s.resumeCore c).core c).launch with
  | none => rfl
  | some n =>
    have hnone : (s.resumeCore c).launch? n = none := by simpa [hn] using hl
    simp only [hnone]

/-- RESM of a saved core of a launch. -/
theorem resmBody_restoresIn {n : Nat} {y : Launch} (hn : ((s.resumeCore c).core c).launch = some n) (hy : (s.resumeCore c).launch? n = some y) :
    resmBody f s e = doneS (if y.st = .preempted then (s.resumeCore c).setLaunch n { y with st := .running } else s.resumeCore c) e f.d 0 := by
  simp only [resmBody, h, hs, ha, hn, hy, Bool.not_true, Bool.false_eq_true, if_false]

end
end

/-! ## A launch -/

theorem prmtLBody_absent (h : s.liveLaunch (s.rs f.a).toNat = none) : prmtLBody f s e = doneS s e f.d 3 := by
  simp only [prmtLBody, h]

theorem resmLBody_absent (h : s.liveLaunch (s.rs f.a).toNat = none) : resmLBody f s e = doneS s e f.d 3 := by
  simp only [resmLBody, h]

section
variable {l : Launch} (h : s.liveLaunch (s.rs f.a).toNat = some l)
include h

theorem prmtLBody_preempted (hst : l.st = .preempted) : prmtLBody f s e = doneS s e f.d 2 := by
  simp only [prmtLBody, h, hst]

/-- The cores of a launch that PRMT.l has still to save. -/
def State.liveCores (s : State) (l : Launch) : List Nat :=
  (coresOfPlacement l.folds l.desc.cores).filter fun c => !(s.core c).saved && !s.coreEnding c

section
variable (hst : l.st = .running) (hended : ((coresOfPlacement l.folds l.desc.cores).all fun c => (s.slot c 0).st == .ended) = false)
include hst hended

/-- PRMT.l of a running launch whose live cores, and with `.rel` folds, are quiet. -/
theorem prmtLBody_saves (hquiet : (s.liveCores l).all s.quietCore = true) (hrel : f.mod.getLsbD 1 = false ∨ s.quietFolds l.folds = true) :
    let n := (s.rs f.a).toNat
    let s2 := (coresOfPlacement l.folds l.desc.cores).foldl (fun s c => s.setCore c { s.core c with saved := true })
      ((s.liveCores l).foldl State.saveCore s)
    let s3 := s2.setLaunch n { (s2.launch? n).getD l with st := .preempted }
    prmtLBody f s e = doneS (if f.mod.getLsbD 1 then s3.release n else s3) e f.d 0 := by
  have hgo : ((s.liveCores l).all s.quietCore && (!f.mod.getLsbD 1 || s.quietFolds l.folds)) = true := by
    simpa [hquiet] using hrel
  simp only [prmtLBody, h, hst, hended, Bool.false_eq_true, if_false]
  exact if_pos hgo

/-- PRMT.l of one with a core or field command still at work: it saves what is quiet and stops the others. -/
theorem prmtLBody_waits (hbusy : ¬((s.liveCores l).all s.quietCore = true ∧ (f.mod.getLsbD 1 = false ∨ s.quietFolds l.folds = true))) :
    let rest := (s.liveCores l).filter fun c => !s.quietCore c
    let s2 := if (s.liveCores l).all fun c => !s.quietCore c then (s.liveCores l).foldl State.spillHeld s
      else ((s.liveCores l).filter s.quietCore).foldl State.saveCore s
    prmtLBody f s e = .sent (s2.stopCores rest) (.quiet rest) := by
  have hstay : ¬((s.liveCores l).all s.quietCore && (!f.mod.getLsbD 1 || s.quietFolds l.folds)) = true := by
    simpa using hbusy
  have hnone : ((s.liveCores l).filter s.quietCore).isEmpty = (s.liveCores l).all fun c => !s.quietCore c := by
    rw [Bool.eq_iff_iff]
    simp
  simp only [prmtLBody, h, hst, hended, Bool.false_eq_true, if_false]
  rw [← hnone]
  exact if_neg hstay

end

theorem resmLBody_aborted (ha : l.aborted = true) : resmLBody f s e = doneS s e f.d 3 := by
  simp only [resmLBody, h, ha, if_true]

theorem resmLBody_running (ha : l.aborted = false) (hst : l.st ≠ .preempted) : resmLBody f s e = doneS s e f.d 2 := by
  simp only [resmLBody, h, ha, Bool.false_eq_true, if_false]
  exact if_pos hst

/-- RESM.l of a launch that kept its folds. -/
theorem resmLBody_restores (ha : l.aborted = false) (hst : l.st = .preempted) (hkept : l.released = none) :
    let n := (s.rs f.a).toNat
    let s2 := ((coresOfPlacement l.folds l.desc.cores).filter fun c => (s.core c).saved).foldl State.resumeCore s
    resmLBody f s e = doneS (s2.setLaunch n { (s2.launch? n).getD l with st := .running }) e f.d 0 := by
  simp only [resmLBody, h, ha, hst, hkept, ne_eq, not_true, Bool.false_eq_true, if_false]

end
end

/-- Settles O32, each instruction by the core or launch that it names. -/
theorem preemptionAndResumptionComplete : Obligations.PreemptionAndResumptionComplete := by
  intro f s s1 e n ends
  have hends : ∀ {i : Instr} {body : State → Eff → Res} {s2 : State} {v : Word}, Ready i s s1 e → exec i s = meaning i (some .reply) body s →
      body s1 e = doneS s2 e f.d v → ends i s2 v := fun hr hi hb => exec_replies hr hi hb
  refine ⟨fun hr => ⟨fun h => hends hr rfl (prmtBody_absent e h), fun c h => ?prmt⟩,
    fun hr => ⟨fun h => hends hr rfl (resmBody_absent e h), fun c h => ?resm⟩,
    fun hr => ⟨fun h => hends hr rfl (prmtLBody_absent e h), fun l h => ?prmtL⟩,
    fun hr => ⟨fun h => hends hr rfl (resmLBody_absent e h), fun l h => ?resmL⟩⟩
  case prmt =>
    have hb := prmtBody_core e h
    exact ⟨fun hs => hends hr rfl (hb.trans (if_pos hs)),
      fun hs he => hends hr rfl (hb.trans ((if_neg (ne_true_of_eq_false hs)).trans (if_pos he))),
      fun hs he hq => hends hr rfl (hb.trans ((if_neg (ne_true_of_eq_false hs)).trans ((if_neg (ne_true_of_eq_false he)).trans (if_pos hq))))⟩
  case resm =>
    exact ⟨fun hs => hends hr rfl (resmBody_running e h hs), fun hs ha => hends hr rfl (resmBody_aborted e h hs ha),
      fun hs ha => ⟨fun hl => hends hr rfl (resmBody_restores e h hs ha hl), fun n y hn hy => hends hr rfl (resmBody_restoresIn e h hs ha hn hy)⟩⟩
  case prmtL =>
    exact ⟨fun hst => hends hr rfl (prmtLBody_preempted e h hst),
      fun hst hended hquiet hrel => hends hr rfl (prmtLBody_saves e h hst hended hquiet hrel),
      fun hst hended hbusy => meaning_sent hr (prmtLBody_waits e h hst hended hbusy)⟩
  case resmL =>
    exact ⟨fun ha => hends hr rfl (resmLBody_aborted e h ha), fun ha hst => hends hr rfl (resmLBody_running e h ha hst),
      fun ha hst hkept => hends hr rfl (resmLBody_restores e h ha hst hkept)⟩

end Sys2Proof.Machine
end

section
/-! SUPPORT. Messages, far messages, requests to queue controllers and capsules, as they move (R287, R294, R295, R298, R302, R305, R308,
R309, R319, R320). -/

namespace Sys2Proof.Machine

/-! ## Messages (R294, R295, R298) -/

section
variable {s : State} {i : Nat} {f : MsgFlight}

/-- A message whose way is open arrives, where no earlier one of a gateway to its core stands before it. -/
theorem messageArrival_arrives (hf : s.msgs[i]? = some f) (hway : s.wayOpen f.sender f.core = true)
    (hfirst : f.sender = none → ∀ g ∈ s.msgs.take i, ¬(g.sender = none ∧ g.core = f.core)) :
    exec (.messageArrival i) s = .next (State.arrive { s with msgs := dropAt s.msgs i } f) := by
  have hfree : (f.sender.isNone && (s.msgs.take i).any fun g => g.sender.isNone && g.core == f.core) = false := by
    rw [Bool.and_eq_false_imp]
    intro hnone
    rw [List.any_eq_false]
    intro g hg
    simpa using hfirst (Option.isNone_iff_eq_none.mp hnone) g hg
  simp only [exec, execMessageArrival, answer, hf, hfree, hway, Bool.not_true, Bool.or_self, Bool.false_eq_true, if_false]

/-- Into an inbox with room, where nobody is held, it enters at once. -/
theorem State.arrive_enters {s : State} (hsaved : (s.core f.core).saved = false) (hroom : (s.core f.core).inbox.length < 32)
    (hheld : (s.core f.core).heldMsgs = []) (hclean : s.inboxBad f.core = none) :
    s.arrive f = (s.setCore f.core ((s.core f.core).enterInbox f.msg false)).answerStatus f.core f.sender 0 := by
  simp [State.arrive, hsaved, hroom, hheld, hclean]

end

/-! ## Far messages (R287, R294) -/

section
variable {s : State} {i : Nat}

theorem gatewayRelay_accepts {m : FarMsg} {ms : List FarMsg} (hnone : s.far[i]? = none) (hm : s.env.far = m :: ms) :
    exec (.gatewayRelay i) s = .next { s with far := s.far ++ [m], env := { s.env with far := ms } } := by
  simp only [exec, execGatewayRelay, answer, hnone, hm]

section
variable {m : FarMsg} (hm : s.far[i]? = some m) (hfirst : ∀ q ∈ s.far.take i, ¬(q.commons = m.commons ∧ q.core = m.core))
include hfirst

theorem State.farOldest : ((s.far.take i).any fun q => q.commons == m.commons && q.core == m.core) = false := by
  rw [List.any_eq_false]
  intro q hq
  simpa using hfirst q hq

include hm

/-- A far message of this commons is delivered to a core that there is. -/
theorem gatewayRelay_delivers (hhere : m.commons = s.dev.commons) (hcore : s.isCompute m.core = true ∨ s.isGateway m.core = true) :
    exec (.gatewayRelay i) s = .next { s with
      far := dropAt s.far i, msgs := s.msgs ++ [{ core := m.core, msg := m.msg, sender := none }] } := by
  have hthere : (s.isCompute m.core || s.isGateway m.core) = true := by simpa using hcore
  simp only [exec, execGatewayRelay, answer, hm, State.farOldest hfirst, hthere, eq_true hhere, Bool.false_eq_true, if_false, if_true]

/-- One of another commons leaves on a link that leads out. -/
theorem gatewayRelay_leaves (haway : m.commons ≠ s.dev.commons)
    (hlink : (s.dev.links.any fun l => l.2.route != 0 && l.2.commons != s.dev.commons) = true) :
    exec (.gatewayRelay i) s = .next { s with far := dropAt s.far i, dev := { s.dev with farOut := s.dev.farOut ++ [m] } } := by
  simp only [exec, execGatewayRelay, answer, hm, State.farOldest hfirst, hlink, haway, Bool.false_eq_true, if_false, if_true]

end
end

/-! ## Requests to queue controllers (R302, R305, R308, R309) -/

/-- What the controller of fold `f` does with its oldest request `r`, as that is served in `s2`, the state without it. -/
def State.afterServed (s s2 : State) (f : Nat) (r : QueueReq) (rs : List QueueReq) : Served → State
  | .answer s3 a => s3.complete (f / 128) r.who (a.eff r.eff)
  | .waits s3 => s3
  | .again => { s.setFold f { s.fold f with qctlQ := s.passed r rs false } with env := { s.env with walk := s.env.walk.tail } }
  | .noRoom => s.setFold f { s.fold f with qctlQ := s.passed r rs true }
  | .fault g => (s2.as r.who).fail g
  | .onward s3 fi op pts => s3.enqueue fi { r with op := op, pts := pts }

theorem queueRequestService_serves {s : State} {f : Nat} {r : QueueReq} {rs : List QueueReq} (hq : (s.fold f).qctlQ = r :: rs) :
    let s2 := s.setFold f { s.fold f with qctlQ := rs }
    s2.awaits r.who = true → exec (.queueRequestService f) s
      = .next (s.afterServed s2 f r rs (s2.serveQueue r.who (s2.as r.who).myCore r.pts r.eff r.op)) := by
  intro s2 hw
  simp only [exec, execQueueRequestService, answer, hq]
  rw [if_neg (show ¬(!s2.awaits r.who) = true by simp [hw])]
  cases s2.serveQueue r.who (s2.as r.who).myCore r.pts r.eff r.op <;> rfl

/-- The requests of other queues go before one that cannot be served yet, those of its own stay behind it. -/
theorem State.passed_eq (s : State) (r : QueueReq) (rs : List QueueReq) (claims : Bool) :
    s.passed r rs claims = (rs.filter fun q => !(s.sameQueue r q && (!claims || q.op.isClaim))) ++ r ::
      rs.filter fun q => s.sameQueue r q && (!claims || q.op.isClaim) := by
  simp only [State.passed, List.partition_eq_filter_filter]
  rfl

/-! ## Capsules (R319, R320) -/

/-- The oldest capsule in store for its place enters the free bay of the core that takes it, the cursor of its place moving there. -/
theorem capsuleDelivery_delivers {s : State} {i ln j c b : Nat} {l : Launch} {x : Capsule} (hi : transitAt s.dev.launches i = some (ln, j))
    (hl : s.launch? ln = some l) (hx : l.transit[j]? = some x) (hstore : s.inStore x = true)
    (hfirst : ∀ y ∈ l.transit.take j, y.place ≠ x.place ∨ s.inStore y = false) (hc : s.taker ln l x = some c)
    (hb : (s.core c).freeBay = some b) (hclean : s.bayBad c = none) :
    let s2 := s.setLaunch ln { l with transit := dropAt l.transit j }
    let cursors := match x.place with
      | .core _ => s.dev.placeCursors
      | p => aset s.dev.placeCursors (placeKey p) c
    let s3 : State := { s2 with dev := { s2.dev with placeCursors := cursors } }
    exec (.capsuleDelivery i) s = .next (s3.setCore c ((s3.core c).deliver b x l.handlers)) := by
  have holder : ((l.transit.take j).any fun y => y.place == x.place && s.inStore y) = false := by
    rw [List.any_eq_false]
    intro y hy
    obtain h | h := hfirst y hy <;> simp [h]
  intro s2 cursors s3
  have hb3 : (s3.core c).freeBay = some b := hb
  simp only [exec, execCapsuleDelivery, answer, hi, State.deliverFrom, hl, hx, hstore, holder, hc, hclean, Bool.not_true, Bool.or_self,
    Bool.false_eq_true, if_false, Option.isSome_none]
  exact congrArg (fun o => Host.Outcome.next (match o with
    | some b => s3.setCore c ((s3.core c).deliver b x l.handlers)
    | none => s3)) hb3

/-- Settles O39, each event by the case that its conditions select. -/
theorem messagesQueuesAndCapsulesMove : Obligations.MessagesQueuesAndCapsulesMove := by
  refine ⟨fun s i f hf hway hfirst => ⟨messageArrival_arrives hf hway hfirst, fun hsaved hroom hheld hclean => ?enters⟩,
    fun s i m ms hnone hm => gatewayRelay_accepts hnone hm,
    fun s i m hm hfirst => ⟨fun hhere hcore => gatewayRelay_delivers hm hfirst hhere hcore,
      fun haway hlink => gatewayRelay_leaves hm hfirst haway hlink⟩, fun s f r rs hq hw => ?queue,
    fun s i ln j l x c b hi hl hx hstore hfirst hc hb hclean => capsuleDelivery_delivers hi hl hx hstore hfirst hc hb hclean⟩
  case enters =>
    exact (messageArrival_arrives hf hway hfirst).trans
      (congrArg _ (State.arrive_enters (s := { s with msgs := dropAt s.msgs i }) hsaved hroom hheld hclean))
  case queue =>
    intro served
    have hends : ∀ x, served = x → exec (.queueRequestService f) s = .next (s.afterServed (s.setFold f { s.fold f with qctlQ := rs }) f r rs x) :=
      fun x h => h ▸ queueRequestService_serves hq hw
    exact ⟨fun _ _ h => hends _ h, fun _ h => hends _ h, fun h => hends _ h, fun h => hends _ h, s.passed_eq r rs, fun _ h => hends _ h,
      fun _ _ _ _ h => hends _ h⟩

end Sys2Proof.Machine
end

section
/-! SUPPORT. The effects of TRAP, BRKP, SYSC, FLTRD and FLTRD.peek (R385-R387). -/

namespace Sys2Proof.Machine

/-- A software trap is raised alone: it names no branch target and no translated address. -/
theorem fail_swTrap (s : State) (f : FmtR) (info : Word) (brk : Bool) : s.fail (swTrap f info brk) = s.raise (swTrap f info brk) :=
  fail_raise (by simp [swTrap]) rfl rfl

section
variable {f : FmtR} {s : State} (e : Eff)

/-- SYSC with room in the device exception queue. -/
theorem syscBody_sent (h : s.dev.excq.length < 4096) :
    let d := s.dev
    let r : SysReq := { who := s.cur, call := f.imm.toNat % 2 ^ 16, a := s.rs f.a, b := s.rs f.b, d := f.d, eff := e }
    syscBody f s e = .sent { s with sysc := s.sysc ++ [r], dev := { d with excq := d.excq ++ [s.syscEntry f], excCount := d.excCount + 1 } } .served :=
  if_neg (Nat.not_le.mpr h)

/-- The reader's effect: the page as the access leaves it, and four words to D on. -/
def fltrdDone (s : State) (c : Nat) (y : Core) (d : BitVec 8) (w0 w1 w2 w3 : Word) (e : Eff) : Res :=
  .done (s.setCore c y)
    { e with writes := e.writes ++ (wrS d w0 ++ wrS (d + 1) w1 ++ wrS (d + 2) w2 ++ wrS (d + 3) w3), pts := max e.pts (y.pageTsOf 1023).1 }

variable {c k : Nat} (hcur : s.cur = .slot c k) (hpin : (s.core c).unpinned 1023 = false) (hhead : s.spanClean c frqOff 24 = .ok ())
include hcur hpin hhead

/-- With no record waiting both readers write zeros. -/
theorem fltrdForm_empty (peek : Bool) (hq : (s.core c).frq.1 = (s.core c).frq.2.1) :
    fltrdForm peek f s e = fltrdDone s c ((s.core c).scrStore frqOff 0 0 s.thread.pts).1 f.d 0 0 0 0 e := by
  simp only [fltrdForm, hcur, hpin, Bool.false_eq_true, if_false, hhead, Chk.res_ok, hq, if_true]
  rfl

/-- With a record waiting its words are written; FLTRD removes it and admits the next where its place is clean. -/
theorem fltrdForm_record (peek : Bool) (hq : (s.core c).frq.1 ≠ (s.core c).frq.2.1)
    (hrec : s.spanClean c (frqOff + 64 + 32 * ((s.core c).frq.2.1 % 16)) 32 = .ok ()) :
    let x := s.core c
    let q := x.frq
    let w := fun i : Nat => BitVec.ofNat 64 (x.scr.readNat (frqOff + 64 + 32 * (q.2.1 % 16) + 8 * i) 8)
    let r := if peek then x.scrStore frqOff 0 0 s.thread.pts else x.scrStore (frqOff + 8) 8 (q.2.1 + 1) s.thread.pts
    fltrdForm peek f s e =
      fltrdDone s c (if peek || (s.tailBad c).isSome then r.1 else r.1.admitWaiting r.2) f.d (w 0) (w 1) (w 2) (w 3) e := by
  simp only [fltrdForm, hcur, hpin, Bool.false_eq_true, if_false, hhead, Chk.res_ok, if_neg hq, hrec]
  rfl

end

/-- Settles O33, each instruction by its effect with its checks passed. -/
theorem trapsAndSystemCallsTakeEffect : Obligations.TrapsAndSystemCallsTakeEffect := by
  intro f s s1 e
  refine ⟨fun hr => (meaning_fault hr rfl).trans (congrArg _ (fail_swTrap s f _ false)),
    fun hr => (meaning_fault hr rfl).trans (congrArg _ (fail_swTrap s f 0 true)),
    fun hr h => meaning_sent hr (syscBody_sent e h), fun c k hcur hpin hhead => ⟨fun hq => ?empty, fun hq hrec => ⟨fun hr => ?peek, fun hr => ?take⟩⟩⟩
  case empty =>
    intro i hi hr
    obtain rfl | rfl : i = .fltrd f ∨ i = .fltrdPeek f := by simpa using hi
    · exact exec_replies hr rfl (fltrdForm_empty e hcur hpin hhead false hq)
    · exact exec_replies hr rfl (fltrdForm_empty e hcur hpin hhead true hq)
  case peek => exact exec_replies hr rfl (fltrdForm_record e hcur hpin hhead true hq hrec)
  case take => exact exec_replies hr rfl (fltrdForm_record e hcur hpin hhead false hq hrec)

end Sys2Proof.Machine
end

section
/-! SUPPORT. The effects of PLSET, PLGET, PLINV, HTSET, TRSET and TRSET.clr (R336-R338, R347-R349). -/

namespace Sys2Proof.Machine

section
variable {f : FmtR} {s : State} (e : Eff) {l : Nat} (hl : s.tableLaunch = .ok l)
include hl

section
variable {loc : Loc} (ha : (s.rs f.a).toNat % 64 = 0) (hloc : s.access (s.rs f.a).toNat 64 .load = .ok loc)
include ha hloc

theorem plsetBody_valid (hv : platValid (BitVec.ofNat 512 (s.loadAt (s.rs f.a).toNat loc 64 1).2) = true) (hw : s.launchWay l = .ok ()) :
    let r := s.loadAt (s.rs f.a).toNat loc 64 1
    plsetBody f s e = doneS (r.1.setPlat l (platNoOf f) (some (BitVec.ofNat 512 r.2))) e f.d 0 := by
  simp only [plsetBody, hl, Chk.res_ok, ha, bne_self_eq_false, Bool.false_eq_true, if_false, hloc, hv, Bool.not_true, hw]

theorem plsetBody_invalid (hv : platValid (BitVec.ofNat 512 (s.loadAt (s.rs f.a).toNat loc 64 1).2) = false) :
    plsetBody f s e = doneS (s.loadAt (s.rs f.a).toNat loc 64 1).1 e f.d 1 := by
  simp only [plsetBody, hl, Chk.res_ok, ha, bne_self_eq_false, Bool.false_eq_true, if_false, hloc, hv, Bool.not_false, if_true]

end

theorem plgetBody_reads (ha : (s.rs f.a).toNat ≤ 7) :
    plgetBody f s e = doneS s e f.d (BitVec.ofNat 64 (lineField ((aget (s.fold (foldOf s.myCore)).plats (platNoOf f)).getD 0) (8 * (s.rs f.a).toNat) 8)) :=
  (Chk.res_of_ok hl).trans (if_neg (Nat.not_lt.mpr ha))

theorem plinvBody_clears (hw : s.launchWay l = .ok ()) : plinvBody f s e = .done (s.setPlat l (platNoOf f) none) e :=
  (Chk.res_of_ok hl).trans (Chk.res_of_ok hw)

theorem htsetBody_refused (h0 : s.rs f.a ≠ 0) (hslot : isSlotAddr (s.rs f.a) = false) : htsetBody f s e = doneS s e f.d 1 :=
  (Chk.res_of_ok hl).trans (if_pos (by rw [bne_iff_ne.mpr h0, hslot]; rfl))

theorem htsetBody_sets {x : Launch} (hx : s.launch? l = some x) (hp : s.rs f.a = 0 ∨ isSlotAddr (s.rs f.a) = true) (hw : s.launchWay l = .ok ()) :
    let i := f.imm.toNat % 256
    htsetBody f s e = doneS (s.setLaunch l { x with handlers := aset x.handlers i (s.rs f.a), hcount := max x.hcount (i + 1) }) e f.d 0 := by
  refine (Chk.res_of_ok hl).trans ((if_neg ?_).trans ?_)
  · obtain h0 | hslot := hp <;> simp [*]
  · simp only [hx, hw, Chk.res_ok]

/-! ## TRSET -/

/-- What TRSET answers when the nodes are read, into the state `s2` with the bytes `d`: 1, 2 and 3 in this order (log entry 46). -/
def trsetAnswer (f : FmtR) (s s2 : State) (e : Eff) (l head d : Nat) : Res :=
  let n := f.imm.toNat % 64
  let cnt := imgGet head 4 2
  let old := aget s.dev.trees n
  if !s2.treeNodesOk l d cnt then doneS s2 e f.d 1
  else if (old.map Tree.isOpen).getD false then doneS s2 e f.d 2
  else if (old.map fun t => t.owner != l).getD false then doneS s2 e f.d 3
  else (s.launchWay l).res fun _ =>
    doneS (s2.setTree n {
      owner := l, ty := imgGet head 0 1, op := imgGet head 1 1, rootreg := imgGet head 2 1, nodes := treeNodes d cnt,
      contribs := [], partials := [], ts := 0, total := none }) e f.d 0

section
variable {hs : List (Nat × Loc)} (ha : (s.rs f.a).toNat % 64 = 0) (hhead : s.reachSpan (s.rs f.a).toNat 16 .load = .ok hs)
include ha hhead

theorem trsetBody_badHead (hd : treeHeadOk (s.loadSpan (s.rs f.a).toNat hs).2 = false) :
    trsetBody f s e = doneS (s.loadSpan (s.rs f.a).toNat hs).1 e f.d 1 := by
  simp only [trsetBody, hl, Chk.res_ok, ha, bne_self_eq_false, Bool.false_eq_true, if_false, hhead, hd, Bool.not_false, if_true]

theorem trsetBody_nodes {ls : List (Nat × Loc)} (hd : treeHeadOk (s.loadSpan (s.rs f.a).toNat hs).2 = true)
    (hnodes : (s.loadSpan (s.rs f.a).toNat hs).1.reachSpan ((s.rs f.a).toNat + 16) (8 * imgGet (s.loadSpan (s.rs f.a).toNat hs).2 4 2) .load = .ok ls) :
    let r := s.loadSpan (s.rs f.a).toNat hs
    let q := r.1.loadSpan ((s.rs f.a).toNat + 16) ls
    trsetBody f s e = trsetAnswer f s q.1 e l r.2 q.2 := by
  simp only [trsetBody, hl, Chk.res_ok, ha, bne_self_eq_false, Bool.false_eq_true, if_false, hhead, hd, Bool.not_true, hnodes]
  rfl

end
end

section
variable {f : FmtR} {s s2 : State} (e : Eff) {l d : Nat} {head : Nat} {t : Tree}

theorem trsetAnswer_badNodes (hok : s2.treeNodesOk l d (imgGet head 4 2) = false) : trsetAnswer f s s2 e l head d = doneS s2 e f.d 1 :=
  if_pos (by simp [hok])

variable (hok : s2.treeNodesOk l d (imgGet head 4 2) = true)
include hok

theorem trsetAnswer_open (ht : aget s.dev.trees (f.imm.toNat % 64) = some t) (ho : t.isOpen = true) :
    trsetAnswer f s s2 e l head d = doneS s2 e f.d 2 :=
  (if_neg (by simp [hok])).trans (if_pos (by simp [ht, ho]))

theorem trsetAnswer_foreign (ht : aget s.dev.trees (f.imm.toNat % 64) = some t) (ho : t.isOpen = false) (hown : t.owner ≠ l) :
    trsetAnswer f s s2 e l head d = doneS s2 e f.d 3 :=
  (if_neg (by simp [hok])).trans ((if_neg (by simp [ht, ho])).trans (if_pos (by simp [ht, hown])))

theorem trsetAnswer_makes (hfree : ∀ t, aget s.dev.trees (f.imm.toNat % 64) = some t → t.isOpen = false ∧ t.owner = l)
    (hw : s.launchWay l = .ok ()) :
    trsetAnswer f s s2 e l head d = doneS (s2.setTree (f.imm.toNat % 64) {
      owner := l, ty := imgGet head 0 1, op := imgGet head 1 1, rootreg := imgGet head 2 1, nodes := treeNodes d (imgGet head 4 2),
      contribs := [], partials := [], ts := 0, total := none }) e f.d 0 := by
  have hopen : ((aget s.dev.trees (f.imm.toNat % 64)).map Tree.isOpen).getD false = false := by
    cases ht : aget s.dev.trees (f.imm.toNat % 64) with
    | none => rfl
    | some t => exact (hfree t ht).1
  have howner : ((aget s.dev.trees (f.imm.toNat % 64)).map fun t => t.owner != l).getD false = false := by
    cases ht : aget s.dev.trees (f.imm.toNat % 64) with
    | none => rfl
    | some t => simp [(hfree t ht).2]
  simp only [trsetAnswer, hok, hopen, howner, hw, Bool.not_true, Bool.false_eq_true, if_false, Chk.res_ok]

end

/-! ## TRSET.clr -/

section
variable {f : FmtR} {s : State} (e : Eff) {l : Nat} {t : Tree} (hl : s.tableLaunch = .ok l)
include hl

theorem trsetClrBody_none (ht : aget s.dev.trees (f.imm.toNat % 64) = none) : trsetClrBody f s e = doneS s e f.d 3 := by
  simp only [trsetClrBody, hl, Chk.res_ok, ht]

variable (ht : aget s.dev.trees (f.imm.toNat % 64) = some t)
include ht

theorem trsetClrBody_foreign (hown : t.owner ≠ l) : trsetClrBody f s e = doneS s e f.d 3 := by
  simp only [trsetClrBody, hl, Chk.res_ok, ht, bne_iff_ne.mpr hown, if_true]

theorem trsetClrBody_open (hown : t.owner = l) (ho : t.isOpen = true) : trsetClrBody f s e = doneS s e f.d 2 := by
  simp only [trsetClrBody, hl, Chk.res_ok, ht, hown, ho, bne_self_eq_false, Bool.false_eq_true, if_false, if_true]

theorem trsetClrBody_removes (hown : t.owner = l) (ho : t.isOpen = false) (hw : s.launchWay l = .ok ()) :
    trsetClrBody f s e = doneS { s with dev := { s.dev with trees := adel s.dev.trees (f.imm.toNat % 64) } } e f.d 0 := by
  simp only [trsetClrBody, hl, Chk.res_ok, ht, hown, ho, hw, bne_self_eq_false, Bool.false_eq_true, if_false]

end

/-- Settles O29, each instruction by its effect in a launch with its checks passed. -/
theorem tableInstructionsComplete : Obligations.TableInstructionsComplete := by
  intro f s s1 e l hl
  refine ⟨fun loc hr ha hloc => ⟨fun hv hw => exec_replies hr rfl (plsetBody_valid e hl ha hloc hv hw),
      fun hv => exec_replies hr rfl (plsetBody_invalid e hl ha hloc hv)⟩,
    fun hr ha => exec_replies hr rfl (plgetBody_reads e hl ha), fun hr hw => exec_replies hr rfl (plinvBody_clears e hl hw),
    fun x hr hx => ⟨fun h0 hslot => exec_replies hr rfl (htsetBody_refused e hl h0 hslot),
      fun hp hw => exec_replies hr rfl (htsetBody_sets e hl hx hp hw)⟩,
    fun hs hr ha hhead => ⟨fun hd => exec_replies hr rfl (trsetBody_badHead e hl ha hhead hd), fun ls hd hnodes => ?trset⟩,
    fun hr => ⟨fun ht => exec_replies hr rfl (trsetClrBody_none e hl ht), fun t ht =>
      ⟨fun hown => exec_replies hr rfl (trsetClrBody_foreign e hl ht hown),
        fun hown ho => exec_replies hr rfl (trsetClrBody_open e hl ht hown ho),
        fun hown ho hw => exec_replies hr rfl (trsetClrBody_removes e hl ht hown ho hw)⟩⟩⟩
  case trset =>
    have hbody := trsetBody_nodes e hl ha hhead hd hnodes
    exact ⟨fun hok => exec_replies hr rfl (hbody.trans (trsetAnswer_badNodes e hok)),
      fun t hok ht ho => exec_replies hr rfl (hbody.trans (trsetAnswer_open e hok ht ho)),
      fun t hok ht ho hown => exec_replies hr rfl (hbody.trans (trsetAnswer_foreign e hok ht ho hown)),
      fun hok hfree hw => exec_replies hr rfl (hbody.trans (trsetAnswer_makes e hok hfree hw))⟩

end Sys2Proof.Machine
end

section
/-! SUPPORT. The effects of the barrier, counter, timer and clock instructions (R355-R364). -/

namespace Sys2Proof.Machine

/-! ## Barriers -/

section
variable {f : FmtR} {s : State} (e : Eff) {l b : Nat} {y : Launch} {x : Barrier} (hb : s.barrierOf f = .ok (l, y, b, x))
include hb

theorem baraBody_arrives {n : Nat} (hn : x.count (s.setFrom y.barDev).me = some n) (hlead : n ≠ x.phase + 3) :
    let s2 := s.setFrom y.barDev
    baraBody f s e = doneS ((s2.setBarrier l b (x.arrive y.launchTs s2.me n s2.thread.pts)).serveBarrier l b y.launchTs) e f.d (BitVec.ofNat 64 (n + 1)) := by
  simp only [baraBody, hb, Chk.res_ok, hn, if_neg hlead]

/-- An arrival that would lead by 4 phases is held at the agent. -/
theorem baraBody_held {n : Nat} (hn : x.count (s.setFrom y.barDev).me = some n) (hlead : n = x.phase + 3) :
    let s2 := s.setFrom y.barDev
    let w : BarWait := { who := s2.cur, d := f.d, pts := s2.thread.pts, eff := e }
    baraBody f s e = .sent (s2.popDefer.setBarrier l b { x with late := x.late ++ [w] }) (.lead b) := by
  simp only [baraBody, hb, Chk.res_ok, hn, if_pos hlead]

theorem baraJoinBody_member {n : Nat} (hn : x.count (s.setFrom y.barDev).me = some n) :
    baraJoinBody f s e = doneS (s.setFrom y.barDev) e f.d (BitVec.ofNat 64 n) := by
  simp only [baraJoinBody, hb, Chk.res_ok, hn]

theorem baraJoinBody_joins (hn : x.count (s.setFrom y.barDev).me = none) :
    let s2 := s.setFrom y.barDev
    baraJoinBody f s e = doneS (s2.setBarrier l b (x.setCount s2.me x.phase)) e f.d (BitVec.ofNat 64 x.phase) := by
  simp only [baraJoinBody, hb, Chk.res_ok, hn]

theorem baraLeaveBody_stranger (hn : x.count (s.setFrom y.barDev).me = none) :
    baraLeaveBody f s e = doneS (s.setFrom y.barDev) e f.d (BitVec.ofNat 64 x.phase) := by
  simp only [baraLeaveBody, hb, Chk.res_ok, hn]

theorem baraLeaveBody_leaves {n : Nat} (hn : x.count (s.setFrom y.barDev).me = some n) :
    let s2 := s.setFrom y.barDev
    let z := Barrier.recompute y.launchTs { x with members := x.members.filter fun m => m.1 != s2.me }
    baraLeaveBody f s e = doneS ((s2.setBarrier l b z).serveBarrier l b y.launchTs) e f.d (BitVec.ofNat 64 z.phase) := by
  simp only [baraLeaveBody, hb, Chk.res_ok, hn]

theorem barwBody_reached (ht : ((s.setFrom y.barDev).rs f.a).toNat ≤ x.phase) :
    let s2 := s.setFrom y.barDev
    barwBody f s e = .done s2 { e with pts := max e.pts (x.mark y.launchTs (s2.rs f.a).toNat) } :=
  (Chk.res_of_ok hb).trans (if_neg (Nat.not_lt.mpr ht))

theorem barwBody_held (ht : x.phase < ((s.setFrom y.barDev).rs f.a).toNat) :
    let s2 := s.setFrom y.barDev
    let t := (s2.rs f.a).toNat
    let w : BarWait := { who := s2.cur, phase := t, pts := s2.thread.pts, eff := e }
    barwBody f s e = .sent (s2.popDefer.setBarrier l b { x with waits := x.waits ++ [w] }) (.phase b t) :=
  (Chk.res_of_ok hb).trans (if_pos ht)

theorem barqBody_own (hm : f.mod.getLsbD 0 = false) :
    barqBody f s e = doneS (s.setFrom y.barDev) e f.d (BitVec.ofNat 64 (x.status (s.setFrom y.barDev).me)) := by
  simp only [barqBody, hb, Chk.res_ok, hm, Bool.false_eq_true, if_false]

theorem barqBody_named {m : Nat × Nat} (hm : f.mod.getLsbD 0 = true)
    (hok : (s.setFrom y.barDev).memberOf l ((s.setFrom y.barDev).rs f.a) = .ok m) :
    barqBody f s e = doneS (s.setFrom y.barDev) e f.d (BitVec.ofNat 64 (x.status m)) := by
  simp only [barqBody, hb, Chk.res_ok, hm, if_true, hok]

end

/-! ## Counters and the timer -/

section
variable {f : FmtR} {s : State} (e : Eff)

/-- CTRSEL of a word with no reserved bit and an event of the table. -/
theorem ctrselBody_selects (hres : (s.rs f.a).toNat / 2 ^ 25 = 0) (hev : (s.rs f.a).toNat % 256 ≤ 15) :
    let x := s.rs f.a
    let i := f.imm.toNat % 8
    let y := s.core s.myCore
    ctrselBody f s e = doneS (s.setCore s.myCore { y with
      ctrCfg := y.ctrCfg.setIfInBounds i (x &&& ~~~(0x1000000 : Word)),
      ctrs := if x.getLsbD 24 then y.ctrs.setIfInBounds i 0 else y.ctrs }) e f.d ((y.ctrCfg[i]?).getD 0) :=
  if_neg (by rw [hres, decide_eq_false (Nat.not_lt.mpr hev)]; decide)

/-- What TIMSET asks of its operands: to stop the timer, or an aligned event word in a kernel page and a period of at least 64. -/
def timsetOk (f : FmtR) (n a pages : Nat) : Prop :=
  n = 0 ∨ (winBase ≤ a ∧ a < winBase + 4096 * pages ∧ a % 8 = 0 ∧ (f.mod.getLsbD 0 = true → 64 ≤ n))

/-- TIMSET of such operands, an expiry that is due made first. -/
theorem timsetBody_sets (hok : timsetOk f (s.rs f.a).toNat (s.rs f.b).toNat (s.core s.myCore).expire.scrPages)
    (hexp : s.afterExpiry s.myCore = .ok ()) :
    let n := (s.rs f.a).toNat
    let y := (s.core s.myCore).expire
    timsetBody f s e = doneS (s.setCore s.myCore { y with timer := n, period := if f.mod.getLsbD 0 then n else 0, event := s.rs f.b }) e f.d
      (BitVec.ofNat 64 y.timer) := by
  unfold timsetBody
  obtain h0 | ⟨hlow, hhigh, hal, hper⟩ := hok
  · simp only [h0, bne_self_eq_false, Bool.false_and, Bool.false_eq_true, if_false, hexp, Chk.res_ok]
  · have hshort : ¬((s.rs f.a).toNat != 0 && f.mod.getLsbD 0 && decide ((s.rs f.a).toNat < 64)) = true := by
      simp only [Bool.and_eq_true, decide_eq_true_eq, not_and, not_lt]
      exact fun h => hper h.2
    simp only [hlow, hhigh, hal, decide_true, Bool.and_self, Bool.not_true, Bool.and_false, bne_self_eq_false, Bool.false_eq_true, if_false,
      if_neg hshort, hexp, Chk.res_ok]

end

/-- Settles O31, each instruction by its effect with its checks passed. -/
theorem barrierCounterAndClockInstructionsComplete : Obligations.BarrierCounterAndClockInstructionsComplete := by
  refine ⟨fun f s s1 e l y b x hb => ?barriers, fun f => ⟨fun s s1 e hr hres hev => exec_done hr rfl (ctrselBody_selects e hres hev),
    writesScalar_of_doneS (fun _ => rfl) fun _ _ => rfl, fun s s1 e hr hok hexp => exec_done hr rfl (timsetBody_sets e hok hexp),
    fun s s1 e hr => exec_done hr rfl rfl, writesScalar_of_doneS (fun _ => rfl) fun _ _ => rfl⟩⟩
  case barriers =>
    exact ⟨fun n hr hn => ⟨fun hlead => exec_replies hr rfl (baraBody_arrives e hb hn hlead),
        fun hlead => meaning_sent hr (baraBody_held e hb hn hlead)⟩,
      fun hr => ⟨fun n hn => exec_replies hr rfl (baraJoinBody_member e hb hn), fun hn => exec_replies hr rfl (baraJoinBody_joins e hb hn)⟩,
      fun hr => ⟨fun hn => exec_replies hr rfl (baraLeaveBody_stranger e hb hn), fun n hn => exec_replies hr rfl (baraLeaveBody_leaves e hb hn)⟩,
      fun hr => ⟨fun ht => exec_replies hr rfl (barwBody_reached e hb ht), fun ht => meaning_sent hr (barwBody_held e hb ht)⟩,
      fun hr => ⟨fun hm => exec_replies hr rfl (barqBody_own e hb hm), fun m hm hok => exec_replies hr rfl (barqBody_named e hb hm hok)⟩⟩

end Sys2Proof.Machine
end

section
/-! SUPPORT. What a load of the host leaves as it stands: which addresses the host may reach, and their bytes (R392, R393). -/

namespace Sys2Proof.Machine

/-- At most timestamps, counters and logs changed: cores, folds, channels, Evoven Resident's log, the host's clock and the AER log, and
the same page tables are in use. -/
structure State.SameHostView (s t : State) : Prop where
  state : ∃ cs fs xs lg ts n, t = { s with cores := cs, folds := fs, channels := xs, dev := { s.dev with syslog := lg, hostPts := ts, aer := n } }
  roots : ∀ r, r ≠ 0 → (r ∈ t.cores.map (·.2.root) ↔ r ∈ s.cores.map (·.2.root))

theorem mem_of_aget {α : Type} {l : List (Nat × α)} {k : Nat} {v : α} (h : aget l k = some v) : (k, v) ∈ l := by
  induction l with
  | nil => cases h
  | cons y l ih =>
    obtain ⟨j, y⟩ := y
    simp only [aget] at h
    split at h
    next hk => cases h; cases hk; exact List.mem_cons_self
    next => exact List.mem_cons_of_mem _ (ih h)

/-- A core put in a list with the root that it has there leaves the roots other than 0. -/
theorem mem_roots_aset {cs : List (Nat × Core)} {c : Nat} {x : Core} (h : x.root = ((aget cs c).getD Core.initial).root) {r : Nat} (hr : r ≠ 0) :
    r ∈ (aset cs c x).map (·.2.root) ↔ r ∈ cs.map (·.2.root) := by
  induction cs with
  | nil =>
    have h0 : x.root = 0 := h
    simp [aset, h0, hr]
  | cons y cs ih =>
    obtain ⟨j, y⟩ := y
    simp only [aget] at h
    simp only [aset]
    split
    next hlt =>
      rw [if_neg (by omega)] at h
      have hin : x.root = 0 ∨ x.root ∈ cs.map (·.2.root) := by
        cases hc : aget cs c with
        | none => exact .inl (by rw [h, hc]; rfl)
        | some z => exact .inr (by rw [h, hc]; exact List.mem_map.mpr ⟨(c, z), mem_of_aget hc, rfl⟩)
      simp only [List.map_cons, List.mem_cons]
      refine ⟨fun hm => hm.elim (fun he => ?_) id, .inr⟩
      exact .inr (hin.elim (fun h0 => absurd (he.trans h0) hr) fun hm => he ▸ hm)
    · split
      next hk =>
        rw [if_pos hk.symm] at h
        have hx : x.root = y.root := h
        simp [hx]
      next hk =>
        rw [if_neg (Ne.symm hk)] at h
        simp only [List.map_cons, List.mem_cons, ih h]

theorem Core.addFixed_root (c : Core) (i n : Nat) : (c.addFixed i n).root = c.root := by
  unfold Core.addFixed
  split <;> rfl

namespace State.SameHostView

variable {s t u : State}

theorem of_cores {fs : List (Nat × Fold)} {xs : List (Nat × Channel)} {lg : List (Nat × Nat)} {ts n : Nat}
    (h : t = { s with folds := fs, channels := xs, dev := { s.dev with syslog := lg, hostPts := ts, aer := n } }) : SameHostView s t :=
  ⟨⟨s.cores, _, _, _, _, _, h⟩, fun _ _ => by rw [h]⟩

theorem refl (s : State) : SameHostView s s := of_cores rfl

theorem trans (h1 : SameHostView s t) (h2 : SameHostView t u) : SameHostView s u := by
  obtain ⟨⟨cs, fs, xs, lg, ts, n, rfl⟩, hr1⟩ := h1
  obtain ⟨⟨cs, fs, xs, lg, ts, n, rfl⟩, hr2⟩ := h2
  exact ⟨⟨cs, fs, xs, lg, ts, n, rfl⟩, fun r hr => (hr2 r hr).trans (hr1 r hr)⟩

theorem setCore {c : Nat} {x : Core} (h : x.root = (s.core c).root) : SameHostView s (s.setCore c x) :=
  ⟨⟨_, s.folds, s.channels, s.dev.syslog, s.dev.hostPts, s.dev.aer, rfl⟩, fun _ hr => mem_roots_aset h hr⟩

theorem mem (h : SameHostView s t) : t.mem = s.mem := by
  obtain ⟨⟨cs, fs, xs, lg, ts, n, rfl⟩, -⟩ := h
  rfl

theorem hostReads (h : SameHostView s t) : t.dev.hostReads = s.dev.hostReads := by
  obtain ⟨⟨cs, fs, xs, lg, ts, n, rfl⟩, -⟩ := h
  rfl

/-- What a table maps depends on memory and the part alone. -/
theorem tableMaps (h : SameHostView s t) (is : Word → Bool) (p level table : Nat) : t.tableMaps is p level table = s.tableMaps is p level table := by
  obtain ⟨⟨cs, fs, xs, lg, ts, n, rfl⟩, -⟩ := h
  induction level generalizing table with
  | zero => rfl
  | succ l ih =>
    unfold State.tableMaps
    simp only [ih]
    rfl

theorem mappedAs (h : SameHostView s t) (is : Word → Bool) (p : Nat) : t.mappedAs is p = s.mappedAs is p := by
  have htab := h.tableMaps is p 3
  obtain ⟨⟨cs, fs, xs, lg, ts, n, rfl⟩, hroots⟩ := h
  rw [Bool.eq_iff_iff]
  simp only [State.mappedAs, List.any_eq_true, List.mem_eraseDups, htab, Bool.and_eq_true, bne_iff_ne, ne_eq]
  refine exists_congr fun r => and_congr_left fun hr => ?_
  simp only [List.mem_append]
  exact or_congr Iff.rfl (hroots r hr.1)

/-- The host reaches the same addresses. -/
theorem hostPa (h : SameHostView s t) (off : Nat) : t.hostPa off = s.hostPa off := by
  have hmap := h.mappedAs fun e => e.getLsbD 5 || e.getLsbD 6
  obtain ⟨⟨cs, fs, xs, lg, ts, n, rfl⟩, -⟩ := h
  simp only [State.hostPa, hmap]
  rfl

end State.SameHostView

/-! ## A read at a home -/

theorem State.skewFold_sameHostView (s : State) (f : Nat) : s.SameHostView (s.skewFold f) := by
  have hcores : ∀ (cs : List Nat) (t : State), t.SameHostView (cs.foldl (fun s c => s.setCore c ((s.core c).addFixed 13 1)) t) := by
    intro cs
    induction cs with
    | nil => exact .refl
    | cons c cs ih => exact fun t => (SameHostView.setCore (Core.addFixed_root ..)).trans (ih _)
  exact ((SameHostView.of_cores (s := s) (lg := s.dev.syslog) (ts := s.dev.hostPts) (n := s.dev.aer) rfl).trans (hcores ..)).trans
    (.of_cores (ts := _) (n := _) rfl)

theorem State.setPresent_sameHostView (s : State) (ln : Nat) (b : Bool) : s.SameHostView (s.setPresent ln b) := by
  unfold State.setPresent
  split
  · exact .refl s
  · exact .of_cores rfl

theorem State.holdLine_sameHostView (s : State) (pa wts rts : Nat) (alloc dirty : Bool) : s.SameHostView (s.holdLine pa wts rts alloc dirty) := by
  have hfold : ∀ f x, s.SameHostView (s.setFold f x) := fun f x => .of_cores rfl
  unfold State.holdLine
  dsimp only
  split
  · exact hfold ..
  · split
    · exact (hfold ..).trans (State.setPresent_sameHostView ..)
    · exact hfold ..

theorem State.countSkew_sameHostView (s : State) (pa ts : Nat) : s.SameHostView (s.countSkew (.mem pa) ts) := by
  unfold State.countSkew
  split
  · exact .refl s
  · exact State.skewFold_sameHostView ..

/-- A read at memory's home. -/
theorem State.homeRead_sameHostView (s : State) (pa ts lam : Nat) (alloc : Bool) : s.SameHostView (s.homeRead (.mem pa) ts lam alloc).1 :=
  (State.countSkew_sameHostView ..).trans (State.holdLine_sameHostView ..)

/-! ## A read of the host -/

/-- What the host reads of one part: its bytes where it may reach, else all ones. -/
def State.hostBytes (s : State) (p : Nat × Nat) : List Byte :=
  match s.hostPa p.1 with
  | some pa => bytesOf p.2 (s.mem.readNat pa p.2)
  | none => List.replicate p.2 0xFF

theorem State.hostLoad_eq (s : State) (p : Nat × Nat) : (s.hostLoad p.1 p.2).2 = s.hostBytes p := by
  cases h : s.hostPa p.1 <;> simp only [State.hostLoad, State.hostBytes, h]

theorem State.hostLoad_sameHostView (s : State) (off n : Nat) : s.SameHostView (s.hostLoad off n).1 := by
  unfold State.hostLoad
  split
  · exact .of_cores rfl
  · exact (State.homeRead_sameHostView ..).trans (.of_cores rfl)

theorem State.SameHostView.hostBytes {s t : State} (h : s.SameHostView t) (p : Nat × Nat) : t.hostBytes p = s.hostBytes p := by
  unfold State.hostBytes
  rw [h.hostPa, h.mem]

/-- The parts loaded one after another, into bytes read before. -/
def State.hostLoads (s : State) (bs : List Byte) (ps : List (Nat × Nat)) : State × List Byte :=
  ps.foldl (fun r p => let q := r.1.hostLoad p.1 p.2; (q.1, r.2 ++ q.2)) (s, bs)

/-- A read in parts returns the bytes that each part had before it. -/
theorem State.hostLoads_eq (s : State) (bs : List Byte) (ps : List (Nat × Nat)) :
    s.SameHostView (s.hostLoads bs ps).1 ∧ (s.hostLoads bs ps).2 = bs ++ ps.flatMap s.hostBytes := by
  induction ps generalizing s bs with
  | nil => exact ⟨.refl s, (List.append_nil bs).symm⟩
  | cons p ps ih =>
    have hp := s.hostLoad_sameHostView p.1 p.2
    obtain ⟨hview, hbytes⟩ := ih (s.hostLoad p.1 p.2).1 (bs ++ (s.hostLoad p.1 p.2).2)
    refine ⟨hp.trans hview, hbytes.trans ?_⟩
    rw [funext hp.hostBytes, s.hostLoad_eq, List.flatMap_cons, List.append_assoc]

/-- A host read that can be served keeps what it returns. -/
theorem execHostRead_kept {s : State} {off n : Nat} (h : s.hostReady off n = true) :
    let r := s.hostLoads [] (barParts off n)
    execHostRead off n s = .next { r.1 with dev := { r.1.dev with hostReads := s.dev.hostReads ++ [(barParts off n).flatMap s.hostBytes] } } := by
  obtain ⟨hview, hbytes⟩ := s.hostLoads_eq [] (barParts off n)
  rw [← hview.hostReads, ← List.nil_append ((barParts off n).flatMap _), ← hbytes]
  simp only [execHostRead, answer, h, Bool.not_true, Bool.false_eq_true, if_false]
  rfl

end Sys2Proof.Machine
end

section
/-! SUPPORT. The escalation, SYSC_REPLY and the host's writes (R375, R386, R390-R394). -/

namespace Sys2Proof.Machine

theorem execShepherdFaultEscalation_cases {s : State} {c : Nat} (h : (s.core c).escal ≠ []) :
    execShepherdFaultEscalation c s = .next (if (s.core c).saved then s.enterExceptions c (s.core c).escal
      else if s.quietCore c then (s.saveCore c).enterExceptions c (s.core c).escal else s.spillHeld c) := by
  rw [execShepherdFaultEscalation, answer, if_neg (by simpa using h)]

/-- What SYSC_REPLY leaves of `s` when the call `r` has led to `t` with the answer `a`. -/
def State.afterCall (s : State) (r : SysReq) (t : State) (a : Reply) : State :=
  match a with
  | .later => s
  | .never => t
  | .value v ts cs pages =>
    let t := t.setResidentPts ts
    if t.condsDone cs then t.replySysc r v ts pages else { t with sysc := t.sysc ++ [{ r with result := some v, conds := cs, pages := pages }] }

section
variable {s : State} {i : Nat} {r : SysReq} (hr : s.sysc[i]? = some r)
include hr

theorem execSyscReply_answered {v : Word} (hv : r.result = some v) (hc : s.condsDone r.conds = true) :
    execSyscReply i s = .next (State.replySysc { s with sysc := dropAt s.sysc i } r v ((s.dev.sysThreads[0]?).getD Slot.initial).pts r.pages) := by
  simp only [execSyscReply, answer, hr, hv, hc, if_true]

/-- A call that Evoven Resident takes up, by its answer. -/
theorem execSyscReply_called (hv : r.result = none) :
    let q := (State.takeSysc { s with sysc := dropAt s.sysc i } r).residentCall r ((s.dev.sysThreads[0]?).getD Slot.initial).pts
    execSyscReply i s = .next (s.afterCall r q.1 q.2) := by
  simp only [execSyscReply, answer, hr, hv]
  rfl

end

theorem execHostWrite_stores {s : State} {off : Nat} {bytes : List Byte} (h : s.hostReady off bytes.length = true) :
    execHostWrite off bytes s =
      .next ((barParts off bytes.length).foldl (fun s p => s.hostStore p.1 p.2 (natOf ((bytes.drop (p.1 - off)).take p.2))) s) := by
  simp only [execHostWrite, answer, h, Bool.not_true, Bool.false_eq_true, if_false]

theorem execHostWrite_held {s : State} {off : Nat} {bytes : List Byte} (h : s.hostReady off bytes.length = false) :
    execHostWrite off bytes s = .next (s.holdHost { off := off, data := some bytes, n := bytes.length }) := by
  simp only [execHostWrite, answer, h, Bool.not_false, if_true]

theorem execHostRead_held {s : State} {off n : Nat} (h : s.hostReady off n = false) :
    execHostRead off n s = .next (s.holdHost { off := off, data := none, n := n }) := by
  simp only [execHostRead, answer, h, Bool.not_false, if_true]

/-- Settles O41, event by event; a host read by what its loads leave of the host's view. -/
theorem timersCallsAndTheHostTakeEffect : Obligations.TimersCallsAndTheHostTakeEffect := by
  refine ⟨⟨fun s c hexp hsaved hheld => ?timer, fun s c hesc => ?escalation, fun s i r hr => ⟨fun v hv hc => ?answered, fun hv => ?called⟩⟩,
    fun s off bytes => ⟨execHostWrite_stores, fun h => ⟨execHostWrite_held h, execHostRead_held h⟩⟩,
    fun s off n h => ⟨_, _, execHostRead_kept h, rfl, rfl⟩,
    fun s v => ⟨fun hgood => ⟨congrArg Host.Outcome.next (if_pos hgood), rfl⟩, fun hbad => congrArg Host.Outcome.next (if_neg hbad),
      fun off hoff => congrArg Host.Outcome.next (if_neg hoff)⟩⟩
  case timer => exact congrArg Host.Outcome.next (if_pos (by rw [hexp, hsaved, hheld]; rfl))
  case escalation =>
    have hcases := execShepherdFaultEscalation_cases hesc
    exact ⟨fun hsaved => hcases.trans (by rw [if_pos hsaved]), fun hsaved hquiet => hcases.trans (by rw [hsaved, hquiet]; rfl),
      fun hsaved hquiet => hcases.trans (by rw [hsaved, hquiet]; rfl)⟩
  case answered => exact execSyscReply_answered hr hv hc
  case called =>
    have hcall := execSyscReply_called hr hv
    intro q
    have hby {a : Reply} (hq : q.2 = a) : execSyscReply i s = .next (s.afterCall r q.1 a) := hq ▸ hcall
    exact ⟨fun v ts cs pages hq => ⟨fun hc => (hby hq).trans (congrArg _ (if_pos hc)), fun hc => (hby hq).trans (congrArg _ (if_neg (by simp [hc])))⟩,
      hby, hby⟩

end Sys2Proof.Machine
end

section
/-! SUPPORT. What device reset and the boot that follows leave of memory and of the device's status (R394, R396, R397). -/

namespace Sys2Proof.Machine

/-! ## PASTURE written in the headers of the launch queues (R288) -/

theorem State.homeStamp_sameHostView (s : State) (pa ts : Nat) (alloc : Bool) : s.SameHostView (s.homeStamp (.mem pa) ts alloc).1 :=
  (State.countSkew_sameHostView ..).trans (State.holdLine_sameHostView ..)

theorem State.SameHostView.errcode {s t : State} (h : s.SameHostView t) : t.dev.errcode = s.dev.errcode := by
  obtain ⟨⟨cs, fs, xs, lg, ts, n, rfl⟩, -⟩ := h
  rfl

theorem State.homeWrite_errcode (s : State) (pa n v ts : Nat) (alloc : Bool) : (s.homeWrite (.mem pa) n v ts alloc).1.dev.errcode = s.dev.errcode :=
  (State.homeStamp_sameHostView s pa ts alloc).errcode

theorem State.markRings_errcode (s : State) (rs : List Ring) : (s.markRings rs).dev.errcode = s.dev.errcode :=
  foldl_keeps (fun s : State => s.dev.errcode) (fun _ _ => State.homeWrite_errcode ..) rs s

/-- Marking the queues writes their PASTURE bytes alone. -/
theorem State.markRings_readNat (s : State) {rs : List Ring} {a : Nat} (h : ∀ r ∈ rs, a ≠ r.hdr + 20) :
    (s.markRings rs).mem.readNat a 1 = s.mem.readNat a 1 := by
  induction rs generalizing s with
  | nil => rfl
  | cons r rs ih =>
    have hne := h r List.mem_cons_self
    refine (ih _ fun r' hr' => h r' (List.mem_cons_of_mem _ hr')).trans ?_
    rw [State.homeWrite_mem]
    exact Memory.readNat_writeNat_out _ _ _ _ _ _ (by omega)

/-- Every queue registered has the header of one that is given. -/
theorem ringsOf_hdr {n : Nat} {acc rs : List Ring} {r : Ring} (h : r ∈ ringsOf n acc rs) : r ∈ acc ∨ ∃ r' ∈ rs, r'.hdr = r.hdr := by
  induction rs generalizing acc with
  | nil => exact .inl h
  | cons x rs ih =>
    have hlater {acc' : List Ring} (h' : r ∈ ringsOf n acc' rs) (hacc : r ∈ acc' → r ∈ acc ∨ r.hdr = x.hdr) :
        r ∈ acc ∨ ∃ r' ∈ x :: rs, r'.hdr = r.hdr := by
      obtain hin | ⟨r', hr', he⟩ := ih h'
      · exact (hacc hin).imp_right fun he => ⟨x, List.mem_cons_self, he.symm⟩
      · exact .inr ⟨r', List.mem_cons_of_mem _ hr', he⟩
    unfold ringsOf at h
    split at h
    · refine hlater h fun hin => ?_
      obtain hin | hin := List.mem_append.mp hin
      · exact .inl hin
      · rw [List.mem_singleton.mp hin]
        exact .inr rfl
    · exact hlater h .inl

/-! ## The stages of the boot -/

theorem Device.enterStage_stage (d : Device) (n : Nat) : (d.enterStage n).stage = n := by
  unfold Device.enterStage
  split
  · assumption
  · rfl

theorem Device.enterStage_errcode (d : Device) (n : Nat) : (d.enterStage n).errcode = d.errcode := by
  unfold Device.enterStage
  split <;> rfl

theorem Device.enterStage_published (d : Device) (n : Nat) : (d.enterStage n).published = d.published := by
  unfold Device.enterStage
  split <;> rfl

theorem Device.halt_stage (d : Device) (err : Nat) : (d.halt err).stage = 15 := Device.enterStage_stage ..

theorem Device.halt_errcode (d : Device) (err : Nat) : (d.halt err).errcode = err := Device.enterStage_errcode ..

theorem Device.bringUp_errcode (n : Nat) (d : Device) (p : Nat) : (d.bringUp n p).errcode = d.errcode := by
  unfold Device.bringUp
  split
  · rfl
  · dsimp only
    split <;> rfl

theorem State.configure_errcode (s : State) : s.configure.errcode = s.dev.errcode := by
  unfold State.configure
  dsimp only
  split <;> rfl

/-- Register banks mapped out change cores alone. -/
theorem State.mapBanks_frame (s : State) : s.mapBanks.mem = s.mem ∧ s.mapBanks.dev = s.dev ∧ s.mapBanks.env = s.env := by
  have h := foldl_keeps (fun s : State => (s.mem, s.dev, s.env)) (f := fun s x => s.setCore x.1 { s.core x.1 with banks := x.2, nslots := popBits 16 x.2.toNat })
    (fun _ _ => rfl) s.env.banks s
  exact ⟨congrArg (·.1) h, congrArg (·.2.1) h, congrArg (·.2.2) h⟩

/-- A boot that HBM does not fail ends in service. -/
theorem State.bootResident_serves {s : State} (h : s.env.hbmBad = false) :
    s.bootResident.dev.stage = 4 ∧ s.bootResident.dev.errcode = s.dev.errcode ∧ s.bootResident.dev.published = true
      ∧ ∀ a, (∀ r ∈ s.env.rings, a ≠ r.hdr + 20) → s.bootResident.mem.readNat a 1 = s.mem.readNat a 1 := by
  obtain ⟨hmem, hdev, henv⟩ := State.mapBanks_frame { s with dev := s.configure.enterStage 2 }
  rw [State.bootResident, if_neg (by rw [h]; decide)]
  refine ⟨Device.enterStage_stage .., ?_, Device.enterStage_published .., fun a ha => ?_⟩
  · rw [Device.enterStage_errcode]
    dsimp only
    rw [State.markRings_errcode]
    dsimp only
    rw [Device.enterStage_errcode, foldl_keeps Device.errcode (Device.bringUp_errcode _), hdev, Device.enterStage_errcode, State.configure_errcode]
  · dsimp only
    rw [State.markRings_readNat]
    · exact congrArg (Memory.readNat · a 1) hmem
    · intro r hr
      obtain hin | ⟨r', hr', he⟩ := ringsOf_hdr hr
      · exact absurd hin List.not_mem_nil
      · rw [henv] at hr'
        exact he ▸ ha r' hr'

theorem State.bootResident_badHbm {s : State} (h : s.env.hbmBad = true) : s.bootResident = { s with dev := s.dev.halt 2 } := if_pos h

/-- The state in which the image of slot `i`, measured and made active, starts. -/
def State.started (s : State) (i : Nat) : State :=
  { s with dev := Device.enterStage { s.dev.extend 0 ((s.dev.images[i]?).getD {}).digest with activeImage := i } 1 }

theorem State.started_errcode (s : State) (i : Nat) : (s.started i).dev.errcode = s.dev.errcode := Device.enterStage_errcode ..

theorem State.boot_unfused {s : State} (hk : s.dev.keys = 0) : s.boot = { s with dev := s.dev.halt 3 } := if_pos hk

theorem State.boot_unsigned {s : State} (hk : s.dev.keys ≠ 0) (hi : s.dev.bootSlot = none) : s.boot = { s with dev := s.dev.halt 1 } := by
  rw [State.boot, if_neg hk, hi]

theorem State.boot_starts {s : State} {i : Nat} (hk : s.dev.keys ≠ 0) (hi : s.dev.bootSlot = some i) : s.boot = (s.started i).bootResident := by
  rw [State.boot, if_neg hk, hi]
  rfl

end Sys2Proof.Machine
end

section
/-! SUPPORT. The events of links, spares, errors, reset, update, removal and heat (R399-R406). -/

namespace Sys2Proof.Machine

section
variable {s : State}

theorem execLinkLaneFailure_found {p lane : Nat} {l : Link} (h : aget s.dev.links p = some l) :
    let l2 : Link := { l with good := l.good &&& ~~~(BitVec.twoPow 18 lane) }
    execLinkLaneFailure p lane s = .next { s with dev := { s.dev with
      links := aset s.dev.links p (if l2.width = 0 then l2 else if l2.widthOf = 0 then l2.down else { l2 with width := l2.widthOf }) } } := by
  simp only [execLinkLaneFailure, answer, h]

theorem execLinkRequestRetry_held {i : Nat} {m : FarMsg} (h : s.dev.farOut[i]? = some m)
    (hr : (s.dev.links.any fun l => l.2.route != 0 && l.2.width != 0 && l.2.commons != s.dev.commons) = false) :
    execLinkRequestRetry i s = .next { s with dev := { s.dev with farOut := dropAt s.dev.farOut i }, far := m :: s.far } := by
  simp only [execLinkRequestRetry, answer, h, hr, Bool.false_eq_true, if_false]

section
variable {ln : Nat} (hp : s.dev.poisoned.contains ln = false)
include hp

theorem execUncorrectableDataError_poisons (hc : s.cleanCopy ln = false) (hm : s.mayPoison ln = true) :
    execUncorrectableDataError ln s = .next { s with dev := { s.dev with poisoned := ln :: s.dev.poisoned } } := by
  rw [execUncorrectableDataError, answer, if_neg (by rw [hp]; decide), if_neg (by rw [hc, hm]; decide)]

theorem execUncorrectableDataError_rebuilt (hc : s.cleanCopy ln = true) : execUncorrectableDataError ln s = .next s := by
  rw [execUncorrectableDataError, answer, if_neg (by rw [hp]; decide), if_pos (by rw [hc]; rfl)]

end

theorem execUncorrectableDataError_again {ln : Nat} (hp : s.dev.poisoned.contains ln = true) :
    execUncorrectableDataError ln s = .next ((s.poisonWaiters ln).eraseDups.foldl (fun s n => s.abortLaunch n 1) s) :=
  congrArg Host.Outcome.next (if_pos hp)

theorem execHbmRowSpare_spares {ch row : Nat} (hn : s.dev.rowlimit < s.dev.rowCount ch row + 1) (hl : ∀ l ∈ (s.chan ch).locks, l.1 ≠ row) :
    let s1 := s.stackFix (ch / 32)
    execHbmRowSpare ch row s = .next { s1 with dev := { s1.dev with
      rowErrors := s.dev.rowErrors.filter fun x => x.1 != (ch, row), sparedRows := (ch, row) :: s.dev.sparedRows } } :=
  congrArg Host.Outcome.next (if_pos ⟨hn, List.all_eq_true.mpr fun l h => bne_iff_ne.mpr (hl l h)⟩)

theorem execHbmRowSpare_counts {ch row : Nat} (h : s.dev.rowCount ch row + 1 ≤ s.dev.rowlimit ∨ ∃ l ∈ (s.chan ch).locks, l.1 = row) :
    let s1 := s.stackFix (ch / 32)
    execHbmRowSpare ch row s = .next { s1 with dev := { s1.dev with
      rowErrors := ((ch, row), s.dev.rowCount ch row + 1) :: s.dev.rowErrors.filter fun x => x.1 != (ch, row) } } := by
  refine congrArg Host.Outcome.next (if_neg fun ⟨hn, hall⟩ => ?_)
  obtain hle | ⟨l, hl, hrow⟩ := h
  · exact Nat.not_le.mpr hn hle
  · exact bne_iff_ne.mp (List.all_eq_true.mp hall l hl) hrow

end

/-- Device reset: the boot of what stands over it (log entry 1). -/
theorem execDeviceReset_eq (s : State) : execDeviceReset s = .next s.writeConfs.hardReset.boot := rfl

/-- Settles O43, event by event; device reset by the outcomes of its boot. -/
theorem linksSparesErrorsAndBootTakeEffect : Obligations.LinksSparesErrorsAndBootTakeEffect := by
  refine ⟨fun s => ⟨fun p => rfl, fun p lane l => execLinkLaneFailure_found, fun i m => execLinkRequestRetry_held,
      fun ln => ⟨fun hp => ⟨execUncorrectableDataError_poisons hp, execUncorrectableDataError_rebuilt hp⟩, execUncorrectableDataError_again⟩,
      fun ch row => ⟨execHbmRowSpare_spares, execHbmRowSpare_counts⟩, fun ch h => congrArg Host.Outcome.next (if_pos h), fun a => rfl,
      fun c hcomp hdev hfree hspare => ?spare⟩,
    fun s => ⟨fun hk => ?unfused, fun hk hb => ?unsigned, fun hk hb hbad => ?badHbm, fun hk hb hgood => ?service,
      fun image keyid ok => ⟨fun h => congrArg Host.Outcome.next (if_pos h), fun h => congrArg Host.Outcome.next (if_neg (by rw [h]; decide))⟩,
      fun h => ⟨congrArg Host.Outcome.next (if_pos h), congrArg Host.Outcome.next (if_pos h)⟩,
      fun h => ⟨congrArg Host.Outcome.next (if_neg (by rw [h]; decide)), congrArg Host.Outcome.next (if_neg (by rw [h]; decide))⟩⟩⟩
  case spare => exact congrArg Host.Outcome.next (if_pos ⟨hcomp, hdev, Option.isNone_iff_eq_none.mpr hfree, Option.isNone_iff_eq_none.mpr hspare⟩)
  case unfused =>
    refine ⟨_, execDeviceReset_eq s, ?_⟩
    rw [State.boot_unfused (s := s.writeConfs.hardReset) hk]
    exact ⟨Device.halt_stage .., Device.halt_errcode ..⟩
  case unsigned =>
    refine ⟨_, execDeviceReset_eq s, ?_⟩
    rw [State.boot_unsigned (s := s.writeConfs.hardReset) hk hb]
    exact ⟨Device.halt_stage .., Device.halt_errcode ..⟩
  case badHbm =>
    obtain ⟨i, hi⟩ := Option.ne_none_iff_exists'.mp hb
    refine ⟨_, execDeviceReset_eq s, ?_⟩
    rw [State.boot_starts (s := s.writeConfs.hardReset) hk hi, State.bootResident_badHbm (s := s.writeConfs.hardReset.started i) hbad]
    exact ⟨Device.halt_stage .., Device.halt_errcode ..⟩
  case service =>
    obtain ⟨i, hi⟩ := Option.ne_none_iff_exists'.mp hb
    obtain ⟨hstage, herr, hpub, hmem⟩ := State.bootResident_serves (s := s.writeConfs.hardReset.started i) hgood
    refine ⟨_, execDeviceReset_eq s, ?_⟩
    rw [State.boot_starts (s := s.writeConfs.hardReset) hk hi]
    exact ⟨hstage, herr.trans (State.started_errcode ..), hpub, hmem⟩

end Sys2Proof.Machine
end

section
/-! SUPPORT. The effects of XLAT, the TLBINVs, MODLD, MODLD.dbg and MODUL (R343-R347, R350-R353). -/

namespace Sys2Proof.Machine

theorem State.isSys_iff {s : State} : s.isSys = true ↔ ∃ n, s.cur = .sys n := by
  unfold State.isSys
  cases s.cur <;> simp

/-! ## XLAT -/

/-- XLAT's word of a translation: 0 where there is none. -/
def leafWord (o : Option Leaf) (a : Nat) : Word :=
  match o with
  | some l => BitVec.ofNat 64 (xlatWord l a)
  | none => 0

section
variable {f : FmtR} {s : State} (e : Eff)

section
variable (hsys : s.isSys = false)
include hsys

theorem xlatBody_own :
    xlatBody f s e = (let a := (s.rs f.a).toNat
      if canonical a then (s.translate s.cur a true).res fun o => doneS (s.tlbEnter s.cur a) e f.d (leafWord o a) else doneS s e f.d 0) := by
  unfold xlatBody
  cases hcur : s.cur with
  | sys n => exact absurd (State.isSys_iff.mpr ⟨n, hcur⟩) (by rw [hsys]; decide)
  | slot c k => rfl
  | ctx ch i => rfl

theorem xlatBody_notCanonical (hc : canonical (s.rs f.a).toNat = false) : xlatBody f s e = doneS s e f.d 0 :=
  (xlatBody_own e hsys).trans (if_neg (by rw [hc]; decide))

theorem xlatBody_translates {o : Option Leaf} (hc : canonical (s.rs f.a).toNat = true) (ho : s.translate s.cur (s.rs f.a).toNat true = .ok o) :
    xlatBody f s e = doneS (s.tlbEnter s.cur (s.rs f.a).toNat) e f.d (leafWord o (s.rs f.a).toNat) :=
  (xlatBody_own e hsys).trans ((if_pos hc).trans (Chk.res_of_ok ho))

end

section
variable (hsys : s.isSys = true)
include hsys

theorem xlatBody_noLaunch (hl : s.liveLaunch (s.rs f.b).toNat = none) : xlatBody f s e = doneS s e f.d 3 := by
  obtain ⟨n, hcur⟩ := State.isSys_iff.mp hsys
  simp only [xlatBody, hcur, hl]

variable {l : Launch} (hl : s.liveLaunch (s.rs f.b).toNat = some l)
include hl

theorem xlatBody_launch_notCanonical (hc : canonical (s.rs f.a).toNat = false) : xlatBody f s e = doneS s e f.d 0 := by
  obtain ⟨n, hcur⟩ := State.isSys_iff.mp hsys
  simp only [xlatBody, hcur, hl, hc, Bool.not_false, if_true]

/-- XLAT on a system core: the TLBs of the device's first core (log entry 13), or a walk that none holds back. -/
theorem xlatBody_launch_translates (hc : canonical (s.rs f.a).toNat = true)
    (hw : (s.tlbHit (s.tlbCore s.cur) (s.rs f.b).toNat (s.rs f.a).toNat).isSome = true
      ∨ s.missWait (s.tlbCore s.cur) (s.rs f.b).toNat l.root (s.rs f.a).toNat = none) :
    let r := s.translateFor (s.tlbCore s.cur) (s.rs f.b).toNat l.root (s.rs f.a).toNat
    xlatBody f s e = doneS r.1 e f.d (leafWord r.2 (s.rs f.a).toNat) := by
  obtain ⟨n, hcur⟩ := State.isSys_iff.mp hsys
  have hgo : (if (s.tlbHit (s.tlbCore s.cur) (s.rs f.b).toNat (s.rs f.a).toNat).isSome then none
      else s.missWait (s.tlbCore s.cur) (s.rs f.b).toNat l.root (s.rs f.a).toNat) = none := by
    obtain h | h := hw
    · exact if_pos h
    · rw [h, ite_self]
  rw [hcur] at hgo ⊢
  simp only [xlatBody, hcur, hl, hc, Bool.not_true, Bool.false_eq_true, if_false, hgo]
  rfl

end

/-! ## TLBINV -/

/-- A TLBINV of entries that no access under way was translated with. -/
theorem tlbinvDone_settled {drop : TlbEnt → Bool} (h : s.translated (s.tlbAll.filter drop) = []) :
    tlbinvDone f drop s e = doneS (s.dropTlbs drop) e f.d 0 :=
  if_pos (by rw [h]; rfl)

theorem tlbinvGBody_noLaunch (hl : s.liveLaunch (s.rs f.b).toNat = none) : tlbinvGBody f s e = doneS s e f.d 3 := by
  simp only [tlbinvGBody, hl]

theorem tlbinvGBody_drops (hl : (s.liveLaunch (s.rs f.b).toNat).isSome = true) (hw : s.launchesWay (fun _ => true) = .ok ()) :
    tlbinvGBody f s e = tlbinvDone f (fun _ => true) s e := by
  obtain ⟨l, hl⟩ := Option.isSome_iff_exists.mp hl
  simp only [tlbinvGBody, hl, hw, Chk.res_ok]

theorem tlbinvABody_drops {sp : Nat} (hsp : s.tlbSpace f = some sp) (hw : s.launchWay sp = .ok ()) :
    tlbinvABody f s e = tlbinvDone f (fun x => x.space == sp && (s.rs f.a).toNat % 2 ^ 57 / 2 ^ pageBits x.level == x.page) s e := by
  simp only [tlbinvABody, hsp, hw, Chk.res_ok]

theorem tlbinvLBody_drops {sp : Nat} (hsp : s.tlbSpace f = some sp) (hw : s.launchWay sp = .ok ()) :
    tlbinvLBody f s e = tlbinvDone f (fun x => x.space == sp) s e := by
  simp only [tlbinvLBody, hsp, hw, Chk.res_ok]

theorem tlbinvABody_noSpace (hsp : s.tlbSpace f = none) : tlbinvABody f s e = doneS s e f.d 3 := by simp only [tlbinvABody, hsp]

theorem tlbinvLBody_noSpace (hsp : s.tlbSpace f = none) : tlbinvLBody f s e = doneS s e f.d 3 := by simp only [tlbinvLBody, hsp]

/-! ## Modules -/

section
variable {dbg : Bool} {ls : List (Nat × Loc)} (hls : s.reachSpan (s.rs f.b).toNat 64 .load = .ok ls)
include hls

theorem modldForm_refuses {n : Nat} (hc : (s.loadSpan (s.rs f.b).toNat ls).1.modldCode dbg (s.rs f.a).toNat (s.loadSpan (s.rs f.b).toNat ls).2 = .error n) :
    modldForm dbg f s e = doneS (s.loadSpan (s.rs f.b).toNat ls).1 e f.d (BitVec.ofNat 64 (2 ^ 63 + n)) := by
  simp only [modldForm, hls, Chk.res_ok, hc]

/-- The module table entry of a record's bytes `d`. -/
def modldEntry (dbg : Bool) (f : FmtR) (s : State) (d : Nat) : Module :=
  { base := s.rs f.a, imagesize := BitVec.ofNat 64 (imgGet d 16 8), textbase := s.rs f.a, textsize := BitVec.ofNat 64 (imgGet d 8 8),
    record := s.rs f.b, use := 0, st := 1, debug := dbg, version := BitVec.ofNat 32 (imgGet d 4 4), units := BitVec.ofNat 32 (imgGet d 24 4) }

theorem modldForm_loads {k : Nat} {ld : List (Nat × Loc)}
    (hc : (s.loadSpan (s.rs f.b).toNat ls).1.modldCode dbg (s.rs f.a).toNat (s.loadSpan (s.rs f.b).toNat ls).2 = .ok k)
    (hld : (if s.dev.reqsign then (s.loadSpan (s.rs f.b).toNat ls).1.reachSpan ((s.rs f.b).toNat + 72) 64 .load else .ok []) = .ok ld) :
    let r := s.loadSpan (s.rs f.b).toNat ls
    let q := r.1.loadSpan ((s.rs f.b).toNat + 72) ld
    let s2 := (q.1.dropCode (s.rs f.a).toNat (imgGet r.2 8 8)).setModule k (modldEntry dbg f s r.2)
    modldForm dbg f s e = doneS (if s.dev.reqsign then { s2 with dev := s2.dev.extend 2 (BitVec.ofNat 512 q.2) } else s2) e f.d (BitVec.ofNat 64 k) := by
  simp only [modldForm, hls, Chk.res_ok, hc, hld]
  rfl

end

theorem modulBody_free (h : (s.moduleAt (f.imm.toNat % 256)).st = 0) : modulBody f s e = doneS s e f.d 1 := by
  simp only [modulBody, h]

theorem modulBody_unloading (h : 2 ≤ (s.moduleAt (f.imm.toNat % 256)).st) : modulBody f s e = doneS s e f.d 2 := by
  unfold modulBody
  dsimp only
  split
  · omega
  · omega
  · rfl

theorem modulBody_loaded (h : (s.moduleAt (f.imm.toNat % 256)).st = 1) :
    let m := f.imm.toNat % 256
    let s2 := s.setModule m { s.moduleAt m with st := 2 }
    modulBody f s e = .sent (s2.setThread { s2.thread with reply := some (e.scalar f.d 0) }) (.moduleFree m) := by
  simp only [modulBody, h, Eff.scalar_eq]

end

/-- Settles O30, each instruction by its effect with its checks passed. -/
theorem translationAndModuleInstructionsComplete : Obligations.TranslationAndModuleInstructionsComplete := by
  intro f s s1 e
  refine ⟨fun hr hsys => ⟨fun hc => exec_replies hr rfl (xlatBody_notCanonical e hsys hc),
      fun o hc ho => exec_replies hr rfl (xlatBody_translates e hsys hc ho)⟩,
    fun hr hsys => ⟨fun hl => exec_replies hr rfl (xlatBody_noLaunch e hsys hl), fun l hl =>
      ⟨fun hc => exec_replies hr rfl (xlatBody_launch_notCanonical e hsys hl hc),
        fun hc hw => exec_replies hr rfl (xlatBody_launch_translates e hsys hl hc hw)⟩⟩,
    ⟨fun hl hr => exec_replies hr rfl (tlbinvGBody_noLaunch e hl),
      fun hl hw hr hset => exec_replies hr rfl ((tlbinvGBody_drops e hl hw).trans (tlbinvDone_settled e hset)),
      fun sp hsp hw => ⟨fun hr hset => exec_replies hr rfl ((tlbinvABody_drops e hsp hw).trans (tlbinvDone_settled e hset)),
        fun hr hset => exec_replies hr rfl ((tlbinvLBody_drops e hsp hw).trans (tlbinvDone_settled e hset))⟩,
      fun hsp => ?noSpace⟩,
    fun ls hls => ?modld,
    fun hr => ⟨fun h => exec_replies hr rfl (modulBody_free e h), fun h => exec_replies hr rfl (modulBody_unloading e h),
      fun h => meaning_sent hr (modulBody_loaded e h)⟩⟩
  case noSpace =>
    intro i hi hr
    obtain rfl | rfl : i = .tlbinvA f ∨ i = .tlbinvL f := by simpa using hi
    · exact exec_replies hr rfl (tlbinvABody_noSpace e hsp)
    · exact exec_replies hr rfl (tlbinvLBody_noSpace e hsp)
  case modld =>
    intro r p hp hr
    obtain rfl | rfl : p = (.modld f, false) ∨ p = (.modldDbg f, true) := by simpa using hp
    · exact ⟨fun n hc => exec_replies hr rfl (modldForm_refuses e hls hc), fun k ld hc hld => exec_replies hr rfl (modldForm_loads e hls hc hld)⟩
    · exact ⟨fun n hc => exec_replies hr rfl (modldForm_refuses e hls hc), fun k ld hc hld => exec_replies hr rfl (modldForm_loads e hls hc hld)⟩

end Sys2Proof.Machine
end

section
/-! SUPPORT. The loads of a checked span leave every core in its launch, and the same thread current (R203, R322). -/

namespace Sys2Proof.Machine

/-- Every core runs the launch that it ran, and the same thread is current. -/
structure State.SameLaunches (s t : State) : Prop where
  cur : t.cur = s.cur
  launch : ∀ d, (t.core d).launch = (s.core d).launch

namespace State.SameLaunches

variable {s t u : State}

theorem refl (s : State) : SameLaunches s s := ⟨rfl, fun _ => rfl⟩

theorem trans (h1 : SameLaunches s t) (h2 : SameLaunches t u) : SameLaunches s u :=
  ⟨h2.cur.trans h1.cur, fun d => (h2.launch d).trans (h1.launch d)⟩

/-- What leaves the cores, and the current thread, as they are. -/
theorem of_cores (hc : t.cur = s.cur) (h : t.cores = s.cores) : SameLaunches s t := ⟨hc, fun d => by simp [State.core, h]⟩

theorem setEnv {e : Env} (h : SameLaunches s t) : SameLaunches s { t with env := e } := h.trans (of_cores rfl rfl)

theorem setCore {c : Nat} {x : Core} (h : x.launch = (s.core c).launch) : SameLaunches s (s.setCore c x) := by
  refine ⟨rfl, fun d => ?_⟩
  by_cases hd : d = c
  · subst hd; rw [State.core_setCore_self, h]
  · rw [State.core_setCore_ne _ _ hd]

theorem setThread (s : State) (t : Slot) : SameLaunches s (s.setThread t) := by
  unfold State.setThread
  split
  · exact .setCore rfl
  · split
    · exact .of_cores rfl rfl
    · exact .refl s
  · exact .of_cores rfl rfl

theorem ite {p : Prop} [Decidable p] {a b : State} (ha : SameLaunches s a) (hb : SameLaunches s b) : SameLaunches s (if p then a else b) := by
  split
  · exact ha
  · exact hb

theorem foldl {α : Type} {f : State → α → State} (h : ∀ s x, SameLaunches s (f s x)) (l : List α) (s : State) : SameLaunches s (l.foldl f s) := by
  induction l generalizing s with
  | nil => exact .refl s
  | cons x l ih => exact (h s x).trans (ih _)

end State.SameLaunches

/-! ## Counters -/

theorem Core.addFixed_launch (c : Core) (i n : Nat) : (c.addFixed i n).launch = c.launch := by
  unfold Core.addFixed
  split <;> rfl

theorem Core.count_launch (c : Core) (ev k : Nat) : (c.count ev k).launch = c.launch := by
  unfold Core.count
  split
  · rfl
  · refine foldl_keeps Core.launch (fun b i => ?_) _ c
    split <;> rfl

theorem State.countFor_sameLaunches (s : State) (w : Who) (ev : Nat) : s.SameLaunches (s.countFor w ev) := by
  unfold State.countFor
  split
  · exact .setCore (Core.count_launch ..)
  · exact .refl s

theorem State.count_sameLaunches (s : State) (ev : Nat) : s.SameLaunches (s.count ev) := by
  unfold State.count
  split
  · exact .setCore (Core.count_launch ..)
  · exact .refl s

theorem State.countFar_sameLaunches (s : State) (l : Loc) : s.SameLaunches (s.countFar l) := by
  unfold State.countFar
  split
  · exact .ite (State.count_sameLaunches ..) (.refl s)
  · exact .refl s

theorem State.skewFold_sameLaunches (s : State) (f : Nat) : s.SameLaunches (s.skewFold f) := by
  have hfold : s.SameLaunches (s.setFold f { s.fold f with skew := (s.fold f).skew + 1 }) := .of_cores rfl rfl
  exact (hfold.trans (.foldl (fun _ _ => .setCore (Core.addFixed_launch ..)) ..)).trans (.of_cores rfl rfl)

theorem State.countSkew_sameLaunches (s : State) (l : Loc) (ts : Nat) : s.SameLaunches (s.countSkew l ts) := by
  refine .ite (.refl s) ?_
  split
  · exact (State.SameLaunches.setCore (Core.addFixed_launch ..)).trans (.of_cores rfl rfl)
  · exact State.skewFold_sameLaunches ..

/-! ## A load at its home, and the translation before it -/

theorem State.homeRead_sameLaunches (s : State) (l : Loc) (ts lam : Nat) (alloc : Bool) : s.SameLaunches (s.homeRead l ts lam alloc).1 := by
  refine (s.countSkew_sameLaunches l ts).trans ?_
  cases l with
  | scr k off => exact .setCore rfl
  | mem pa => exact .of_cores (State.holdLine_sameSlots ..).cur (State.holdLine_cores ..)

theorem State.enterLeaf_sameLaunches (s : State) (c sp va : Nat) (l : Leaf) : s.SameLaunches (s.enterLeaf c sp va l) := by
  have hfold : ∀ (t : State) (p : Prop) [Decidable p] (f : Nat) (x : Fold), t.SameLaunches (if p then t.setFold f x else t) := fun t p _ f x =>
    .ite (.of_cores rfl rfl) (.refl t)
  unfold State.enterLeaf
  dsimp only
  refine (State.SameLaunches.setCore (c := c) ?_).trans ((hfold _ _ _ _).trans (.ite (.of_cores rfl rfl) (.ite (.of_cores rfl rfl) (.refl _))))
  rfl

theorem State.tlbEnter_sameLaunches (s : State) (w : Who) (va : Nat) : s.SameLaunches (s.tlbEnter w va) := by
  refine .ite (.refl s) ((s.countFor_sameLaunches w 13).trans ?_)
  split
  · exact State.enterLeaf_sameLaunches ..
  · have hwalk : ∀ (t : State) (path : List Nat), t.SameLaunches (t.touchWalk path) := fun t path => .foldl (fun _ _ => State.homeRead_sameLaunches ..) path t
    dsimp only
    split
    · exact .trans (.setEnv (.trans (State.countFor_sameLaunches ..) (hwalk ..))) (State.enterLeaf_sameLaunches ..)
    · exact .setEnv (.trans (State.countFor_sameLaunches ..) (hwalk ..))

theorem Core.touch_launch (c : Core) (p : Nat) : (c.touch p).launch = c.launch := by
  unfold Core.touch
  split <;> rfl

theorem State.noteAccess_sameLaunches (s : State) (va : Nat) (l : Loc) : s.SameLaunches (s.noteAccess va l) := by
  have hfrom : s.SameLaunches (s.setFrom l.dev) := .setThread s _
  unfold State.noteAccess
  cases l with
  | scr c off => exact hfrom.trans (.setCore (Core.touch_launch ..))
  | mem pa =>
    dsimp only
    split
    · exact hfrom
    · exact hfrom.trans (State.tlbEnter_sameLaunches ..)

theorem State.chanLoad_sameLaunches (s : State) (ch pa ts : Nat) : s.SameLaunches (s.chanLoad ch pa ts).1 := by
  unfold State.chanLoad
  split
  · exact State.homeRead_sameLaunches ..
  · dsimp only
    split <;> exact .of_cores rfl rfl

theorem State.raisePts_sameLaunches (s : State) (ts : Nat) : s.SameLaunches (s.raisePts ts) := .setThread s _

theorem State.setL1_sameLaunches (s : State) (c : Nat) (l1 : List L1Copy) : s.SameLaunches (s.setCore c { s.core c with l1 := l1 }) := .setCore rfl

/-- A load through the slices and L1 of a core. -/
theorem State.countedRead_sameLaunches (s : State) (ev : Nat) (l : Loc) (ts lam p : Nat) (alloc : Bool) :
    s.SameLaunches (((s.count ev).homeRead l ts lam alloc).1.raisePts p) :=
  ((State.count_sameLaunches ..).trans (State.homeRead_sameLaunches ..)).trans (State.raisePts_sameLaunches ..)

theorem State.load_sameLaunches (s : State) (l : Loc) (n hint : Nat) : s.SameLaunches (s.load l n hint).1 := by
  unfold State.load
  dsimp only
  split
  · exact (State.chanLoad_sameLaunches ..).trans (State.raisePts_sameLaunches ..)
  · split
    · exact (State.count_sameLaunches ..).trans (State.raisePts_sameLaunches ..)
    · split
      · exact (State.countedRead_sameLaunches ..).trans (State.setL1_sameLaunches ..)
      · exact State.countedRead_sameLaunches ..
  · exact (State.homeRead_sameLaunches ..).trans (State.raisePts_sameLaunches ..)
  · exact ((State.countFar_sameLaunches ..).trans (State.homeRead_sameLaunches ..)).trans (State.raisePts_sameLaunches ..)

/-- The loads of a span. -/
theorem State.loadSpan_sameLaunches (s : State) (va : Nat) (ls : List (Nat × Loc)) : s.SameLaunches (s.loadSpan va ls).1 := by
  induction ls generalizing s va with
  | nil => exact .refl s
  | cons x ls ih => exact ((State.noteAccess_sameLaunches ..).trans (State.load_sameLaunches ..)).trans (ih ..)

end Sys2Proof.Machine
end

section
/-! SUPPORT. The effects of the capsule instructions (R314-R327). -/

namespace Sys2Proof.Machine

/-- A capsule instruction runs on a slot of a core that a launch holds. -/
theorem State.capCore_some {s : State} {c ln k : Nat} (h : s.capCore = some (c, ln, k)) : s.cur = .slot c k ∧ (s.core c).launch = some ln := by
  unfold State.capCore at h
  split at h
  next c' k' hcur =>
    split at h
    · cases h
    · obtain ⟨l, hl, he⟩ := Option.map_eq_some_iff.mp h
      cases he
      exact ⟨hcur, hl⟩
  next => cases h

/-- The bay that the current thread holds. -/
theorem State.held_of_clean {s : State} {c ln k b : Nat} (hc : s.capCore = some (c, ln, k)) (hb : (s.slot c k).hold = some b)
    (hclean : s.spanClean c (bayOff b) 256 = .ok ()) : s.held = .ok (c, ln, b) := by
  simp only [State.held, hc, hb, hclean]
  rfl

/-! ## A capsule that the transit store takes, or for which its instruction parks (R322, R324) -/

/-- A capsule sent by the current thread after the loads of a span; of a CAPNEXT its bay is emptied. -/
def State.sendCapsule (s : State) (c ln : Nat) (x : Capsule) (b : Option Nat) : State :=
  let t := s.enterTransit ln { x with ts := s.thread.pts }
  match b with
  | some b => t.setCore c ((t.core c).dropBay b)
  | none => t

theorem State.commitCapsule_eq {s t : State} {c ln k : Nat} (hc : s.capCore = some (c, ln, k)) (h : s.SameLaunches t) (x : Capsule) (b : Option Nat) :
    t.commitCapsule x b = t.sendCapsule c ln x b := by
  obtain ⟨hcur, hl⟩ := State.capCore_some hc
  simp only [State.commitCapsule, h.cur, hcur, h.launch, hl, Option.getD_some]
  rfl

section
variable {s t : State} {c ln k d : Nat} {way : Chk Unit} (x : Capsule) (b : Option Nat) (e : Eff)

theorem routedCapsule_sent (hc : s.capCore = some (c, ln, k)) (h : s.SameLaunches t) (hw : way = .ok ()) :
    routedCapsule way d x b t e = .done (t.sendCapsule c ln x b) e := by
  rw [hw, ← State.commitCapsule_eq hc h]
  rfl

theorem routedCapsule_waits {w : Wait} (hw : way = .wait w) :
    routedCapsule way d x b t e = .sent (t.setThread { t.thread with
      outgoing := some (x, b), reply := some { e with pts := max e.pts t.thread.pts } }) (.transit d) := by
  rw [hw]
  rfl

end

/-! ## CAPNEW -/

/-- A number shifted by `n` bytes, `m` bits. -/
theorem shiftLeft_bytes {n m : Nat} (h : 8 * n = m) (x : Nat) : x <<< (8 * n) = x * 2 ^ m := by rw [h, Nat.shiftLeft_eq]

section
variable {f : FmtR} {s : State} (e : Eff) {c ln k : Nat} (hc : s.capCore = some (c, ln, k))
include hc

/-- CAPNEW of an image it accepts, with a routable first station. -/
theorem capnewBody_routed {ls lt : List (Nat × Loc)} {p : Place} (ha : (s.rs f.a).toNat % 64 = 0)
    (hls : s.reachSpan (s.rs f.a).toNat 256 .load = .ok ls) (himg : imageBad (s.loadSpan (s.rs f.a).toNat ls).2 = false)
    (hb : imgGet (s.loadSpan (s.rs f.a).toNat ls).2 14 2 = 0 ∨ (s.rs f.b).toNat % 64 = 0)
    (hlt : s.reachSpan (s.rs f.b).toNat (imgGet (s.loadSpan (s.rs f.a).toNat ls).2 14 2) .load = .ok lt)
    (hp : s.route ln c (newImage (s.loadSpan (s.rs f.a).toNat ls).2 ln c k
      + ((s.loadSpan (s.rs f.a).toNat ls).1.loadSpan (s.rs f.b).toNat lt).2 * 2 ^ 2048) 0 = some p) :
    let r := s.loadSpan (s.rs f.a).toNat ls
    let q := r.1.loadSpan (s.rs f.b).toNat lt
    capnewBody f s e = routedCapsule (s.transitWay ln c p) p.dev
      { data := BitVec.ofNat 67584 (newImage r.2 ln c k + q.2 * 2 ^ 2048), ts := 0, place := p } none q.1 e := by
  have hshift (x : Nat) : x <<< (8 * 256) = x * 2 ^ 2048 := shiftLeft_bytes (n := 256) (m := 2048) rfl x
  have hal : ¬(imgGet (s.loadSpan (s.rs f.a).toNat ls).2 14 2 != 0 && (s.rs f.b).toNat % 64 != 0) = true := by
    obtain h | h := hb <;> simp [h]
  simp only [capnewBody, hc, ha, bne_self_eq_false, Bool.false_eq_true, if_false, hls, Chk.res_ok, himg, if_neg hal, hlt, hshift, hp]

/-! ## CAPWAIT -/

/-- The handler that CAPWAIT writes for a bay. -/
def State.capPc (s : State) (c ln k b : Nat) : Word :=
  if ((s.core c).bay b).assigned = some k then ((s.core c).bay b).handler
  else (s.core c).bayHandler b (((s.launch? ln).map (·.handlers)).getD [])

theorem capwaitForm_takes (nw : Bool) {b : Nat} (hold : (s.slot c k).hold = none) (hb : (s.core c).bayFor k = some b)
    (hclean : s.spanClean c (bayOff b) 256 = .ok ()) :
    let w := (s.core c).bayGet b (64 + 8 * (s.core c).bayGet b 17 1) 8
    capwaitForm nw f s e = .done (s.setCore c ((s.core c).takeBay b k)) { e with
      writes := e.writes ++ wrS f.d (s.capPc c ln k b) ++ wrS (f.d + 1) (BitVec.ofNat 64 w) ++ wrS (f.d + 2) (BitVec.ofNat 64 (winBase + bayOff b))
      pts := max e.pts ((s.core c).bay b).ts } := by
  have hold' : ((s.core c).slot k).hold = none := hold
  simp only [capwaitForm, hc, hold', Option.isSome_none, Bool.false_eq_true, if_false, hb, hclean, Chk.res_ok]
  rfl

theorem capwaitNwBody_none (hold : (s.slot c k).hold = none) (hb : (s.core c).bayFor k = none) :
    capwaitNwBody f s e = .done s { e with writes := e.writes ++ wrS f.d 0 ++ wrS (f.d + 1) 0 ++ wrS (f.d + 2) 0 } := by
  have hold' : ((s.core c).slot k).hold = none := hold
  simp only [capwaitNwBody, capwaitForm, hc, hold', Option.isSome_none, Bool.false_eq_true, if_false, hb, if_true]

theorem capgetBody_park (hsel : f.imm.toNat % 256 = 0x3F) :
    capgetBody f s e = doneS s e f.d (BitVec.ofNat 64 (((s.launch? ln).map (·.park)).getD 0)) := by
  simp only [capgetBody, hsel, if_true, hc]

end

/-! ## Instructions of a thread that holds a capsule -/

section
variable {f : FmtR} {s : State} (e : Eff) {c ln b : Nat} (hheld : s.held = .ok (c, ln, b))
include hheld

/-- CAPNEXT after the last station. -/
theorem capnextBody_last (hlast : imgGet ((s.core c).bayImage b) 16 1 ≤ imgGet ((s.core c).bayImage b) 17 1 + 1) :
    capnextBody f s e = doneS s e f.d 1 :=
  (Chk.res_of_ok hheld).trans (if_pos hlast)

/-- The image that CAPNEXT sends: CUR and the hops raised, the header's BEGUN bit clear. -/
def nextImage (d : Nat) : Nat :=
  imgPut (imgPut (imgPut d 17 1 (imgGet d 17 1 + 1)) 18 1 (imgGet d 18 1 + 1)) 19 1 (imgGet d 19 1 &&& 0xFD)

theorem capnextBody_routed {p : Place} {ls : List (Nat × Loc)}
    (hmore : imgGet ((s.core c).bayImage b) 17 1 + 1 < imgGet ((s.core c).bayImage b) 16 1) (hhops : imgGet ((s.core c).bayImage b) 18 1 ≠ 255)
    (hp : s.route ln c (nextImage ((s.core c).bayImage b)) (imgGet ((s.core c).bayImage b) 17 1 + 1) = some p)
    (hls : s.reachSpan (winBase + bayOff b) (256 + min 8192 (imgGet ((s.core c).bayImage b) 14 2)) .load = .ok ls) :
    capnextBody f s e = routedCapsule (s.transitWay ln c p) p.dev
      { data := BitVec.ofNat 67584 (nextImage ((s.core c).bayImage b)), ts := 0, place := p } (some b) (s.loadSpan (winBase + bayOff b) ls).1
      (e.scalar f.d 0) := by
  rw [nextImage] at hp
  rw [capnextBody, Chk.res_of_ok hheld, Eff.scalar_eq]
  simp only [if_neg (Nat.not_le.mpr hmore), if_neg hhops, hp, hls, Chk.res_ok]
  rfl

/-! ## CAPINS and CAPDEL -/

section
variable (hw : stationBad (s.rs f.a).toNat = false)
include hw

theorem capinsBody_full (hn : (s.core c).bayGet b 16 1 = 12) : capinsBody f s e = doneS s e f.d 1 := by
  simp only [capinsBody, hheld, Chk.res_ok, hw, Bool.false_eq_true, if_false, hn, if_true]

theorem capinsBody_outside (hn : (s.core c).bayGet b 16 1 ≠ 12)
    (hi : (s.rs f.b).toNat ≤ (s.core c).bayGet b 17 1 ∨ (s.core c).bayGet b 16 1 < (s.rs f.b).toNat) : capinsBody f s e = doneS s e f.d 2 := by
  simp only [capinsBody, hheld, Chk.res_ok, hw, Bool.false_eq_true, if_false, if_neg hn, if_pos hi]

theorem capinsBody_inserts (hn : (s.core c).bayGet b 16 1 ≠ 12) (hlow : (s.core c).bayGet b 17 1 < (s.rs f.b).toNat)
    (hhigh : (s.rs f.b).toNat ≤ (s.core c).bayGet b 16 1) :
    let x := s.core c
    let n := x.bayGet b 16 1
    let ws := x.stations b
    let i := (s.rs f.b).toNat
    capinsBody f s e = doneS (s.setCore c (x.putStations b (ws.take i ++ [(s.rs f.a).toNat % 2 ^ 63] ++ (ws.take n).drop i ++ ws.drop (n + 1)) (n + 1)))
      e f.d 0 := by
  have hi : ¬((s.rs f.b).toNat ≤ (s.core c).bayGet b 17 1 ∨ (s.core c).bayGet b 16 1 < (s.rs f.b).toNat) := by omega
  simp only [capinsBody, hheld, Chk.res_ok, hw, Bool.false_eq_true, if_false, if_neg hn, if_neg hi]

end

theorem capdelBody_outside (hi : (s.rs f.b).toNat ≤ (s.core c).bayGet b 17 1 ∨ (s.core c).bayGet b 16 1 ≤ (s.rs f.b).toNat) :
    capdelBody f s e = doneS s e f.d 2 :=
  (Chk.res_of_ok hheld).trans (if_pos hi)

theorem capdelBody_removes (hlow : (s.core c).bayGet b 17 1 < (s.rs f.b).toNat) (hhigh : (s.rs f.b).toNat < (s.core c).bayGet b 16 1) :
    let x := s.core c
    let n := x.bayGet b 16 1
    let ws := x.stations b
    let i := (s.rs f.b).toNat
    capdelBody f s e = doneS (s.setCore c (x.putStations b (ws.take i ++ (ws.take n).drop (i + 1) ++ [0] ++ ws.drop n) (n - 1))) e f.d 0 :=
  (Chk.res_of_ok hheld).trans (if_neg (by omega))

/-! ## CAPSET and CAPGET -/

theorem capsetBody_sets {y : Core} (hy : (s.core c).capset b (f.imm.toNat % 256) (s.rs f.a).toNat = .ok y)
    (hclean : s.spanClean c (bayOff b) (if f.imm.toNat % 256 = 2 then 8448 else 256) = .ok ()) :
    capsetBody f s e = .done (s.setCore c y) e := by
  simp only [capsetBody, hheld, Chk.res_ok, hy, hclean]

theorem capgetBody_field (hsel : f.imm.toNat % 256 ≠ 0x3F) :
    capgetBody f s e = doneS s e f.d (BitVec.ofNat 64 ((s.core c).capget b (f.imm.toNat % 256))) := by
  simp only [capgetBody, if_neg hsel, hheld, Chk.res_ok]

/-! ## CAPPARK and CAPDONE -/

theorem capparkBody_parks {l : Launch} (hl : s.launch? ln = some l) (hroom : s.parkRoom l = true) (hpark : s.parkClean l = .ok ())
    (hway : s.wayTo (devOf c) (s.parkDev ln) (flt .prot) = .ok ()) (hclean : s.spanClean c (bayOff b) 8448 = .ok ()) :
    let s2 := s.setCore c ((s.core c).dropBay b)
    let r := s2.parkCapsule ln ((s.core c).bayImage b) 1 s2.thread.pts none
    capparkBody f s e = doneS r.1 e f.d (BitVec.ofNat 64 r.2) := by
  simp only [capparkBody, hheld, Chk.res_ok, hl, hway, hclean, hpark, Chk.bind, hroom, Bool.not_true, Bool.false_eq_true, if_false]

theorem capdoneBody_silent (ha : (s.core c).bayGet b 32 8 = 0) : capdoneBody f s e = .done (s.setCore c ((s.core c).dropBay b)) e :=
  (Chk.res_of_ok hheld).trans (if_pos ha)

theorem capdoneBody_stores {l : Loc} (ha : (s.core c).bayGet b 32 8 ≠ 0) (hal : (s.core c).bayGet b 32 8 % 8 = 0)
    (hl : s.reach s.cur ((s.core c).bayGet b 32 8) 8 .store = .ok l) :
    let s2 := (s.noteAccess ((s.core c).bayGet b 32 8) l).store l 8 1 ((s.core c).bayGet b 40 8)
    capdoneBody f s e = .done (s2.setCore c ((s2.core c).dropBay b)) e := by
  simp only [capdoneBody, hheld, Chk.res_ok, if_neg ha, hal, bne_self_eq_false, Bool.false_eq_true, if_false, hl]

end

/-- Settles O18, each instruction by its effect with its checks passed; the loads of CAPNEW and CAPNEXT leave the launch that the capsule
enters. -/
theorem capsuleInstructionsComplete : Obligations.CapsuleInstructionsComplete := by
  refine ⟨fun f s s1 e c ln k hc => ⟨fun ls lt p => ?capnew, fun b hold hb => ?capwait,
      fun hold hb hr => exec_done hr rfl (capwaitNwBody_none e hc hold hb), fun b hr hb hclean => ?capnext⟩,
    fun f s s1 e c ln k hc => ⟨fun hr hsel => exec_done hr rfl (capgetBody_park e hc hsel), fun b hb hclean => ?holder⟩⟩
  case capnew =>
    intro _ _ _ _ hr ha hls himg hb hlt q d hp x
    have hbody := capnewBody_routed (f := f) e hc ha hls himg hb hlt hp
    have hsame := (s1.loadSpan_sameLaunches (s1.rs f.a).toNat ls).trans (State.loadSpan_sameLaunches _ (s1.rs f.b).toNat lt)
    exact ⟨fun hw => exec_replies hr rfl (hbody.trans (routedCapsule_sent x none e hc hsame hw)),
      fun w hw => meaning_sent hr (hbody.trans (routedCapsule_waits x none e hw))⟩
  case capwait =>
    intro w pc i hi hr hclean
    obtain rfl | rfl : i = .capwait f ∨ i = .capwaitNw f := by simpa using hi
    · exact exec_done hr rfl (capwaitForm_takes e hc false hold hb hclean)
    · exact exec_done hr rfl (capwaitForm_takes e hc true hold hb hclean)
  case capnext =>
    have hheld := State.held_of_clean hc hb hclean
    refine ⟨fun hlast => exec_replies hr rfl (capnextBody_last e hheld hlast), fun p ls hmore hhops hp hls => ?_⟩
    have hbody := capnextBody_routed (f := f) e hheld hmore hhops hp hls
    have hsame := s1.loadSpan_sameLaunches (winBase + bayOff b) ls
    exact ⟨fun hw => exec_replies hr rfl (hbody.trans (routedCapsule_sent _ (some b) _ hc hsame hw)),
      fun w hw => meaning_sent hr (hbody.trans (routedCapsule_waits _ (some b) _ hw))⟩
  case holder =>
    have hheld := State.held_of_clean hc hb hclean
    exact ⟨fun hr hw => ⟨fun hn => exec_done hr rfl (capinsBody_full e hheld hw hn),
        fun hn hi => exec_done hr rfl (capinsBody_outside e hheld hw hn hi),
        fun hn hlow hhigh => exec_done hr rfl (capinsBody_inserts e hheld hw hn hlow hhigh)⟩,
      fun hr => ⟨fun hi => exec_done hr rfl (capdelBody_outside e hheld hi), fun hlow hhigh => exec_done hr rfl (capdelBody_removes e hheld hlow hhigh)⟩,
      fun y hr hy hclean' => exec_done hr rfl (capsetBody_sets e hheld hy hclean'), fun hr hsel => exec_done hr rfl (capgetBody_field e hheld hsel),
      fun l hr hl hroom hpark hway hclean' => exec_replies hr rfl (capparkBody_parks e hheld hl hroom hpark hway hclean'),
      fun hr ha => exec_replies hr rfl (capdoneBody_silent e hheld ha),
      fun l hr ha hal hl => exec_replies hr rfl (capdoneBody_stores e hheld ha hal hl)⟩

end Sys2Proof.Machine
end
